-- ==== Sys2Proof/Word.lean ====
section
/-!
DEFINITION. The word types of the model and the sparse table that every numbered store of the engine uses.
-/

namespace Sys2Proof

/-- A byte, the smallest addressable unit (R6). -/
abbrev Byte := BitVec 8

/-- A core register, a lane, an instruction word (R186, R216). -/
abbrev Word := BitVec 32

/-- A 64-bit word: configuration words, header words, store program words (R352). -/
abbrev DWord := BitVec 64

/-- A sparse table: key and value pairs with strictly rising keys; what an unlisted key reads as is said by
the reader of the table (`Machine.tget`). Every family of numbered registers, counters or slots is one. -/
abbrev Tab (α : Type) := List (Nat × α)

namespace Machine

/-- An exact dyadic value: `man × 2^exp`. -/
structure Dy where
  man : Int
  exp : Int
deriving DecidableEq, Repr

end Machine

end Sys2Proof
end

