-- ==== Sys2Proof/Syntax.lean ====
section
/-!
DEFINITION. The commands of the engine: the operand types and the one inductive `Instr`, one constructor for each row of
spec/opcode_table.json, in the table's order. The table gives no operand bits, so the operands are what the rule of
the row needs from outside the block (DESIGN CHOICE, log entry 1).
-/

namespace Sys2Proof

/-- Who sent a command of the ROM command set: the host, or the engine at a fabric address (R404, R416). -/
inductive Src where
  | host
  | peer (addr : Nat)
deriving DecidableEq, Repr

/-- A mesh message: header word 0 (`dest`, `src`), header word 1 and the payload (R193). -/
structure Msg where
  dest : Word
  src : Word
  w1 : DWord
  payload : List Byte
deriving DecidableEq, Repr

/-- A tether flit: the 16-byte header as one value and the valid payload bytes (R302). -/
structure Flit where
  hdr : BitVec 128
  payload : List Byte
deriving DecidableEq, Repr

/-- A command of the ROM command set as the control complex holds it: the eight words of R408 (the CRC apart), and the
data that the buffer list names, gathered (R410). `listOk` says that the list's lengths add up to the total of P2;
`dmaOk` that every host memory read completed without an error (R413). -/
structure Cmd where
  src : Src
  w0 : DWord
  p1 : DWord
  p2 : DWord
  p3 : DWord
  p4 : DWord
  p5 : DWord
  p6 : DWord
  data : List Byte
  listOk : Bool
  dmaOk : Bool
deriving DecidableEq, Repr

/-- A UDP packet at a media port (R342): addresses, the VLAN tag if any, the RTP fields and the payload. -/
structure MediaPkt where
  dstIp : Nat
  srcIp : Nat
  udpDst : Nat
  udpSrc : Nat
  vid : Option Nat
  pt : Nat
  seq : Nat
  ts : Nat
  ssrc : Nat
  payload : List Byte
deriving DecidableEq, Repr

/-- The kinds of PTP message that the slave-only clock uses (R339). -/
inductive PtpKind where
  | announce
  | sync (twoStep : Bool)
  | followUp
  | delayResp
deriving DecidableEq, Repr

/-- A PTP message with its receive timestamp. `rank` is the grandmaster's data set as one number, lower is better, as
the profile's best master clock algorithm orders it; times are in nanoseconds. -/
structure PtpMsg where
  kind : PtpKind
  domain : Nat
  gm : Nat
  rank : Nat
  rateCode : Nat
  seqId : Nat
  origin : Nat
  rxTime : Nat
  /-- The VLAN tag of its frame. -/
  vid : Option Nat
  /-- Its logMessageInterval: the announce interval of an Announce, `logMinDelayReqInterval` in a Delay_Resp. -/
  logInt : Int
deriving DecidableEq, Repr

/-- What a media port answers besides PTP and RTP (R337): an ARP request, an ICMP echo, an IGMP query. -/
inductive LanKind where
  | arp | echo | igmpQuery
deriving DecidableEq, Repr

/-- One MADI subframe as received (R348). -/
structure MadiSub where
  value : Int
  parityOk : Bool
  validity : Bool
  active : Bool
deriving DecidableEq, Repr

/-- What the far end of a link sends in the neighbour exchange (R308). -/
structure Neighbour where
  uid : Nat
  addr : Option Nat
  cascade : Bool
  mooring : Bool
  rate : Nat
  quantum : Nat
  bcA : Bool
deriving DecidableEq, Repr

/-- A link-state record (R309): `links` holds port, neighbour address and link version. -/
structure Lsr where
  addr : Option Nat
  uid : Nat
  seq : Nat
  links : List (Nat × Nat × Nat)
  quality : Nat
  watch : List Nat
  /-- The address is a STATIC one (R310). -/
  fixed : Bool
deriving DecidableEq, Repr

/-- The content of a TIME flit (R319). -/
structure TimeFlit where
  tstamp : Nat
  rate : Nat
  quantum : Nat
  root : Nat
  quality : Nat
  hops : Nat
  delay : Nat
deriving DecidableEq, Repr

/-- The content of a heartbeat (R320). -/
structure Heartbeat where
  sender : Nat
  qindex : Nat
  run : Nat
  notServing : Bool
  quality : Nat
  lsrSeq : Nat
  servingFor : List Nat
deriving DecidableEq, Repr

/-- What the 64 passes of a calibration return for one column (R164): the number of the column's entry in the record (R160), and
pass by pass the codes of the converters of its hi and its lo cell. -/
structure ColMeas where
  entry : Nat
  codes : List (Int × Int)
deriving DecidableEq, Repr

/-- What a self-test slice observes (R450, R452): the MISR signature of its LBIST; the reads of its march, each with its bank, what
was written and what was read; the codes of the passes that it drives, zero codes and stimulus codes, each pass as code 532j + k for
converter k in slot j; and for each lane of a port the average power transmitted and received, in 0.01 dBm. -/
structure SliceObs where
  misr : Nat
  reads : List (Nat × Nat × Nat)
  zeros : List (List Int)
  stims : List (List Int)
  lanes : List (Int × Int)
deriving DecidableEq, Repr

/-- What a calibration measures for one plane (R160, R164): the mean die temperature, the activity byte; for each column group
the sums over the passes of D_full - D_zero and of D_mid, as its reference columns return them; and the columns. -/
structure CalMeas where
  plane : Nat
  temp : Int
  act : Nat
  refs : List (Int × Int)
  cols : List ColMeas
deriving DecidableEq, Repr

/-- A cell that a read-back finds more than 0.25 of a level from its target (R149, R170): its row, its logical column, which cell
of the pair, and its level. -/
structure StuckCell where
  row : Nat
  col : Nat
  hiCell : Bool
  level : Nat
deriving DecidableEq, Repr

/-- What the cells of a sector answer to a read (R358, R359): the bit errors of each of the eight codewords at nominal
references, and under the shifted references of a read-retry; and what the replica peer answers where the engine has to
ask it for the sector (R298), no bytes where it has none. -/
structure CellEnv where
  errs : List Nat
  retryErrs : List Nat
  replica : List Byte
deriving DecidableEq, Repr

/-- Who asks the store for a program or an erase: one of the requesters that write protection binds, or the
controller itself (R371). -/
inductive Requester where
  | outside
  | internal
deriving DecidableEq, Repr

/-- Where an operation on a sync object comes from (R198, R203). -/
inductive SyncSrc where
  | core (c : Nat)
  | entry
  | unit
  | peer
deriving DecidableEq, Repr

/-- The commands, one constructor for each row of spec/opcode_table.json. The rows of the core instruction set carry the
core that issues the instruction and the operand bits [22:0] of its word (R216, R217). -/
inductive Instr where
  /-- `SUPPLY_GOOD` (R418). Every rail has been at or above its good level for 1 ms without a break, so the engine leaves OFF for BOOT at its internal power-on reset. -/
  | supplyGood
  /-- `RAIL_TRIP` (R420). A rail lies beyond a trip level for more than 1 µs, or the supply is removed, and the engine goes to OFF at once, losing all volatile state. -/
  | railTrip (rail : Nat) (intentReads : Bool)
  /-- `SUPPLY_GLITCH` (R420). A rail excursion beyond a trip level ends within 1 µs and is only counted for that rail. -/
  | supplyGlitch (rail : Nat)
  /-- `BOOT_SEQUENCE` (R398). The boot runs its steps in order, from the internal power-on reset through store bring-up, configuration, health read and intent replay, up to lighting the lasers. -/
  | bootSequence (romOk : Bool) (vreq : Nat)
  /-- `RECOVERY_BUDGET_EXPIRY` (R402). RECOVERY_MS elapses with ALLOW_UNVERIFIED set, so no further recovery slice starts and untested blocks become UNVERIFIED. -/
  | recoveryBudgetExpiry
  /-- `LINK_TRAINING_END` (R398). Boot step 8 ends when every enabled port has trained or 1.0 s has passed, and steps 9 to 11 start. -/
  | linkTrainingEnd
  /-- `CLOCK_ACQUISITION_TIMEOUT` (R52). The acquisition timeout ends boot step 9 with the best qualified source in ACQUIRING, or in FREE_RUN. -/
  | clockAcquisitionTimeout
  /-- `FABRIC_CONVERGENCE` (R311). Fifty milliseconds pass without a record change, or FAB_CONVERGE expires, so boot step 11 runs the placement check and load. -/
  | fabricConvergence
  /-- `WARM_RESET` (R17). The WARM_RESET command aborts long commands, drains every unit to its safe boundary and then re-enters BOOT. -/
  | warmReset (c : Cmd)
  /-- `WARM_RESET_DRAIN_DONE` (R23). The warm-reset drain completes, a not-serving heartbeat goes to every watcher, and the boot starts. -/
  | warmResetDrainDone
  /-- `QUANTUM_BOUNDARY` (R31). The sample count reaches a multiple of Q, which ends collection of the quantum and opens the next processing window. -/
  | quantumBoundary
  /-- `USE_RECENT_HALVE` (R292). At every quantum index that is a multiple of 65,536, each directory entry's USE_RECENT is halved. -/
  | useRecentHalve
  /-- `SCHEDULE_RELEASE` (R38). An active schedule entry reaches its instant and applies its ACTION to its sync object. -/
  | scheduleRelease (idx : Nat)
  /-- `DEADLINE` (R32). Two samples before the boundary, the processing window closes, every unit drains, and slots whose output is not complete take their miss action. -/
  | deadline
  /-- `LATE_RESULT_DISCARD` (R32). A result of a quantum that completes after its deadline is discarded and counted in LATE_RESULT. -/
  | lateResultDiscard
  /-- `CORE_DEADLINE_REACHED` (R41). TSTAMP reaches a core's loaded deadline, which sets its sticky flag and counts CORE_DEADLINE_PASSED. -/
  | coreDeadlineReached (core : Nat)
  /-- `TIME_WAIT_RESUME` (R41). A core waiting for an instant resumes when that interpolator phase arrives. -/
  | timeWaitResume (core : Nat)
  /-- `SOURCE_QUALIFIED` (R43). A media-clock source meets its qualification tests, and the bridle may take it in ACQUIRING. -/
  | sourceQualified (src : Nat) (ppb : Int)
  /-- `STABILITY_TEST_PASS` (R47). The source in use passes its stability test, and the bridle measures the phase error and slews it out or holds it as an offset. -/
  | stabilityTestPass (src sec frac : Nat) (errs : List Int)
  /-- `SLEW_COMPLETE` (R47). The slewed phase error reaches zero, and the bridle reports LOCKED. -/
  | slewComplete
  /-- `SOURCE_LOST` (R45). The source in use fails a timing, frequency or rate test, and the bridle enters HOLDOVER or moves to the next source. -/
  | sourceLost (src : Nat)
  /-- `PHASE_STEP` (R500). A locked source's phase departs by more than PHASE_TOL for 16 quanta, and the bridle returns to ACQUIRING. -/
  | phaseStep (errs : List Int)
  /-- `HOLDOVER_EXPIRY` (R45). The holdover limit expires, and the bridle reports FREE_RUN. -/
  | holdoverExpiry
  /-- `REVERT_HOLDOFF_EXPIRY` (R46). A higher-priority source has stayed qualified for the revert hold-off with REVERT set, and the bridle takes it. -/
  | revertHoldoffExpiry (src : Nat)
  /-- `MEDIA_PACKET_RX` (R342). A media port receives a UDP packet, matches it to a stream, filters it, and places its samples at their indices. -/
  | mediaPacketRx (port : Nat) (p : MediaPkt)
  /-- `MEDIA_PACKET_TX` (R344). A transmit stream's packet window is handed off, and its RTP packet is sent. -/
  | mediaPacketTx (stream : Nat)
  /-- `PTP_MESSAGE_RX` (R339). A media port receives and timestamps a PTP message for its slave-only clock. -/
  | ptpMessageRx (port : Nat) (m : PtpMsg)
  /-- `ARP_ICMP_RX` (R337). A media port answers an ARP request or an ICMP echo. -/
  | arpIcmpRx (port : Nat) (kind : LanKind) (vid : Option Nat) (target sender : Nat) (payload : List Byte)
  /-- `MEDIA_LINK_DOWN` (R345). A media port's link goes down, so its inputs go missing and its transmit packets are dropped. -/
  | mediaLinkDown (port : Nat)
  /-- `MEDIA_LINK_UP` (R345). A media link returns, sends IGMPv3 reports and resumes transmission. -/
  | mediaLinkUp (port : Nat)
  /-- `MEDIA_STREAM_STOP` (R502). After the shutdown fade quantum, the media, MADI and tether streams stop and the port leaves its receive groups. -/
  | mediaStreamStop
  /-- `MADI_FRAME_RX` (R348). A MADI frame completes in a sample period and its channels enter the channel stage. -/
  | madiFrameRx (port : Nat) (subs : List MadiSub)
  /-- `MADI_FRAME_TX` (R349). A MADI frame starts at tick 0 of its presentation sample. -/
  | madiFrameTx (port : Nat)
  /-- `TETHER_STREAM_RX` (R385). A tether stream DATA message reaches the channel stage, and its samples enter at their presentation indices. -/
  | tetherStreamRx (m : Msg)
  /-- `ROW_RECEIVE` (R235). A flank takes a ROW message piece, appends it to its row, and quantises the row once it is whole. -/
  | rowReceive (m : Msg)
  /-- `PASS_ISSUE` (R124). The flank has room for a pass's codes, and the array latches and drives the next pass. -/
  | passIssue (arr delayNs : Nat)
  /-- `FLANK_GROUP_OUT` (R131). A column group's conversions pass through the flank pipeline stages. -/
  | flankGroupOut (arr group : Nat) (dev : List Int)
  /-- `RERUN_PASS` (R109). A misfitting RERUN row is coded again at its own scale and evaluated in the next MVM slot. -/
  | rerunPass (arr : Nat)
  /-- `JOIN_REDUCE` (R138). The joining flank holds every row tile's partial sum for a column group, adds them in order, and runs stages 7 to 10. -/
  | joinReduce (arr slot tpos : Nat)
  /-- `ADAPTER_TERM_RECEIVE` (R171). The adapter core's correction term arrives, and the flank adds it before stage 6. -/
  | adapterTermReceive (arr slot tpos : Nat)
  /-- `CAL_CONDITION_CHECK` (R163). Every 16 quanta, the control complex measures temperature and activity, chooses the nearest records and flags STALE arrays. -/
  | calConditionCheck (arr : Nat) (temp : Int)
  /-- `CAL_SLICE` (R165). A read-only calibration slice of at most 250 passes starts when the array's input FIFO is empty. -/
  | calSlice (arr passes : Nat)
  /-- `CALIBRATION_COMPLETE` (R164). A calibration's passes complete, and the control complex fits new records and loads them. -/
  | calibrationComplete (arr : Nat) (meas : List CalMeas) (curves : List (List Int))
  /-- `PLANE_PROGRAM` (R149). At a quantum boundary, an array enters PROGRAMMING to erase, program and verify a plane. -/
  | planeProgram (arr plane : Nat) (env : List (Nat × CellEnv))
  /-- `PLANE_PROGRAM_DONE` (R149). A plane program and its calibration capture complete, and the array leaves PROGRAMMING at a boundary. -/
  | planeProgramDone (arr : Nat) (meas : CalMeas) (off : List StuckCell)
  /-- `COLUMN_PROGRAM` (R170). Up to eight flagged columns are erased, reprogrammed and read back, and partner cells are compensated. -/
  | columnProgram (arr plane : Nat) (cols : List Nat) (stuck : List StuckCell)
  /-- `SPARE_REMAP` (R174). A column still beyond its bound is re-mapped to a programmed spare, or marked unrepairable. -/
  | spareRemap (arr plane col : Nat) (stuck : List StuckCell)
  /-- `PROBE_SAVE` (R172). Every PROBE_INT quanta, the flank saves one row and its acc_corr to the probe ring. -/
  | probeSave (arr desc : Nat)
  /-- `ADAPTER_TRAIN_STEP` (R172). The adapter core takes an SGD step on 32 probe rows. -/
  | adapterTrainStep (arr desc : Nat) (rows ga gb : List Nat)
  /-- `ADAPTER_CANDIDATE_EVAL` (R172). After 64 steps, the candidate is evaluated on held-out rows and accepted if every flagged column improves. -/
  | adapterCandidateEval (arr desc rank : Nat)
  /-- `ADAPTER_WRITEBACK` (R172). Adapters are written to the HEALTH partition at most once every 65,536 quanta. -/
  | adapterWriteback
  /-- `PHASE_SWITCH` (R189). A core issues an instruction of the other phase, waits for accesses in flight, then changes phase. -/
  | phaseSwitch (core : Nat) (compute : Bool)
  /-- `DATA_DELIVER` (R195). A DATA message is written to its destination ring or direct address, and its sync action follows. -/
  | dataDeliver (m : Msg)
  /-- `RESULT_DELIVER` (R194). A RESULT message is written to the core's ring, or discarded as stale. -/
  | resultDeliver (m : Msg)
  /-- `TASK_ENQUEUE` (R208). A TASK message enters its hardware task queue. -/
  | taskEnqueue (m : Msg)
  /-- `LOFT_READ_REQ` (R245). A loft slice checks a READ_REQ and answers it with a READ_RESP. -/
  | loftReadReq (m : Msg)
  /-- `LOFT_WRITE` (R245). A DATA message writes bytes into a loft slice, subject to protection. -/
  | loftWrite (m : Msg)
  /-- `DMA_TRANSFER_COMPLETE` (R232). A DRD or DWR transfer's last byte arrives or is accepted, and its tag completes. -/
  | dmaTransferComplete (core : Nat)
  /-- `SYNC_SIGNAL` (R200). A sync object's home router adds n to a semaphore, or sets an event. -/
  | syncSignal (obj n : Nat) (src : SyncSrc)
  /-- `SYNC_ARRIVE` (R201). An arrival at a barrier counts and, at TARGET, releases every waiter. -/
  | syncArrive (obj : Nat) (src : SyncSrc)
  /-- `SYNC_SET` (R202). SET on an event sets it and releases the cores waiting in WAITSET. -/
  | syncSet (obj : Nat) (src : SyncSrc)
  /-- `SYNC_CLEAR` (R202). CLEAR on an event clears it. -/
  | syncClear (obj : Nat) (src : SyncSrc)
  /-- `SYNC_WAIT` (R200). WAIT n on a semaphore subtracts n, or queues the waiter in arrival order. -/
  | syncWait (obj n core : Nat)
  /-- `SYNC_WAITSET` (R202). WAITSET completes on a set event, or queues the core. -/
  | syncWaitset (obj core : Nat)
  /-- `SYNC_READ` (R198). READ returns an object's count or release count. -/
  | syncRead (obj core : Nat)
  /-- `CORE_WAKE` (R198). A queued waiter is satisfied, and the core resumes within 4 CORECTL cycles. -/
  | coreWake (core : Nat)
  /-- `TASK_AVAILABLE` (R208). A task becomes available to a core waiting in TAKE, which takes it and starts at its ENTRY. -/
  | taskAvailable (core : Nat)
  /-- `NOP` (R220). The scalar instruction NOP does nothing. -/
  | iNop (core : Nat) (ops : BitVec 23)
  /-- `ADD` (R220). The scalar instruction ADD adds two registers, saturating unless MODW is set. -/
  | iAdd (core : Nat) (ops : BitVec 23)
  /-- `SUB` (R220). The scalar instruction SUB subtracts two registers, saturating unless MODW is set. -/
  | iSub (core : Nat) (ops : BitVec 23)
  /-- `MUL` (R220). The scalar instruction MUL forms the product, saturated, or its low 32 bits with MODW. -/
  | iMul (core : Nat) (ops : BitVec 23)
  /-- `AND` (R220). The scalar instruction AND forms the bitwise AND. -/
  | iAnd (core : Nat) (ops : BitVec 23)
  /-- `OR` (R220). The scalar instruction OR forms the bitwise OR. -/
  | iOr (core : Nat) (ops : BitVec 23)
  /-- `XOR` (R220). The scalar instruction XOR forms the bitwise XOR. -/
  | iXor (core : Nat) (ops : BitVec 23)
  /-- `SHL` (R220). The scalar instruction SHL shifts left, saturating unless MODW is set. -/
  | iShl (core : Nat) (ops : BitVec 23)
  /-- `SHR` (R220). The scalar instruction SHR shifts right logically. -/
  | iShr (core : Nat) (ops : BitVec 23)
  /-- `SRA` (R220). The scalar instruction SRA shifts right arithmetically with the selected rounding. -/
  | iSra (core : Nat) (ops : BitVec 23)
  /-- `SLT` (R220). The scalar instruction SLT sets 1 if sa < sb, signed. -/
  | iSlt (core : Nat) (ops : BitVec 23)
  /-- `SLTU` (R220). The scalar instruction SLTU sets 1 if sa < sb, unsigned. -/
  | iSltu (core : Nat) (ops : BitVec 23)
  /-- `MIN` (R220). The scalar instruction MIN gives the signed minimum. -/
  | iMin (core : Nat) (ops : BitVec 23)
  /-- `MAX` (R220). The scalar instruction MAX gives the signed maximum. -/
  | iMax (core : Nat) (ops : BitVec 23)
  /-- `ADDI` (R220). The scalar instruction ADDI adds a sign-extended immediate, saturated. -/
  | iAddi (core : Nat) (ops : BitVec 23)
  /-- `ANDI` (R220). The scalar instruction ANDI ANDs a zero-extended immediate. -/
  | iAndi (core : Nat) (ops : BitVec 23)
  /-- `ORI` (R220). The scalar instruction ORI ORs a zero-extended immediate. -/
  | iOri (core : Nat) (ops : BitVec 23)
  /-- `LUI` (R220). The scalar instruction LUI loads IMM18 × 2¹⁴. -/
  | iLui (core : Nat) (ops : BitVec 23)
  /-- `LLO` (R220). The scalar instruction LLO loads the low 14 bits of a register. -/
  | iLlo (core : Nat) (ops : BitVec 23)
  /-- `LD` (R220). The scalar instruction LD loads a 32-bit word from local memory. -/
  | iLd (core : Nat) (ops : BitVec 23)
  /-- `ST` (R220). The scalar instruction ST stores a 32-bit word to local memory. -/
  | iSt (core : Nat) (ops : BitVec 23)
  /-- `BEQ` (R220). The scalar instruction BEQ branches if the registers are equal. -/
  | iBeq (core : Nat) (ops : BitVec 23)
  /-- `BNE` (R220). The scalar instruction BNE branches if the registers are not equal. -/
  | iBne (core : Nat) (ops : BitVec 23)
  /-- `BLT` (R220). The scalar instruction BLT branches if less than, signed. -/
  | iBlt (core : Nat) (ops : BitVec 23)
  /-- `BGE` (R220). The scalar instruction BGE branches if greater or equal, signed. -/
  | iBge (core : Nat) (ops : BitVec 23)
  /-- `JAL` (R220). The scalar instruction JAL links and jumps by an offset. -/
  | iJal (core : Nat) (ops : BitVec 23)
  /-- `JR` (R220). The scalar instruction JR jumps to a register. -/
  | iJr (core : Nat) (ops : BitVec 23)
  /-- `MFS` (R219). The scalar instruction MFS reads a special register. -/
  | iMfs (core : Nat) (ops : BitVec 23)
  /-- `MTS` (R219). The scalar instruction MTS writes a special register. -/
  | iMts (core : Nat) (ops : BitVec 23)
  /-- `SCALEC` (R222). The scalar instruction SCALEC computes a quantisation scale with sc16_ceil. -/
  | iScalec (core : Nat) (ops : BitVec 23)
  /-- `SCMAX` (R221). The scalar instruction SCMAX selects the larger of two SC16 codes by value. -/
  | iScmax (core : Nat) (ops : BitVec 23)
  /-- `VADD` (R224). The vector instruction VADD adds per lane. -/
  | iVadd (core : Nat) (ops : BitVec 23)
  /-- `VSUB` (R224). The vector instruction VSUB subtracts per lane. -/
  | iVsub (core : Nat) (ops : BitVec 23)
  /-- `VMUL` (R224). The vector instruction VMUL multiplies per lane. -/
  | iVmul (core : Nat) (ops : BitVec 23)
  /-- `VMAC` (R224). The vector instruction VMAC multiplies and accumulates per lane. -/
  | iVmac (core : Nat) (ops : BitVec 23)
  /-- `VMIN` (R224). The vector instruction VMIN gives the minimum per lane. -/
  | iVmin (core : Nat) (ops : BitVec 23)
  /-- `VMAX` (R224). The vector instruction VMAX gives the maximum per lane. -/
  | iVmax (core : Nat) (ops : BitVec 23)
  /-- `VABS` (R224). The vector instruction VABS gives the absolute value per lane. -/
  | iVabs (core : Nat) (ops : BitVec 23)
  /-- `VAND` (R224). The vector instruction VAND forms the bitwise AND per lane. -/
  | iVand (core : Nat) (ops : BitVec 23)
  /-- `VOR` (R224). The vector instruction VOR forms the bitwise OR per lane. -/
  | iVor (core : Nat) (ops : BitVec 23)
  /-- `VXOR` (R224). The vector instruction VXOR forms the bitwise XOR per lane. -/
  | iVxor (core : Nat) (ops : BitVec 23)
  /-- `VSHL` (R224). The vector instruction VSHL shifts left per lane. -/
  | iVshl (core : Nat) (ops : BitVec 23)
  /-- `VSRA` (R224). The vector instruction VSRA shifts right per lane with rounding. -/
  | iVsra (core : Nat) (ops : BitVec 23)
  /-- `VCMPLT` (R224). The vector instruction VCMPLT compares less-than per lane. -/
  | iVcmplt (core : Nat) (ops : BitVec 23)
  /-- `VSEL` (R224). The vector instruction VSEL selects per lane. -/
  | iVsel (core : Nat) (ops : BitVec 23)
  /-- `VBCAST` (R224). The vector instruction VBCAST broadcasts a scalar to every lane. -/
  | iVbcast (core : Nat) (ops : BitVec 23)
  /-- `VCVT` (R224). The vector instruction VCVT converts between S32 and FP32. -/
  | iVcvt (core : Nat) (ops : BitVec 23)
  /-- `VSCALE` (R224). The vector instruction VSCALE applies an SC16 scale to each lane. -/
  | iVscale (core : Nat) (ops : BitVec 23)
  /-- `VRSUM` (R224). The vector instruction VRSUM sums the lanes in order into a scalar. -/
  | iVrsum (core : Nat) (ops : BitVec 23)
  /-- `VRMAX` (R224). The vector instruction VRMAX gives the largest lane. -/
  | iVrmax (core : Nat) (ops : BitVec 23)
  /-- `VAMAX` (R224). The vector instruction VAMAX gives the largest absolute lane. -/
  | iVamax (core : Nat) (ops : BitVec 23)
  /-- `VQUANT` (R227). The vector instruction VQUANT codes lanes at a scale, counting clamps. -/
  | iVquant (core : Nat) (ops : BitVec 23)
  /-- `VLD` (R225). The vector instruction VLD loads VLEN values in a memory format. -/
  | iVld (core : Nat) (ops : BitVec 23)
  /-- `VST` (R225). The vector instruction VST stores VLEN lanes in a memory format. -/
  | iVst (core : Nat) (ops : BitVec 23)
  /-- `MLDW` (R229). The matrix instruction MLDW loads a weight block into a buffer. -/
  | iMldw (core : Nat) (ops : BitVec 23)
  /-- `MMAC` (R230). The matrix instruction MMAC accumulates activation rows times the weight block. -/
  | iMmac (core : Nat) (ops : BitVec 23)
  /-- `MDRAIN` (R231). The matrix instruction MDRAIN drains an accumulator with scales to local memory. -/
  | iMdrain (core : Nat) (ops : BitVec 23)
  /-- `DRD` (R232). The transfer instruction DRD issues a loft-to-local transfer. -/
  | iDrd (core : Nat) (ops : BitVec 23)
  /-- `DWR` (R232). The transfer instruction DWR issues a local-to-loft transfer. -/
  | iDwr (core : Nat) (ops : BitVec 23)
  /-- `DWAIT` (R232). The transfer instruction DWAIT waits for transfers of a tag, or for all transfers. -/
  | iDwait (core : Nat) (ops : BitVec 23)
  /-- `SEND` (R233). The message instruction SEND sends a message from local memory. -/
  | iSend (core : Nat) (ops : BitVec 23)
  /-- `RSETUP` (R234). The message instruction RSETUP sets up or disables a receive ring. -/
  | iRsetup (core : Nat) (ops : BitVec 23)
  /-- `RADV` (R234). The message instruction RADV advances a ring's read pointer. -/
  | iRadv (core : Nat) (ops : BitVec 23)
  /-- `RSTAT` (R234). The message instruction RSTAT reads a ring's state. -/
  | iRstat (core : Nat) (ops : BitVec 23)
  /-- `AEVAL` (R235). The array-dispatch instruction AEVAL submits a row to a flank as ROW messages. -/
  | iAeval (core : Nat) (ops : BitVec 23)
  /-- `SIG` (R236). The sync instruction SIG signals a semaphore with n. -/
  | iSig (core : Nat) (ops : BitVec 23)
  /-- `ARRIVE` (R236). The sync instruction ARRIVE arrives at a barrier and waits for its release. -/
  | iArrive (core : Nat) (ops : BitVec 23)
  /-- `SSET` (R236). The sync instruction SSET sets an event. -/
  | iSset (core : Nat) (ops : BitVec 23)
  /-- `SCLR` (R236). The sync instruction SCLR clears an event. -/
  | iSclr (core : Nat) (ops : BitVec 23)
  /-- `SWAIT` (R236). The sync instruction SWAIT waits n on a semaphore. -/
  | iSwait (core : Nat) (ops : BitVec 23)
  /-- `SWAITSET` (R236). The sync instruction SWAITSET waits for an event. -/
  | iSwaitset (core : Nat) (ops : BitVec 23)
  /-- `SREAD` (R236). The sync instruction SREAD reads an object's count or release count. -/
  | iSread (core : Nat) (ops : BitVec 23)
  /-- `QEND` (R207). The sync instruction QEND ends the quantum's program, or acts as TEND. -/
  | iQend (core : Nat) (ops : BitVec 23)
  /-- `TAKE` (R208). The sync instruction TAKE takes a task from the queues in QMASK, or waits for one. -/
  | iTake (core : Nat) (ops : BitVec 23)
  /-- `TEND` (R236). The sync instruction TEND ends a task and continues at DISPATCH. -/
  | iTend (core : Nat) (ops : BitVec 23)
  /-- `TNOW` (R238). The time instruction TNOW reads TSTAMP into a register pair. -/
  | iTnow (core : Nat) (ops : BitVec 23)
  /-- `TWAIT` (R238). The time instruction TWAIT waits until TSTAMP reaches a value. -/
  | iTwait (core : Nat) (ops : BitVec 23)
  /-- `TWAITQ` (R238). The time instruction TWAITQ waits for an instant within the current window. -/
  | iTwaitq (core : Nat) (ops : BitVec 23)
  /-- `TDLINE` (R238). The time instruction TDLINE loads or disarms the core's deadline. -/
  | iTdline (core : Nat) (ops : BitVec 23)
  /-- `REEL_FILL_START` (R249). A reel starts filling its next entry once no more than D entries are outstanding. -/
  | reelFillStart (reel : Nat)
  /-- `REEL_FILL_COMPLETE` (R250). A fill's last block is expanded into the loft, and its FILL_SYNC is signalled or held. -/
  | reelFillComplete (reel : Nat) (env : List (Nat × CellEnv)) (stalls : List Nat) (data : List Byte)
  /-- `REEL_RELEASE` (R252). A release SYNC_OP at a reel slice adds to a release counter and frees outstanding entries in list order. -/
  | reelRelease (m : Msg)
  /-- `REEL_LATE_NOTIFY` (R257). A core joins the wait on an unsignalled fill, and the reel starts counting the stall cause. -/
  | reelLateNotify (reel core : Nat)
  /-- `FABRIC_MESSAGE_SEND` (R304). The fabric switch takes a REMOTE message, EC-codes it where that applies, and sends it as flits on a stream. -/
  | fabricMessageSend (m : Msg)
  /-- `FLIT_RECEIVE` (R303). A tether flit's header arrives, is checked, and is forwarded or reassembled. -/
  | flitReceive (port : Nat) (f : Flit) (fec : List Nat)
  /-- `FEC_UNCORR_LIMIT` (R301). More than TP_UNCORR_MAX uncorrectable codewords arrive within 1 ms, and the port leaves UP to retrain. -/
  | fecUncorrLimit (port : Nat)
  /-- `LINK_LOSS_OF_SIGNAL` (R306). A tether port loses signal and returns to TRAINING. -/
  | linkLossOfSignal (port : Nat)
  /-- `LINK_TRAINED` (R306). A tether port completes lock, equalisation and alignment, and enters NEGOTIATING. -/
  | linkTrained (port : Nat)
  /-- `TRAINING_TIMEOUT` (R306). No lock within 20 ms, and the attempt repeats 100 ms later. -/
  | trainingTimeout (port : Nat)
  /-- `VERSION_EXCHANGE` (R307). The link ends exchange version ranges, and the link runs at the highest common version. -/
  | versionExchange (port lo hi : Nat)
  /-- `VERSION_RETRY` (R307). Without a common version, the exchange repeats every 1 s. -/
  | versionRetry (port : Nat)
  /-- `NEIGHBOUR_EXCHANGE` (R308). The link ends exchange UID, address, mode, rate and class, and the link becomes UP or is held. -/
  | neighbourExchange (port : Nat) (n : Neighbour)
  /-- `LSR_RECEIVE` (R309). A newer link-state record is accepted, flooded on, and the routes are recomputed. -/
  | lsrReceive (port : Nat) (r : Lsr)
  /-- `LSR_PERIODIC` (R309). Every 1 s, the engine floods its link-state record. -/
  | lsrPeriodic
  /-- `LSR_EXPIRY` (R309). A record not refreshed within 3.5 s is removed. -/
  | lsrExpiry (uid : Nat)
  /-- `LINK_DELAY_MEASURE` (R319). Every 1 s, LINK exchanges measure link delay. -/
  | linkDelayMeasure (port delay : Nat)
  /-- `TIME_FLIT_RECEIVE` (R319). A TIME flit from the root's route is accepted and forwarded with residence time and delay added. -/
  | timeFlitReceive (port : Nat) (t : TimeFlit) (residence : Nat)
  /-- `HEARTBEAT_RECEIVE` (R321). A watcher takes a peer's heartbeat, and a not-serving heartbeat declares the peer failed. -/
  | heartbeatReceive (h : Heartbeat)
  /-- `PEER_DECLARED_FAILED` (R321). A third consecutive heartbeat is missed, and the watcher declares the peer failed. -/
  | peerDeclaredFailed (addr : Nat)
  /-- `REMAP_SELF_APPLY` (R323). Eight quanta after its declaration without an announcement, an engine applies its plan alone. -/
  | remapSelfApply (addr : Nat)
  /-- `MC_ACK_RECEIVE` (R313). The source takes a member's acknowledgement and prunes the member if its lag exceeds W. -/
  | mcAckReceive (group member vc seq : Nat)
  /-- `MC_PRUNE_NOTICE` (R313). A pruned member takes the prune notice, discards its partial message and raises MC_PRUNED. -/
  | mcPruneNotice (src group : Nat)
  /-- `BULK_RESEND_REQUEST` (R317). A receiver detects a missing bulk sector by a gap or a 10 ms stall, and requests it again or fails the transfer. -/
  | bulkResendRequest (src transfer : Nat) (sectors : List Nat)
  /-- `RESEND_REQUEST_RECEIVE` (R317). The source resends the requested sectors from its store copy. -/
  | resendRequestReceive (src transfer : Nat) (sectors : List Nat)
  /-- `SWITCH_READY_REPORT` (R297). The lowest-addressed holder collects ready reports and fixes the switch index. -/
  | switchReadyReport (model gen holder : Nat)
  /-- `SWITCH_TIMEOUT` (R297). SWITCH_TIMEOUT passes after the first report, and every holder abandons the switch. -/
  | switchTimeout (model : Nat)
  /-- `HOST_LINK_DOWN` (R334). The host link goes down, and host DMA stops and the rings reset, with no engine reset. -/
  | hostLinkDown
  /-- `HOST_LINK_UP` (R336). The PCIe link trains up and answers configuration reads. -/
  | hostLinkUp (rate width : Nat)
  /-- `HOST_FLR` (R334). A Function Level Reset resets the host interface and voids the spill registration. -/
  | hostFlr
  /-- `HOST_HOT_RESET` (R334). A hot reset or PERST# resets the host interface only. -/
  | hostHotReset
  /-- `HOST_D3HOT_ENTRY` (R334). Entry to D3hot stops host DMA and ignores doorbells. -/
  | hostD3hotEntry
  /-- `HOST_D0_RETURN` (R334). The function returns to D0, and its rings resume with their state. -/
  | hostD0Return
  /-- `PORT_LASER_FAULT` (R331). A chiplet detects a laser fault and darkens every port it serves. -/
  | portLaserFault (chiplet : Nat) (within60 : Bool)
  /-- `LASER_RETRY` (R331). One second after a laser fault, the chiplet retries, and a second fault keeps it dark. -/
  | laserRetry (chiplet : Nat) (ok : Bool)
  /-- `SQ_TAIL_WRITE` (R406). A submission doorbell write sets the tail index for fetching. -/
  | sqTailWrite (v : DWord)
  /-- `CQ_HEAD_WRITE` (R407). The host writes the completion ring head, which frees space. -/
  | cqHeadWrite (v : DWord)
  /-- `EQ_HEAD_WRITE` (R407). The host writes the event ring head, which frees space. -/
  | eqHeadWrite (v : DWord)
  /-- `TQ_HEAD_WRITE` (R407). The host writes the trace ring head, which frees space. -/
  | tqHeadWrite (v : DWord)
  /-- `RING_CFG_WRITE` (R406). A ring configuration write enables or disables a ring, resetting its pointers and phase. -/
  | ringCfgWrite (ring : Nat) (v : DWord)
  /-- `RING_BASE_WRITE` (R406). A ring base write sets the ring's base while the ring is disabled. -/
  | ringBaseWrite (ring : Nat) (v : DWord)
  /-- `EVT_SUMMARY_CLEAR` (R405). A write of 1s clears EQ_OVF or severity bits in EVT_SUMMARY. -/
  | evtSummaryClear (v : DWord)
  /-- `CLK_STATUS_CLEAR` (R51). A write of 1s clears STEPPED or LOCK_LOST. -/
  | clkStatusClear (v : Word)
  /-- `REGISTER_WRITE` (R7). A write to a register without a row of its own acts under its access code. -/
  | registerWrite (off : Nat) (v : DWord)
  /-- `BAR0_BAD_ACCESS` (R404). An unaligned or wrongly sized BAR0 access is discarded, returns zero on a read, and is counted. -/
  | bar0BadAccess (off size : Nat) (write : Bool)
  /-- `COMMAND_FETCH` (R411). The engine fetches a command when the completion ring has room and checks it in order. -/
  | commandFetch (bytes data : List Byte) (listOk dmaOk : Bool)
  /-- `PEER_COMMAND` (R416). A peer command arrives at the control complex and is accepted or refused. -/
  | peerCommand (src : Nat) (bytes data : List Byte)
  /-- `NEGOTIATE` (R415). The NEGOTIATE command selects the highest common command-set version. -/
  | negotiate (c : Cmd)
  /-- `IDENTIFY` (R413). The IDENTIFY command writes the identity page. -/
  | identify (c : Cmd)
  /-- `SET_RUN_STATE` (R413). The SET_RUN_STATE command requests a run-state change at the next boundary. -/
  | setRunState (c : Cmd)
  /-- `CFG_WRITE` (R380). The CFG_WRITE command writes a configuration record into the unselected slot, header last. -/
  | cfgWrite (c : Cmd)
  /-- `CFG_READ` (R413). The CFG_READ command writes a slot's record, or its header sector. -/
  | cfgRead (c : Cmd)
  /-- `INSTALL` (R282). The INSTALL command checks, decrypts, verifies and stores a package, then applies SWITCH. -/
  | install (c : Cmd)
  /-- `INSTALL_COMPLETE` (R282). The installation's last layer is written, the generation becomes STORED and the final completion is posted. -/
  | installComplete (c : Cmd)
  /-- `ACTIVATE` (R291). The ACTIVATE command makes a stored generation active by switch, or under BOOT_ACT. -/
  | activate (c : Cmd)
  /-- `DIR_READ` (R413). The DIR_READ command writes the model directory. -/
  | dirRead (c : Cmd)
  /-- `MODEL_REMOVE` (R413). The MODEL_REMOVE command frees an inactive generation. -/
  | modelRemove (c : Cmd)
  /-- `SPILL_REGISTER` (R413). The SPILL_REGISTER command registers or unregisters the host spill region. -/
  | spillRegister (c : Cmd)
  /-- `CALIBRATE` (R413). The CALIBRATE command queues calibrations of the named arrays and planes. -/
  | calibrate (c : Cmd)
  /-- `BIST` (R457). The BIST command runs self-test slices on demand, optionally clearing a FAILED block. -/
  | bist (c : Cmd)
  /-- `DEBUG_HALT` (R478). The DEBUG_HALT command arms a halt of the computing units at an instant. -/
  | debugHalt (c : Cmd)
  /-- `DEBUG_RESUME` (R479). The DEBUG_RESUME command ends the halt at the next quantum boundary. -/
  | debugResume (c : Cmd)
  /-- `COUNTER_READ` (R468). The COUNTER_READ command reads counters, gauges or snapshots, optionally clearing them. -/
  | counterRead (c : Cmd)
  /-- `RIPCORD_ARM` (R474). The RIPCORD_ARM command arms a counter freeze at a TSTAMP, optionally broadcast. -/
  | ripcordArm (c : Cmd)
  /-- `TELEMETRY` (R499). The TELEMETRY command writes the telemetry page. -/
  | telemetry (c : Cmd)
  /-- `EVENTLOG_READ` (R413). The EVENTLOG_READ command writes records from the EVENTLOG partition. -/
  | eventlogRead (c : Cmd)
  /-- `ATTEST` (R448). The ATTEST command writes a signed attestation report. -/
  | attest (c : Cmd)
  /-- `LC_TRANSITION` (R446). The LC_TRANSITION command checks a token and performs a life-cycle transition or key update. -/
  | lcTransition (c : Cmd)
  /-- `LC_KEYGEN_COMPLETE` (R440). Device key generation completes, and provisioning programs OTP and its slot. -/
  | lcKeygenComplete (keys : List Byte)
  /-- `REFORMAT` (R413). The REFORMAT command erases a partition and returns its retired sectors. -/
  | reformat (c : Cmd)
  /-- `REMAP_RETURN` (R324). The REMAP_RETURN command fixes a return index for a returned engine. -/
  | remapReturn (c : Cmd)
  /-- `STORE_READ` (R358). The store reads a sector, corrects it and reports its status, flags and CBITS. -/
  | storeRead (sector : Nat) (env : CellEnv)
  /-- `ERASE_RESUME` (R364). No read has been queued for 2 µs, and the suspended erase resumes. -/
  | eraseResume (bank : Nat)
  /-- `POISON_REPORT` (R359). A requester reports a poisoned WP block, and the sector is marked POISONED with PREQ set. -/
  | poisonReport (sector : Nat)
  /-- `STORE_PROGRAM_REQUEST` (R360). A program request is checked against the present contents and queued or refused. -/
  | storeProgramRequest (sector first : Nat) (data : List DWord) (allowClear sealCw : Bool) (by_ : Requester)
  /-- `PROGRAM_STEP_COMPLETE` (R357). A program step completes its verify, or fails and retires the sector. -/
  | programStepComplete (bank : Nat) (verifyOk : Bool)
  /-- `STORE_ERASE_REQUEST` (R363). An erase request writes an intent record and starts or queues the erase. -/
  | storeEraseRequest (sector : Nat) (by_ : Requester)
  /-- `ERASE_COMPLETE` (R365). An erase verifies, the count is written, the intent is marked done and the sector becomes ERASED. -/
  | eraseComplete (bank : Nat) (verifyOk : Bool)
  /-- `RELOCATION` (R370). A REFRESH or cold sector is copied to a spare, its mapping is committed and the old sector is erased. -/
  | relocation (sector : Nat) (env : CellEnv)
  /-- `PATROL_READ` (R370). Each WRITTEN sector is read once per PATROL_DAYS. -/
  | patrolRead (sector : Nat) (env : CellEnv)
  /-- `CHECKPOINT_WRITE` (R367). The journal passes three quarters full, and the half-map is written to the older checkpoint. -/
  | checkpointWrite (stack : Nat)
  /-- `DROOP_DETECT` (R421). A droop detector fires, and ARITH and FLANK drop to half frequency. -/
  | droopDetect
  /-- `STRETCH_HOLD_END` (R421). The 64-cycle hold and the 16 clear cycles end, and the clock ramp begins. -/
  | stretchHoldEnd (cycles : Nat)
  /-- `RAMP_STEP_END` (R421). A 64-slot ramp step ends, and the clock moves to the next step or to full frequency. -/
  | rampStepEnd
  /-- `SAG_DEMAND_RISE` (R424). A rail's sag has stood past V_ENTER for SAG_US, and the sag demand rises one stage. -/
  | sagDemandRise (rail depth : Nat)
  /-- `SAG_DEMAND_FALL` (R424). The sag has stayed below the exit level for 1 ms, and the sag demand falls one stage. -/
  | sagDemandFall
  /-- `TEMP_EVALUATION` (R425). Every 1 ms, the temperature demand is evaluated against the stage thresholds. -/
  | tempEvaluation (dies : List Int)
  /-- `POWER_EVALUATION` (R426). Every 1 ms, the governor evaluates the mean package power. -/
  | powerEvaluation (power : Nat) (rails : List (Nat × Nat))
  /-- `VREQ_ANNOUNCE` (R419). The engine raises SUPPLY_VREQ 100 ms before changing V_REQ. -/
  | vreqAnnounce (mV : Nat)
  /-- `VREQ_APPLY` (R419). After 100 ms, the new VCORE reference takes effect. -/
  | vreqApply
  /-- `ENTROPY_HEALTH_FAIL` (R436). An entropy health test fails, which blocks random-value operations until 1,024 samples pass. -/
  | entropyHealthFail
  /-- `SHUTDOWN_FADE_DONE` (R21). The shutdown fade quantum ends, the media streams stop and the functions drain. -/
  | shutdownFadeDone
  /-- `SHUTDOWN_SELFTEST_START` (R454). The drain ends, and the shutdown self-test slices begin. -/
  | shutdownSelftestStart
  /-- `SELFTEST_SLICE_END` (R451). A slice ends, its block is re-initialised, its result is recorded and the next slice starts. -/
  | selftestSliceEnd (o : SliceObs)
  /-- `SLICE_BUDGET_EXPIRY` (R451). A slice overruns its budget, stops, and fails with code 0xFFFF. -/
  | sliceBudgetExpiry
  /-- `SHUTDOWN_SELFTEST_LIMIT` (R455). Six seconds pass with slices still to run, so self-test stops and the shutdown continues. -/
  | shutdownSelftestLimit
  /-- `ARRAY_FAIL_RECORD` (R460). An array failing in service has its health entry written within 1 s. -/
  | arrayFailRecord (arr : Nat)
  /-- `RIPCORD_FIRE` (R475). The ripcord instant arrives, and every domain copies its counters and gauges into the snapshot. -/
  | ripcordFire
  /-- `TRACE_COPY_DONE` (R483). The flight-recorder copy ends, and capture resumes. -/
  | traceCopyDone
  /-- `RIPCORD_BROADCAST_RECEIVE` (R476). A broadcast arm arrives from a peer and arms the ripcord, or fires it if late. -/
  | ripcordBroadcastReceive (tstamp src : Nat)
  /-- `DEBUG_HALT_INSTANT` (R478). The halt instant arrives, and cores, flanks and reels stop at their boundaries. -/
  | debugHaltInstant
  /-- `DEBUG_HALTED` (R478). The mesh empties, HALTED is set and the stop points are recorded. -/
  | debugHalted
  /-- `WORD_CLOCK_EDGE` (R350). A rising edge of light arrives on a serial audio port in word-clock mode and marks a sample for the bridle. -/
  | wordClockEdge (port : Nat)
  /-- `WORD_CLOCK_OUTPUT` (R350). At tick 0 of each sample period, a word-clock port with TX_EN set sends the rising edge of the bridle's word clock. -/
  | wordClockOutput (port : Nat)
  /-- `MADI_LOCK_LOST` (R348). A MADI receiver loses lock on its input and raises SA_LOCK_STATE. -/
  | madiLockLost (port : Nat)
  /-- `MADI_LOCK_GAINED` (R348). A MADI receiver gains lock on its input stream and reports the change of lock state. -/
  | madiLockGained (port : Nat)
  /-- `ENTROPY_TESTS_PASS` (R436). The entropy health tests pass for 1,024 consecutive samples, which lifts the block on key, IV and random-value operations. -/
  | entropyTestsPass
  /-- `FWD_COMPLETION_RECEIVE` (R417). The target's completion of a forwarded command arrives, and the engine posts it on its own completion ring with the host's TAG. -/
  | fwdCompletionReceive (tag status result0 result1 : Nat) (data : List Byte)
  /-- `FWD_TARGET_TIMEOUT` (R417). A forwarded command gets no completion within 3 s, or 600 s for a long command, and completes with TARGET_UNREACHABLE. -/
  | fwdTargetTimeout (tag : Nat)
  /-- `REMAP_INDEX_RECEIVE` (R323). An engine receives a coordinator's announcement of a re-map or return index and schedules the change for that boundary. -/
  | remapIndexReceive (failed index : Nat) (ret : Bool)
  /-- `SWITCH_INDEX_RECEIVE` (R297). A holder of a multi-engine model receives the switch index fixed by the lowest-addressed holder. -/
  | switchIndexReceive (model gen index : Nat)
  /-- `EVENT_FORWARD_RECEIVE` (R485). A monitor engine receives a forwarded event record from a peer and posts it unchanged to its own host event ring. -/
  | eventForwardReceive (rec : List Byte)
  /-- `COLUMN_PROGRAM_DONE` (R157). A column program and its calibration capture complete, and the array leaves PROGRAMMING at a quantum boundary. -/
  | columnProgramDone (arr : Nat) (meas : CalMeas)
deriving DecidableEq, Repr

end Sys2Proof
end

