-- ==== Sys2Proof/Decode.lean ====
section
/-!
DEFINITION. Decoding. The command table gives its rows no bits, so no table word spells a command. A core's instruction
word does have an encoding (R216, R217): `coreClass` names the command of the core instruction set that a class and an
opcode select.
-/

namespace Sys2Proof

/-- The command that a word spells by the table's bits: no row gives any. -/
def decodeTableWord (_nbits _w : Nat) : Option Instr := none

/-- The instruction of a class and opcode with its operand bits, issued by a core; none for the reserved ones (R216 to
R238). -/
def coreClass (core cls op : Nat) (ops : BitVec 23) : Option Instr :=
  let pick (l : List Instr) : Option Instr := l[op]?
  match cls with
  | 0 => pick [.iNop core ops, .iAdd core ops, .iSub core ops, .iMul core ops, .iAnd core ops, .iOr core ops,
      .iXor core ops, .iShl core ops, .iShr core ops, .iSra core ops, .iSlt core ops, .iSltu core ops, .iMin core ops,
      .iMax core ops, .iAddi core ops, .iAndi core ops, .iOri core ops, .iLui core ops, .iLlo core ops, .iLd core ops,
      .iSt core ops, .iBeq core ops, .iBne core ops, .iBlt core ops, .iBge core ops, .iJal core ops, .iJr core ops,
      .iMfs core ops, .iMts core ops, .iScalec core ops, .iScmax core ops]
  | 1 => pick [.iVadd core ops, .iVsub core ops, .iVmul core ops, .iVmac core ops, .iVmin core ops, .iVmax core ops,
      .iVabs core ops, .iVand core ops, .iVor core ops, .iVxor core ops, .iVshl core ops, .iVsra core ops,
      .iVcmplt core ops, .iVsel core ops, .iVbcast core ops, .iVcvt core ops, .iVscale core ops, .iVrsum core ops,
      .iVrmax core ops, .iVamax core ops, .iVquant core ops, .iVld core ops, .iVst core ops]
  | 2 => pick [.iMldw core ops, .iMmac core ops, .iMdrain core ops]
  | 3 => pick [.iDrd core ops, .iDwr core ops, .iDwait core ops]
  | 4 => pick [.iSend core ops, .iRsetup core ops, .iRadv core ops, .iRstat core ops]
  | 5 => pick [.iSig core ops, .iArrive core ops, .iSset core ops, .iSclr core ops, .iSwait core ops,
      .iSwaitset core ops, .iSread core ops, .iQend core ops, .iTake core ops, .iTend core ops]
  | 6 => pick [.iTnow core ops, .iTwait core ops, .iTwaitq core ops, .iTdline core ops]
  | 7 => pick [.iAeval core ops]
  | _ => none

/-- The command that a core's instruction word asks for (R216). -/
def decodeCoreWord (core : Nat) (w : Word) : Option Instr :=
  coreClass core (w.toNat / 2 ^ 28) (w.toNat / 2 ^ 23 % 32) (BitVec.ofNat 23 w.toNat)

end Sys2Proof
end

