-- ==== Sys2Proof/Config.lean ====
section
/-!
DEFINITION. What the model leaves uninterpreted. Constants without a body: what one stepping fixes (R2, R405), the free
values that stand where the spec states no value (each is applied to the model's counter `State.free`, or to the
operands it depends on; log entry 3), and the cryptographic functions that the spec names by their standards (log
entry 6). Nothing in Lean can evaluate one or prove a value of it, so a statement holds for every value.
-/

namespace Sys2Proof.Config

/-! ### Of the part and its stepping (R2, R405, R374) -/
opaque vendorId : Nat
opaque stepLetter : Nat
opaque stepDigit : Nat
/-- The part is of grade X; otherwise it is of grade C (R1, R405). -/
opaque gradeX : Bool
opaque romVersion : DWord

/-! ### Free values -/
/-- The measured frequency offset of the source in use, `FREQ_OFFSET` (R51). -/
opaque freeFreq : Nat → Word
/-- Cycle counts that depend on timing: `AUX` of a trace end, and the cycles a gauge has counted (R471, R480). -/
opaque freeCycles : Nat → Nat
/-- What a counter reads that only timing or the lines move, which no command of the table carries: by the number of the
free value and the counter (R470). -/
opaque freeCount : Nat → Nat → Nat
/-- Random values of the security engine: keys and initialisation values (R436). -/
opaque freeRandom : Nat → List Byte
/-- The words of a program step that a loss of supply cut (R362). -/
opaque freeWord : Nat → DWord
/-- The words of a codeword that is returned as its cells read, where they carry errors (R358, R359): by the number of
the free value and the word. -/
opaque freeRaw : Nat → Nat → DWord
/-- How far what the reference columns of calibration passes return departs from the expected values of R158: by the number of
the free value and the sum (R159). -/
opaque freeRef : Nat → Nat → Int
/-- The MISR signature that the ROM of the stepping holds for an LBIST class (R452). -/
opaque misrGolden : Nat → Nat

/-- The average transmit power range of 25GBASE-SR and the receiver's overload, in 0.01 dBm (R494, R495): IEEE 802.3 states them. -/
opaque mediaOptics : Int × Int × Int

/-- The stimulus generator of the calibrations (R164), by plane, pass and row: the spec fixes neither its seed nor its rule. A
code is 1 + this value mod 255. -/
opaque stimulus : Nat → Nat → Nat → Nat
/-- Whether reserved cores that stand-ins share can carry all of these tiles, given as (array, descriptor) (R177): the spec does
not say how many a core carries. -/
opaque standinFits : List (Nat × Nat) → Bool
/-- The packed sectors of a layer whose copy lies outside this engine's store, by its layer entry and digest: what a peer or the
host holds is no part of the state (R259). -/
opaque tier5 : List Byte → List Byte → List (List Byte)
/-- The sector of the replica peer's store that holds a sector of a layer, by the layer's entry, its digest and the sector's number in
the layer: no message tells the engine (R259). -/
opaque replicaSector : List Byte → List Byte → Nat → Nat
/-- The model that a layer descriptor of an array belongs to, where no plane tells it: the placement section has no field
for it (log entry 15). -/
opaque descModel : List (Nat × List Byte) → Nat → Nat → Nat
/-- An arrangement the spec leaves to the engine where several would meet its rules: a choice by number. -/
opaque freeChoice : Nat → Nat

/-! ### Standards (R279, R280, R378, R434 to R449) -/
opaque sha512 : List Byte → List Byte
/-- The modulus of the vendor root key, in the ROM of the stepping (R434). -/
opaque vendorKey : List Byte
/-- RSA-4096 PSS with SHA-512: key, message, signature. -/
opaque rsaPss : List Byte → List Byte → List Byte → Bool
/-- RSA-4096 PSS signing under the device private key (the words of the OTP row at 0x0500). -/
opaque rsaSign : List Byte → List Byte → List Byte
/-- RSA-OAEP unwrap under a private key: none where it fails. -/
opaque oaepUnwrap : List Byte → List Byte → Option (List Byte)
/-- AES-256-XTS of one 4,096-byte data unit: key, tweak, data. -/
opaque xtsDecrypt : List Byte → Nat → List Byte → List Byte
/-- AES-256-GCM: key, initialisation value, plain text; and the opening, none where the tag fails. -/
opaque gcmSeal : List Byte → List Byte → List Byte → List Byte
opaque gcmOpen : List Byte → List Byte → List Byte → Option (List Byte)
/-- AES-256-XTS encryption: key, tweak, data. -/
opaque xtsEncrypt : List Byte → Nat → List Byte → List Byte
/-- HMAC-SHA-512: key, message. -/
opaque hmac512 : List Byte → List Byte → List Byte

/-- The content bytes of a control, time or link flit by its kind and what it says: the spec lays out a heartbeat's alone (R302,
R320). Kinds 0 to 8 as `State.sendCtrl` lists them, 9 a link-state record, 10 fabric time. -/
opaque content : Nat → List Nat → List Byte
/-- The lowest link version of a cascade between two positions that are not neighbours: no message tells an engine of it (R307, R325). -/
opaque farVersion : Nat → Nat → Nat
/-- The engine that a shard of a set comes from: the declaration does not name it (R316). -/
opaque shardSource : Nat → Nat → Nat

/-- The shard set and index that a message carries, from its destination and header word 1: the spec does not say how the
source knows them (R315). -/
opaque shardOf : Nat → Nat → Nat

end Sys2Proof.Config
end

