-- ==== Sys2Proof/Machine/Bits.lean ====
section
/-!
DEFINITION. Bit fields, bytes, tables and the two CRCs: the small total functions every other file of the machine uses.
-/

namespace Sys2Proof.Machine

/-- Bits `hi` down to `lo` of a number. -/
def bf (w hi lo : Nat) : Nat := (w >>> lo) % 2 ^ (hi + 1 - lo)

/-- Bits `hi` down to `lo` of a register or record. -/
def fld {n : Nat} (w : BitVec n) (hi lo : Nat) : Nat := bf w.toNat hi lo

/-- One bit of a register as a flag. -/
def flag {n : Nat} (w : BitVec n) (i : Nat) : Bool := w.toNat.testBit i

/-- A flag as a number. -/
def b2n (b : Bool) : Nat := if b then 1 else 0

/-- The two's complement reading of the low `n` bits of a number. -/
def sx (n w : Nat) : Int :=
  let v := w % 2 ^ n
  if v < 2 ^ (n - 1) then (v : Int) else (v : Int) - (2 ^ n : Nat)

/-- The low `n` bits of an integer in two's complement. -/
def ux (n : Nat) (i : Int) : Nat := (i % ((2 ^ n : Nat) : Int)).toNat

/-- A number as `n` little-endian bytes (R6). -/
def leBytes : Nat → Nat → List Byte
  | 0, _ => []
  | n + 1, w => BitVec.ofNat 8 w :: leBytes n (w / 256)

/-- Little-endian bytes as a number (R6). -/
def leNat : List Byte → Nat
  | [] => 0
  | b :: r => b.toNat + 256 * leNat r

/-- A number from bytes in network order, the most significant first. -/
def beNat (l : List Byte) : Nat := leNat l.reverse

/-- `n` bytes at offset `o` of a list, little-endian; bytes beyond the end read as zero. -/
def leAt (l : List Byte) (o n : Nat) : Nat := leNat ((l.drop o).take n)

/-- A list cut or padded with `d` to length `n`. -/
def fit {α : Type} (d : α) : Nat → List α → List α
  | 0, _ => []
  | n + 1, [] => d :: fit d n []
  | n + 1, x :: r => x :: fit d n r

/-- Element `i`, or `d` beyond the end. -/
def nth {α : Type} (d : α) (l : List α) (i : Nat) : α := l.getD i d

/-- The list with element `i` replaced; unchanged where `i` is beyond the end. -/
def put {α : Type} (l : List α) (i : Nat) (v : α) : List α := l.set i v

/-- A list cut into pieces of `n` elements, by fuel (the length of the list is enough). -/
def chunksF {α : Type} : Nat → Nat → List α → List (List α)
  | 0, _, _ => []
  | _ + 1, _, [] => []
  | f + 1, n, l => l.take n :: chunksF f n (l.drop n)

/-- A list cut into pieces of `n` elements, the last one shorter where need be. -/
def chunks {α : Type} (n : Nat) (l : List α) : List (List α) := chunksF l.length n l

/-- The bytes as 64-bit little-endian words. -/
def dwords (l : List Byte) : List DWord := (chunks 8 l).map fun c => BitVec.ofNat 64 (leNat c)

/-- Words of eight bytes as bytes. -/
def ofDwords (l : List DWord) : List Byte := l.flatMap fun w => leBytes 8 w.toNat

/-- The sum of a list of numbers. -/
def sumN (l : List Nat) : Nat := l.foldl (· + ·) 0

/-- The sum of a list of integers. -/
def sumI (l : List Int) : Int := l.foldl (· + ·) 0

/-- The largest of a list of numbers, 0 for none. -/
def maxN (l : List Nat) : Nat := l.foldl Nat.max 0

/-- The quotient rounded up. -/
def cdiv (a b : Nat) : Nat := (a + b - 1) / b

/-- The number of bits set among the low `n`. -/
def popc : Nat → Nat → Nat
  | 0, _ => 0
  | n + 1, w => w % 2 + popc n (w / 2)

/-- The numbers below `n` whose bit is set in `w`, ascending. -/
def bitsSet (n w : Nat) : List Nat := (List.range n).filter fun i => w.testBit i

/-- The numbers of a list without repeats, the first of each kept. -/
def dedupN : List Nat → List Nat
  | [] => []
  | x :: r => x :: (dedupN r).filter (· != x)

/-- Insertion into a list kept in ascending order of a key. -/
def insBy {α : Type} (k : α → Nat) (a : α) : List α → List α
  | [] => [a]
  | x :: r => if k a < k x then a :: x :: r else x :: insBy k a r

/-- A list in ascending order of a key; equal keys keep their order. -/
def sortBy {α : Type} (k : α → Nat) (l : List α) : List α := l.foldl (fun acc a => insBy k a acc) []

/-- The sparse table read: the entry of key `k`, if listed. -/
def tfind {α : Type} : Tab α → Nat → Option α
  | [], _ => none
  | (k', v) :: r, k => if k' = k then some v else tfind r k

/-- The sparse table read with the value `d` of an unlisted key. -/
def tget {α : Type} (d : α) (t : Tab α) (k : Nat) : α := (tfind t k).getD d

/-- The sparse table with the entry of key `k` set or removed, keys kept strictly rising. -/
def tput {α : Type} : Tab α → Nat → Option α → Tab α
  | [], _, none => []
  | [], k, some v => [(k, v)]
  | (k', v') :: r, k, o =>
    if k < k' then (match o with | none => (k', v') :: tput r k none | some v => (k, v) :: (k', v') :: r)
    else if k = k' then (match o with | none => tput r k none | some v => (k, v) :: r)
    else (k', v') :: tput r k o

/-- The sparse table with key `k` holding `v`; the value `d` of an unlisted key is not listed. -/
def tset {α : Type} [DecidableEq α] (d : α) (t : Tab α) (k : Nat) (v : α) : Tab α :=
  tput t k (if v = d then none else some v)

/-- The sparse table with the value of key `k` changed by `f`. -/
def tmod {α : Type} [DecidableEq α] (d : α) (t : Tab α) (k : Nat) (f : α → α) : Tab α :=
  tset d t k (f (tget d t k))

/-- The sparse table without key `k`. -/
def tdel {α : Type} (t : Tab α) (k : Nat) : Tab α := tput t k none

/-- The listed keys. -/
def tkeys {α : Type} (t : Tab α) : List Nat := t.map (·.1)

/-- The canonical form of a table: keys strictly rising and above `lo`, no entry equal to `d`. -/
def tabWfFrom {α : Type} [DecidableEq α] (d : α) : Option Nat → Tab α → Bool
  | _, [] => true
  | lo, (k, v) :: r =>
    (match lo with | none => true | some b => decide (b < k)) && decide (v ≠ d) && tabWfFrom d (some k) r

/-- The canonical form of a table. -/
def tabWf {α : Type} [DecidableEq α] (d : α) (t : Tab α) : Bool := tabWfFrom d none t

/-- Keys strictly rising and above `lo`. -/
def keysFrom {α : Type} : Option Nat → Tab α → Prop
  | _, [] => True
  | lo, (k, _) :: r => (∀ b ∈ lo, b < k) ∧ keysFrom (some k) r

/-- Keys strictly rising: what every sparse table of the engine keeps. -/
def keysUp {α : Type} (t : Tab α) : Prop := keysFrom none t

/-- The byte of a sparse byte memory: a byte that nothing has written reads as zero (DESIGN CHOICE, log entry 4). -/
def rdByte (m : Tab Byte) (a : Nat) : Byte := tget 0 m a

/-- The sparse byte memory with one byte written. -/
def wrByte (m : Tab Byte) (a : Nat) (b : Byte) : Tab Byte := tset 0 m a b

/-- `n` bytes from address `a`. -/
def rdBytes (m : Tab Byte) (a n : Nat) : List Byte := (List.range n).map fun i => rdByte m (a + i)

/-- The bytes written from address `a` on. -/
def wrBytes : Tab Byte → Nat → List Byte → Tab Byte
  | m, _, [] => m
  | m, a, b :: r => wrBytes (wrByte m a b) (a + 1) r

/-- A little-endian number of `n` bytes at address `a` (R6). -/
def rdLe (m : Tab Byte) (a n : Nat) : Nat := leNat (rdBytes m a n)

/-- A number written as `n` little-endian bytes at address `a` (R6). -/
def wrLe (m : Tab Byte) (a n w : Nat) : Tab Byte := wrBytes m a (leBytes n w)

/-- One byte through a reflected CRC register of any width. -/
def crcRefl (poly : Nat) : Nat → Nat → Nat
  | 0, c => c
  | n + 1, c => crcRefl poly n (if c % 2 = 1 then (c / 2) ^^^ poly else c / 2)

/-- The Castagnoli CRC-32C: reflected, initial value and final XOR all ones (R408). -/
def crc32c (l : List Byte) : Nat :=
  (l.foldl (fun c b => crcRefl 0x82F63B78 8 (c ^^^ b.toNat)) 0xFFFFFFFF) ^^^ 0xFFFFFFFF

/-- One byte through a CRC-16 register, most significant bit first, for a polynomial. -/
def crcMsb (poly : Nat) : Nat → Nat → Nat
  | 0, c => c
  | n + 1, c =>
    crcMsb poly n (if c.testBit 15 then ((c * 2) % 0x10000) ^^^ poly else (c * 2) % 0x10000)

end Sys2Proof.Machine
end

