-- ==== Sys2Proof/Machine/Header.lean ====
section
/-!
DEFINITION. The header fields of messages (R184, R193), of commands (R408) and of flits (R302, R303).
-/

namespace Sys2Proof

open Machine

/-- Whether a unit number is in range for its kind (R184). -/
def unitInRange (kind unit : Nat) : Bool :=
  match kind with
  | 0 => decide (unit < 64)
  | 1 => decide (unit < 48)
  | 2 => decide (unit < 16)
  | 4 => decide (unit < 4)
  | 6 => decide (unit < 256)
  | _ => decide (unit = 0)

def Msg.remote (m : Msg) : Bool := flag m.dest 31
def Msg.dev (m : Msg) : Nat := fld m.dest 30 19
def Msg.kind (m : Msg) : Nat := fld m.dest 18 16
def Msg.unit (m : Msg) : Nat := fld m.dest 15 8
def Msg.sub (m : Msg) : Nat := fld m.dest 7 0
def Msg.type (m : Msg) : Nat := fld m.w1 63 60
def Msg.fmt (m : Msg) : Nat := fld m.w1 59 56
def Msg.len (m : Msg) : Nat := fld m.w1 55 42
def Msg.syncEn (m : Msg) : Bool := flag m.w1 41
def Msg.sync (m : Msg) : Nat := fld m.w1 40 29
def Msg.qtag (m : Msg) : Nat := fld m.w1 28 27
def Msg.arg (m : Msg) : Nat := fld m.w1 20 0
/-- The virtual channel of a message: 0 CTRL, 1 REQ, 2 DATA (R181). -/
def Msg.vc (m : Msg) : Nat := if m.type = 3 ∨ m.type = 6 ∨ m.type = 7 then 0 else if m.type = 4 then 1 else 2
/-- Whether a message unit sends a message with this header (R185, R193). -/
def Msg.sendable (m : Msg) : Bool :=
  unitInRange m.kind m.unit && decide (m.type ≤ 7) && decide (m.fmt ≤ 12) && decide (fld m.w1 26 21 = 0)
    && (if m.kind = 0 then decide (m.sub ≤ 15 ∨ m.sub = 255) else decide (m.sub = 0))
    && (m.kind != 6 || m.remote)
/-- The message is for a unit of this kind on this engine. -/
def Msg.toUnit (m : Msg) (kind : Nat) : Bool := !m.remote && m.kind == kind && unitInRange kind m.unit
def Cmd.opcode (c : Cmd) : Nat := fld c.w0 63 56
def Cmd.fence (c : Cmd) : Bool := flag c.w0 55
def Cmd.irq (c : Cmd) : Bool := flag c.w0 54
def Cmd.tag (c : Cmd) : Nat := fld c.w0 47 32
def Cmd.target (c : Cmd) : Nat := fld c.w0 31 20
def Cmd.fwd (c : Cmd) : Bool := flag c.w0 19

/-- The header CRC over header bytes 2 to 15 (R303). -/
def hcrc (w : Nat) : Nat :=
  ((List.range 14).map fun i => w / 256 ^ (i + 2) % 256).foldl (fun c b => crcMsb 0x1021 8 (c ^^^ (b * 256))) 0xFFFF

def Flit.dst (f : Flit) : Nat := fld f.hdr 127 116
def Flit.src (f : Flit) : Nat := fld f.hdr 115 104
def Flit.ftype (f : Flit) : Nat := fld f.hdr 103 100
def Flit.mc (f : Flit) : Bool := flag f.hdr 97
def Flit.first (f : Flit) : Bool := flag f.hdr 96
def Flit.stream (f : Flit) : Nat := fld f.hdr 95 88
def Flit.seq (f : Flit) : Nat := fld f.hdr 87 72
def Flit.shard (f : Flit) : Nat := fld f.hdr 55 40
def Flit.last (f : Flit) : Bool := flag f.hdr 39
def Flit.plen (f : Flit) : Nat := fld f.hdr 38 31

/-- The header passes the checks of R303: its CRC, and no reserved value or non-zero reserved field. -/
def Flit.sound (f : Flit) : Bool :=
  hcrc f.hdr.toNat == fld f.hdr 15 0 && decide (f.ftype < 4) && decide (fld f.hdr 99 98 < 3) && decide (f.stream < 16)
    && decide (fld f.hdr 30 16 = 0) && decide (1 ≤ f.plen ∧ f.plen ≤ 240) && (!f.mc || decide (f.dst < 256))

/-- A control flit's payload passes its CRC-32C: 236 bytes of content, then the CRC (R303). -/
def Flit.ctrlSound (f : Flit) : Bool :=
  crc32c (fit 0 236 f.payload) == leAt (fit 0 240 f.payload) 236 4

end Sys2Proof
end

