-- ==== Sys2Proof/Machine/Num.lean ====
section
/-!
DEFINITION. Number formats, roundings, SC16 scales, floating point, exponent coding and weight packing
(R71 to R103, R262 to R270, R497). Everything is computed exactly on integers and narrowed once.
-/

namespace Sys2Proof.Machine

/-- Rounding of the exact quotient `n / d` (`d` > 0) in mode 0 RNE, 1 RTZ or 2 RDN (R78). -/
def rndDiv (mode : Nat) (n : Int) (d : Nat) : Int :=
  let q := n / (d : Int)
  let r := n % (d : Int)
  if mode = 2 then q
  else if mode = 1 then (if n < 0 ∧ r ≠ 0 then q + 1 else q)
  else if 2 * r > d ∨ (2 * r = d ∧ q % 2 = 1) then q + 1 else q

/-- The integer right shift with rounding (R79). -/
def roundShift (v : Int) (n mode : Nat) : Int := rndDiv mode v (2 ^ n)

/-- The clamp to a signed `w`-bit integer (R65). -/
def sat (v : Int) (w : Nat) : Int :=
  if v > (2 ^ (w - 1) : Nat) - 1 then (2 ^ (w - 1) : Nat) - 1
  else if v < -((2 ^ (w - 1) : Nat) : Int) then -((2 ^ (w - 1) : Nat) : Int) else v

/-- Whether the clamp to `w` bits changes the value; each such clamp is counted (R83). -/
def satHit (v : Int) (w : Nat) : Bool := sat v w != v

/-- The exponent of an SC16 code (R75). -/
def scExp (c : Nat) : Int := sx 8 (c / 256)

/-- The value of an SC16 code is `scMan c × 2^(scExp c - 8)` (R75). -/
def scMan (c : Nat) : Nat := 256 + c % 256

/-- `n × 2^e / d` as a fraction of natural numbers. -/
def ratOf (n : Nat) (e : Int) (d : Nat) : Nat × Nat :=
  if e ≥ 0 then (n * 2 ^ e.toNat, d) else (n, d * 2 ^ (-e).toNat)

/-- The floor of the binary logarithm of a positive fraction. -/
def log2Q (n d : Nat) : Int :=
  let g : Int := (Nat.log2 n : Int) - (Nat.log2 d : Int)
  let le := if g ≥ 0 then decide (d * 2 ^ g.toNat ≤ n) else decide (d ≤ n * 2 ^ (-g).toNat)
  if le then g else g - 1

/-- `sc16_ceil` of R102 on the exact value `n / d`: the smallest SC16 scale not below it. -/
def sc16Ceil (n d : Nat) : Nat :=
  if n * 2 ^ 128 ≤ d then 0x8000
  else
    let e := log2Q n d
    let (a, b) := ratOf n (-e) d
    let m := cdiv ((a - b) * 256) b
    let (e, m) := if m = 256 then (e + 1, 0) else (e, m)
    if e > 127 then 0x7FFF else (ux 8 e) * 256 + m

/-- The larger of two SC16 codes by value (R221). -/
def scMax (a b : Nat) : Nat :=
  if scExp a > scExp b then a else if scExp a < scExp b then b
  else if a % 256 ≥ b % 256 then a else b

/-- A list of SC16 codes: the largest by value; the smallest scale for none. -/
def scMaxL (l : List Nat) : Nat := l.foldl scMax 0x8000

/-- `scale_apply` of R80 before the clamp: `a × 2^La` times the scales, in units of 2^L, rounded once. -/
def scaleApply (a : Int) (la : Int) (scales : List Nat) (l : Int) (mode : Nat) : Int :=
  let p := scales.foldl (fun (p : Int) s => p * (scMan s : Int)) a
  let x := scales.foldl (fun (x : Int) s => x + scExp s - 8) la
  let n := l - x
  if n > 0 then roundShift p n.toNat mode else p * ((2 ^ (-n).toNat : Nat) : Int)

/-- The sum of dyadic values is formed at the smaller exponent. -/
def Dy.add (a b : Dy) : Dy :=
  let e := min a.exp b.exp
  ⟨a.man * ((2 ^ (a.exp - e).toNat : Nat) : Int) + b.man * ((2 ^ (b.exp - e).toNat : Nat) : Int), e⟩

/-- The order of dyadic values. -/
def Dy.lt (a b : Dy) : Bool := decide ((a.add ⟨-b.man, b.exp⟩).man < 0)

/-- The magnitude. -/
def Dy.abs (a : Dy) : Dy := ⟨(a.man.natAbs : Int), a.exp⟩

/-- The larger value. -/
def Dy.max (a b : Dy) : Dy := if a.lt b then b else a

/-- `sc16_ceil` of a non-negative dyadic times `num / den`. -/
def Dy.sc16 (a : Dy) (num den : Nat) : Nat :=
  let (n, d) := ratOf (a.man.toNat * num) a.exp den
  sc16Ceil n d

/-- Rounding of `a / value(s)` to an integer (R103). -/
def Dy.quot (a : Dy) (s : Nat) (mode : Nat) : Int :=
  let e := a.exp - (scExp s - 8)
  if e ≥ 0 then rndDiv mode (a.man * ((2 ^ e.toNat : Nat) : Int)) (scMan s)
  else rndDiv mode a.man (scMan s * 2 ^ (-e).toNat)

/-- Rounding of a dyadic to units of 2^l. -/
def Dy.toInt (a : Dy) (l : Int) (mode : Nat) : Int :=
  let e := a.exp - l
  if e ≥ 0 then a.man * ((2 ^ e.toNat : Nat) : Int) else roundShift a.man (-e).toNat mode

/-- `code` of R103: the U8 code, and whether it clamped. -/
def code8 (x : Dy) (s : Nat) (signed : Bool) : Nat × Bool :=
  let t := x.quot s 0
  let lo : Int := if signed then -127 else 0
  let hi : Int := if signed then 127 else 255
  let c := if t < lo then lo else if t > hi then hi else t
  ((c + (if signed then 128 else 0)).toNat, c != t)

/-- A binary floating-point format: exponent bits and fraction bits (R74). -/
structure FpFmt where
  eb : Nat
  fb : Nat
deriving DecidableEq, Repr

def bf16 : FpFmt := ⟨8, 7⟩
def fp16 : FpFmt := ⟨5, 10⟩
def fp32 : FpFmt := ⟨8, 23⟩

def FpFmt.bias (f : FpFmt) : Int := (2 ^ (f.eb - 1) : Nat) - 1
def FpFmt.emax (f : FpFmt) : Nat := 2 ^ f.eb - 1
/-- The code of the largest finite magnitude (R74). -/
def FpFmt.big (f : FpFmt) : Nat := f.emax * 2 ^ f.fb - 1
def FpFmt.width (f : FpFmt) : Nat := f.eb + f.fb + 1
def FpFmt.sgn (f : FpFmt) (w : Nat) : Bool := w.testBit (f.eb + f.fb)
def FpFmt.expo (f : FpFmt) (w : Nat) : Nat := bf w (f.eb + f.fb - 1) f.fb
def FpFmt.frac (f : FpFmt) (w : Nat) : Nat := w % 2 ^ f.fb
/-- A code from its sign, exponent field and fraction field. -/
def FpFmt.pack (f : FpFmt) (s : Bool) (e m : Nat) : Nat := b2n s * 2 ^ (f.eb + f.fb) + e * 2 ^ f.fb + m

/-- An operand as a core reads it: its sign, its exact value, and the two conditions of R82. -/
structure FpV where
  neg : Bool
  val : Dy
  nan : Bool
  inf : Bool
deriving DecidableEq, Repr

/-- Reading an operand: NaN as +0, infinity as the largest finite value, a subnormal as zero under BC-A (R82, R97). -/
def fpRead (f : FpFmt) (bcA : Bool) (w : Nat) : FpV :=
  let s := f.sgn w
  let e := f.expo w
  let m := f.frac w
  let sg : Int := if s then -1 else 1
  if e = f.emax then
    if m ≠ 0 then ⟨false, ⟨0, 0⟩, true, false⟩
    else ⟨s, ⟨sg * ((2 ^ (f.fb + 1) - 1 : Nat) : Int), (f.emax : Int) - 1 - f.bias - f.fb⟩, false, true⟩
  else if e = 0 then
    if bcA then ⟨s, ⟨0, 0⟩, false, false⟩ else ⟨s, ⟨sg * (m : Int), 1 - f.bias - f.fb⟩, false, false⟩
  else ⟨s, ⟨sg * ((2 ^ f.fb + m : Nat) : Int), (e : Int) - f.bias - f.fb⟩, false, false⟩

/-- Rounding the magnitude `n / d` to an integer for a value of sign `neg` (R78). -/
def rndMag (mode : Nat) (neg : Bool) (n d : Nat) : Nat :=
  if neg then (-(rndDiv mode (-(n : Int)) d)).toNat else (rndDiv mode (n : Int) d).toNat

/-- Rounding of the exact magnitude `n / d × 2^e` with sign `neg` to a format: the code, and whether it clamped
(R81, R82, R97, R497). -/
def fpRound (f : FpFmt) (bcA : Bool) (mode : Nat) (neg : Bool) (n d : Nat) (e : Int) : Nat × Bool :=
  if n = 0 then (f.pack neg 0 0, false)
  else
    let (a, b) := ratOf n e d
    let g := log2Q a b
    let emin : Int := 1 - f.bias
    let qu := g - f.fb
    let (au, bu) := ratOf a (-qu) b
    let mu := rndMag mode neg au bu
    -- tininess after rounding, with an unbounded exponent range (R497)
    let tiny := if g ≥ emin then false else decide (g < emin - 1 ∨ mu < 2 ^ (f.fb + 1))
    if bcA && tiny then (f.pack neg 0 0, false)
    else
      let q := max qu (emin - f.fb)
      let (aq, bq) := ratOf a (-q) b
      let m := rndMag mode neg aq bq
      let (m, q) := if m = 2 ^ (f.fb + 1) then (2 ^ f.fb, q + 1) else (m, q)
      if m < 2 ^ f.fb then (f.pack neg 0 m, false)
      else
        let ef := q + f.fb + f.bias
        if ef ≥ (f.emax : Int) then (f.pack neg 0 f.big, true)
        else (f.pack neg ef.toNat (m - 2 ^ f.fb), false)

/-- Rounding of an exact dyadic to a format; a zero takes the sign given. -/
def fpOfDy (f : FpFmt) (bcA : Bool) (mode : Nat) (zneg : Bool) (v : Dy) : Nat × Bool :=
  if v.man = 0 then (f.pack zneg 0 0, false)
  else fpRound f bcA mode (decide (v.man < 0)) v.man.natAbs 1 v.exp

/-- The floating-point sum, rounded once; zero signs follow IEEE 754 under RNE (R82). -/
def fpAdd (f : FpFmt) (bcA : Bool) (mode : Nat) (a b : FpV) : Nat × Bool :=
  fpOfDy f bcA mode (a.neg && b.neg) (a.val.add b.val)

/-- The exact product of two operands. -/
def fpMulX (a b : FpV) : FpV :=
  ⟨a.neg != b.neg, ⟨a.val.man * b.val.man, a.val.exp + b.val.exp⟩, false, false⟩

/-- The floating-point product, rounded once. -/
def fpMul (f : FpFmt) (bcA : Bool) (mode : Nat) (a b : FpV) : Nat × Bool :=
  let p := fpMulX a b
  fpOfDy f bcA mode p.neg p.val

/-- A read back of a result of the engine's own arithmetic: no NaN or infinity can occur in it. -/
def fpSelf (f : FpFmt) (w : Nat) : FpV := fpRead f false w

/-- A dyadic times SC16 scales, exactly. -/
def Dy.scale (v : Dy) (scales : List Nat) : Dy :=
  scales.foldl (fun v s => ⟨v.man * (scMan s : Int), v.exp + scExp s - 8⟩) v

/-- The A24 container of a value (R73). -/
def a24Put (v : Int) : Nat := ux 32 v

/-- The value of an A24 container: bits [23:0], sign-extended (R73). -/
def a24Get (w : Nat) : Int := sx 24 w

/-! ### Exponent coding (R262 to R265) -/

/-- Bytes of an EC block of a format: 45 or 57. -/
def ecSize (f : FpFmt) : Nat := if f = fp16 then 57 else 45

/-- Bits of a value code: 11 or 14. -/
def ecBits (f : FpFmt) : Nat := f.fb + 4

/-- What coding counted: flushes, nudges, special inputs. -/
structure EcCnt where
  flush : Nat
  nudge : Nat
  special : Nat
deriving DecidableEq, Repr

/-- The zero code of a format (R262). -/
def ecZero (f : FpFmt) : Nat := 15 * 2 ^ f.fb

/-- A value as the encoder first takes it, with what it counts (R263). -/
def ecClean (f : FpFmt) (w : Nat) : Nat × EcCnt :=
  if f.expo w = f.emax then
    (if f.frac w ≠ 0 then 0 else f.pack (f.sgn w) 0 f.big, ⟨0, 0, 1⟩)
  else if f.expo w = 0 then (0, ⟨b2n (f.frac w ≠ 0), 0, 0⟩)
  else (w, ⟨0, 0, 0⟩)

/-- One value coded against a base exponent (R263). -/
def ecCode (f : FpFmt) (base w : Nat) : Nat × EcCnt :=
  if w = 0 then (ecZero f, ⟨0, 0, 0⟩)
  else
    let d := base - f.expo w
    if d > 7 then (ecZero f, ⟨1, 0, 0⟩)
    else if d = 7 ∧ f.frac w = 0 ∧ f.sgn w then (ecZero f + 1, ⟨0, 1, 0⟩)
    else (b2n (f.sgn w) * 2 ^ (f.fb + 3) + d * 2 ^ f.fb + f.frac w, ⟨0, 0, 0⟩)

def EcCnt.add (a b : EcCnt) : EcCnt := ⟨a.flush + b.flush, a.nudge + b.nudge, a.special + b.special⟩

/-- `ec_encode` of R263 on 32 values: the block's bytes and the counts. -/
def ecEncode (f : FpFmt) (vs : List Nat) : List Byte × EcCnt :=
  let cl := (fit 0 32 vs).map (ecClean f)
  let base := maxN (cl.map fun p => f.expo p.1)
  let cs := cl.map fun p => ecCode f base p.1
  let cnt := (cl.map (·.2) ++ cs.map (·.2)).foldl EcCnt.add ⟨0, 0, 0⟩
  let bits := (cs.map (·.1)).foldr (fun c acc => c + 2 ^ (ecBits f) * acc) 0
  (leBytes (ecSize f) (base + 256 * bits), cnt)

/-- One value code opened; the flag says that `EC_DEC_ODD` counts (R264). -/
def ecOpen (f : FpFmt) (base c : Nat) : Nat × Bool :=
  if c = ecZero f then (0, false)
  else
    let d := bf c (f.fb + 2) f.fb
    let s := c.testBit (f.fb + 3)
    if base < d + 1 then (0, true)
    else if base - d = f.emax then (f.pack s 0 f.big, true)
    else (f.pack s (base - d) (c % 2 ^ f.fb), false)

/-- `ec_decode` of R264: 32 codes of the format, and the odd codes counted. -/
def ecDecode (f : FpFmt) (block : List Byte) : List Nat × Nat :=
  let w := leNat (fit 0 (ecSize f) block)
  let base := if f = fp16 then w % 32 else w % 256
  let odd0 := if f = fp16 ∧ bf w 7 5 ≠ 0 then 1 else 0
  let os := (List.range 32).map fun i => ecOpen f base (bf w (8 + ecBits f * (i + 1) - 1) (8 + ecBits f * i))
  (os.map (·.1), odd0 + (os.filter (·.2)).length)

/-! ### Weight packing (R268 to R270) -/

/-- How a WP block decoded: its bytes, and 0 sound, 1 bad, 2 long, 3 short (R270). -/
structure WpOut where
  bytes : List Byte
  bad : Nat
deriving DecidableEq, Repr

/-- `n` two's complement values of `b` bits, LSB first, as elements of `w` bytes. -/
def wpVals (w b : Nat) (l : List Byte) (n : Nat) : List (List Byte) :=
  let v := leNat l
  (List.range n).map fun i => leBytes w (ux (8 * w) (if b = 0 then 0 else sx b (v / 2 ^ (b * i))))

/-- A sparse group's elements: the next value where the mask bit is set, else zero (R269). -/
def wpSpread (w : Nat) : List Bool → List (List Byte) → List (List Byte)
  | [], _ => []
  | true :: m, v :: vs => v :: wpSpread w m vs
  | true :: m, [] => leBytes w 0 :: wpSpread w m []
  | false :: m, vs => leBytes w 0 :: wpSpread w m vs

/-- The groups of a block, by fuel: `rest` are the group bytes still unread, `left` the elements still to produce
(R269, R270). Answers the elements produced and the condition. -/
def wpGroups (w : Nat) : Nat → List Byte → Nat → List (List Byte) × Nat
  | 0, _, _ => ([], 1)
  | _ + 1, [], left => ([], if left = 0 then 0 else 3)
  | fuel + 1, tag :: rest, left =>
    if left = 0 then ([], 2)
    else
      let k := bf tag.toNat 7 6
      let b := tag.toNat % 32
      let g := min 64 left
      if tag.toNat.testBit 5 ∨ k = 3 ∨ b > 8 * w ∨ (k = 1 ∧ b = 0) ∨ (k = 2 ∧ b ≠ 0) then ([], 1)
      else if k = 0 then
        let nb := cdiv (g * b) 8
        if rest.length < nb then ([], 3)
        else
          let r := wpGroups w fuel (rest.drop nb) (left - g)
          (wpVals w b (rest.take nb) g ++ r.1, r.2)
      else if k = 1 then
        if rest.length < 8 then ([], 3)
        else
          let mask := leNat (rest.take 8)
          let m := popc 64 mask
          let nb := cdiv (m * b) 8
          if mask / 2 ^ g ≠ 0 then ([], 1)
          else if (rest.drop 8).length < nb then ([], 3)
          else
            let vs := wpVals w b ((rest.drop 8).take nb) m
            let r := wpGroups w fuel ((rest.drop 8).drop nb) (left - g)
            (wpSpread w ((List.range g).map mask.testBit) vs ++ r.1, r.2)
      else
        match rest with
        | [] => ([], 3)
        | n :: rest' =>
          let want := 64 * (n.toNat + 1)
          -- the run may end in the block's last, shorter group
          if want ≥ left + 64 then ((List.range left).map fun _ => leBytes w 0, 2)
          else
            let z := min want left
            let r := wpGroups w fuel rest' (left - z)
            (((List.range z).map fun _ => leBytes w 0) ++ r.1, r.2)

/-- The decoding of a WP block from its sector: exactly U bytes, sound or not (R270). -/
def wpDecode (sector : List Byte) : WpOut :=
  let h := leAt sector 0 8
  let ew := bf h 43 42
  let p := bf h 39 28
  let u := bf h 27 11
  let w := ew + 1
  let uOk := decide (1 ≤ u ∧ u ≤ 65536)
  if bf h 63 48 ≠ 0x5750 ∨ bf h 47 44 ≠ 1 ∨ ew > 1 ∨ bf h 41 40 ≠ 0 ∨ bf h 10 0 ≠ 0 ∨
      p < 1 ∨ p > 4088 ∨ ¬ uOk ∨ u % w ≠ 0 then
    ⟨(List.range (if uOk then u else 4096)).map fun _ => 0, 1⟩
  else
    let r := wpGroups w (p + 1) ((fit 0 4096 sector).drop 8 |>.take p) (u / w)
    ⟨fit 0 u (r.1.flatten), r.2⟩

end Sys2Proof.Machine
end

