-- ==== Sys2Proof/Machine/State.lean ====
section
/-!
DEFINITION. The state of the engine as plain data, the fault and refusal reasons, and the state right after reset.
Numbered things (slots, counters, sectors, cores) are sparse tables; the value of an unlisted number is the one that
the accessor of the table gives. Every reset value and its rule is listed in INVENTORY.md.
-/

namespace Sys2Proof.Machine

/-- Why a step stops. -/
inductive Fault where
  /-- A command names a unit, slot, bank or port that the spec does not give the engine: raised by the meanings that
  take a unit number (R469 gives the counts). Safe: the model stops where the hardware has nothing to act. -/
  | noSuchUnit (n : Nat)
deriving DecidableEq, Repr

/-- Why a command has no outcome. -/
inductive Refusal where
  /-- The command has no meaning in the model yet. Safe: nothing can be proved of it. -/
  | notModelled (mnemonic : String)
deriving DecidableEq, Repr

/-- The run states (R16). -/
inductive RunState where
  | off | boot | run | maintenance | shutdown
deriving DecidableEq, Repr

/-- Run state, pending change, shutdown and boot progress, `BOOT_STATUS` (R16 to R24, R398 to R403). -/
structure RunSt where
  st : RunState
  /-- Target of the pending run-state change (R18). -/
  pend : Option RunState
  /-- The SET_RUN_STATE command that the change will complete (R413). -/
  pendCmd : Option Cmd
  /-- Shutdown progress (R21): 0 none, 1 delivering and fading, 2 draining, 3 self-test, 4 complete. -/
  shut : Nat
  /-- The quantum at whose boundary SHUTDOWN was entered; the fade runs over it (R21). -/
  fadeQ : Nat
  /-- The first quantum processed in the present RUN (R20, R69). -/
  runQ : Nat
  /-- The WARM_RESET command whose drain is under way (R17). -/
  resetting : Option Cmd
  step : Nat
  result : Nat
  cause : Nat
  slot : Nat
  fallback : Bool
  fmt1 : Bool
  unclean : Bool
  unverified : Bool
  mapRebuilt : Bool
  replayed : Bool
  errSect : Nat
  errOfs : Nat
  /-- The ROM digest failed: the boot has halted dark (R401). -/
  dark : Bool
  /-- The boot waits in step 6 for its recovery slices (R402). -/
  inRecovery : Bool
  /-- The configuration passed its checks (R396). -/
  cfgOk : Bool
  /-- The last boot selected a slot (R379, R380). -/
  selected : Bool
  /-- The present boot followed a warm reset, the supply staying (R419). -/
  warm : Bool
  /-- Boot steps 9, 10 and 11 done (R399). -/
  s9 : Bool
  s10 : Bool
  s11 : Bool
  placeOk : Bool
deriving DecidableEq, Repr

/-- The states of the bridle (R44, R51). -/
inductive Bridle where
  | freeRun | acquiring | locked | lockedOffset | holdover
deriving DecidableEq, Repr

/-- Sample time and the bridle (R25 to R53). -/
structure TimeSt where
  sample : Nat
  tick : Nat
  /-- Sample time is counted: a source or free-run holds it (R27, R49). -/
  counting : Bool
  /-- Rate and quantum codes in force (R51). -/
  rate : Nat
  quantum : Nat
  st : Bridle
  /-- Source code in use (R51); in holdover, the lost source. -/
  src : Nat
  /-- Sources qualified apart from the stability test (R43). -/
  qual : List Nat
  /-- The bridle has locked to the source since it took it (R44). -/
  hadLocked : Bool
  /-- A phase error is being slewed out (R47). -/
  slewing : Bool
  /-- Phase error of source time minus internal time, in ticks (R47). -/
  err : Int
  freqOff : Word
  stepped : Bool
  lockLost : Bool
  /-- The processing window is open, and for which quantum (R31). -/
  windowOpen : Bool
  window : Nat
  /-- A quantum has been collected since sample time began, so a window has opened. -/
  opened : Bool
  /-- Input of the quantum under collection is discarded across a re-phase step, and the first quantum after it (R48). -/
  rephased : Option Nat
  /-- The schedule entries (R37) and those that have released in the present quantum. -/
  sched : Tab DWord
  released : List Nat
  /-- The time root's arrivals through fabric time (R319): the last accepted one. -/
  fabTime : Option TimeFlit
  /-- Sample index at which the last time flit came (R43). -/
  fabAt : Option Nat
  /-- The first presentation index whose output sample is not handed off yet (R31, R344). -/
  handed : Nat
deriving DecidableEq, Repr

/-- The configuration in force (R376 to R395): the fields of its sections, at their Reset values where absent. -/
structure CfgSt where
  /-- A record was read and passed its checks. -/
  valid : Bool
  slot : Nat
  seq : Nat
  startRun : Bool
  fmt1 : Bool
  clocking : BitVec 192
  phost : DWord
  mport : List (BitVec 128)
  sactl : List Word
  streams : Tab (BitVec 256)
  tstreams : Tab (BitVec 128)
  fabctl : BitVec 128
  /-- Group definition word and member addresses (R386). -/
  groups : List (DWord × List Nat)
  slots : Tab (BitVec 512)
  plctl : DWord
  /-- Sub-blocks of the placement: STYPE and body (R389). -/
  subs : List (Nat × List Byte)
  sagctl : DWord
  stages : List DWord
  protect : List DWord
  policy : DWord
  trace : DWord
  remap : List (BitVec 128)
  bcA : Bool
deriving DecidableEq, Repr

/-- One receive stream or MADI port at the channel stage (R35, R36, R342): raw samples placed by sample index, one value
a channel, in the stream's format. -/
structure StreamIn where
  samples : Tab (List Nat)
  /-- RTP timestamps already received (R342). -/
  seen : List Nat
  lastSeq : Option Nat
  joined : Bool
deriving DecidableEq, Repr

/-- One transmit stream or port (R344, R349): presented samples by sample index, each a table of channels. -/
structure StreamOut where
  samples : Tab (Tab Nat)
  /-- First index of the next packet window; none before the first presented sample. -/
  next : Option Nat
  seq : Nat
deriving DecidableEq, Repr

/-- One channel slot at run time (R61 to R69). -/
structure SlotSt where
  wet : Bool
  /-- The exit words delivered for the quantum before (R69). -/
  last : List Int
  /-- Converted A32 samples of the two sources for the quantum being processed, and their exact peaks (R61, R62). -/
  a0 : List Int
  a1 : List Int
  peak0 : Nat
  peak1 : Nat
  /-- The larger of the two peaks in the last 8 quanta, newest first (R104). -/
  peaks : List Nat
  /-- The wet output words received for the quantum being processed, by sample (R64). -/
  out : Tab Int
  lfsr : Nat
deriving DecidableEq, Repr

/-- The channel stage (R56 to R70). -/
structure ChanSt where
  ins : Tab StreamIn
  outs : Tab StreamOut
  slots : Tab SlotSt
  /-- Media, MADI and tether streams have stopped under R502. -/
  stopped : Bool
deriving DecidableEq, Repr

/-- The media and serial audio ports and the photonic chiplets (R328 to R351). -/
structure PortSt where
  /-- The lasers are lit (R330). -/
  lit : Bool
  mediaUp : List Bool
  /-- The PTP clock of each media port: grandmaster, rank, rate, and the pending two-step sequence (R339). -/
  gm : List (Option (Nat × Nat × Nat))
  twoStep : List (Option (Nat × Nat))
  /-- A Sync of the selected grandmaster has been measured (R43). -/
  synced : List Bool
  /-- Sample indices of the last Announce and Sync of the grandmaster and of the last delay request, with the base-two logarithms of
  the announce and the delay-request interval in seconds (R43, R339). -/
  annAt : List (Option Nat)
  syncAt : List (Option Nat)
  reqAt : List (Option Nat)
  annLog : List Int
  reqLog : List Int
  saLock : List Bool
  /-- Sample period in which the port's last frame completed (R348). -/
  saFrame : List (Option Nat)
  saEdges : List Nat
  /-- Sample index of the last word-clock edge (R43). -/
  edgeAt : List (Option Nat)
  /-- Word clock: the sample index that the port's edges count from the first one since the source qualified (R27). -/
  saIdx : List (Option Nat)
  /-- Per chiplet PH0 to PH3: dark, instant of the last fault, retry waiting, dark until the next boot (R331). -/
  dark : List Bool
  faulted : List Bool
  retry : List Bool
  dead : List Bool
deriving DecidableEq, Repr

/-- One ring of the host interface (R404, R406). -/
structure Ring where
  base : DWord
  en : Bool
  irqEn : Bool
  vec : Nat
  log2n : Nat
  head : Nat
  tail : Nat
deriving DecidableEq, Repr

/-- A completion as it is owed (R409). -/
structure Cpl where
  dst : Src
  tag : Nat
  status : Nat
  kind : Nat
  r0 : Nat
  r1 : Nat
  irq : Bool
  head : Nat
  /-- Output data that goes with it (R413, R416). -/
  data : List Byte
deriving DecidableEq, Repr

/-- A forwarded command that waits for its target's completion (R417). -/
structure FwdSt where
  tag : Nat
  target : Nat
  irq : Bool
  head : Nat
  /-- Size of the host's output buffer. -/
  total : Nat
deriving DecidableEq, Repr

/-- The host interface and the command queue of the control complex (R332 to R336, R404 to R417). -/
structure HostSt where
  up : Bool
  d3 : Bool
  rate : Nat
  width : Nat
  sq : Ring
  cq : Ring
  eq : Ring
  tq : Ring
  phase : Bool
  /-- The negotiated version of the host rings and of each peer (R415, R416). -/
  neg : Nat
  peerNeg : Tab Nat
  evCount : Nat
  eqOvf : Bool
  sev : Nat
  msix : Tab (BitVec 128)
  /-- The pending bits of the MSI-X vectors (R332, R333). -/
  pba : List Nat
  /-- A Function Level Reset or a hot reset has stopped host DMA, until the host sets a ring up again (R334, R335). -/
  dmaHeld : Bool
  /-- The link has trained since reset, so that a later training is a retrain (R351). -/
  trained : Bool
  held : List Cpl
  /-- Commands that passed their checks and wait for their turn, and the long commands in progress (R410, R411). -/
  accepted : List Cmd
  long : List Cmd
  /-- Host commands with a final completion still owed, for FENCE and for the completion ring's room (R407, R411). -/
  owed : Nat
  fwd : List FwdSt
  /-- CALIBRATE commands in progress: arrays still to calibrate, and those done (R413). -/
  cals : List (Cmd × List Nat × List Nat)
  /-- The spill region: base and sectors (R413). -/
  spillBase : Nat
  spillN : Nat
deriving DecidableEq, Repr

/-- An event record (R484). -/
structure EvRec where
  ts : Nat
  word : Nat
  payload : List Byte
deriving DecidableEq, Repr

/-- Events (R484 to R486). The EVENTLOG ring lies in the store and outlives OFF. -/
structure EvSt where
  seq : Nat
  /-- Events held before boot step 12 (R485). -/
  held : List EvRec
  /-- Whether boot step 12 has passed. -/
  posting : Bool
  fwdCount : Nat
deriving DecidableEq, Repr

/-- A trace record (R481). -/
structure TrRec where
  ts : Nat
  word : Nat
deriving DecidableEq, Repr

/-- One trace engine (R477, R480, R482): its gauge tag, FIFO and lost count. -/
structure TrEng where
  tag : Nat
  begun : Bool
  fifo : List TrRec
  lost : Nat
  serial : Nat
deriving DecidableEq, Repr

/-- Counters, ripcord, debug halt and trace (R468 to R483). -/
structure ObsSt where
  /-- The ripcord: armed instant and arming engine; numbers 5,104 to 5,106 (R474). -/
  armed : Option Nat
  reqInstant : Nat
  firedInstant : Nat
  armer : Nat
  /-- The snapshot (R473, R475): its values, the number of the free value that its timing-dependent numbers take (none
  before the first fire), and the numbers cleared since. -/
  snap : Tab Nat
  snapN : Option Nat
  snapClr : List Nat
  /-- The debug halt: armed instant, in force, HALTED, resume asked for (R478, R479). -/
  haltAt : Option Nat
  halting : Bool
  halted : Bool
  resume : Bool
  stops : Tab Nat
  engines : Tab TrEng
  /-- The records in the trace ring, oldest first, and how many have ever entered it, which places them (R483). -/
  ring : List TrRec
  ringN : Nat
  captureOff : Bool
  copying : List TrRec
deriving DecidableEq, Repr

/-- What a core is doing (R190, R198, R207, R211, R236, R238). -/
inductive CoreRun where
  /-- No program, or held by the control complex. -/
  | halted
  | running
  /-- The quantum's program has ended, or its work was abandoned: idle until the next boundary. -/
  | idle
  /-- The deadline cut the program off: idle once the command in work has ended (R32, R33). -/
  | cut
  /-- A command of the quantum before is still in work: the core begins its program when that ends (R33). -/
  | late
  | trapped
  /-- In WAIT, WAITSET or an ARRIVE's wait on an object (operation code of R198, and n). -/
  | waitSync (obj op n : Nat)
  /-- In SREAD: the object, whether the release count is read, and the destination register. -/
  | waitRead (obj : Nat) (sel : Bool) (sd : Nat)
  | waitTake
  | waitTime (ts : Nat)
  /-- In DWAIT: for one tag, or for all. -/
  | waitDma (tag : Option Nat)
deriving DecidableEq, Repr

/-- A receive ring of a core (R195, R234). -/
structure RxRing where
  base : Nat
  size : Nat
  rd : Nat
  wr : Nat
  used : Nat
deriving DecidableEq, Repr

/-- A transfer of a core's DMA engine that has been issued and is not complete (R232). -/
structure Dma where
  rd : Bool
  tag : Nat
  loft : Nat
  loc : Nat
  len : Nat
  serial : Nat
deriving DecidableEq, Repr

/-- One core (R186 to R197, R206 to R239). -/
structure Core where
  /-- Scalar registers s1 to s31; s0 is never listed (R219). -/
  s : Tab Word
  /-- Vector registers, each 64 lanes. -/
  v : Tab (List Word)
  /-- Accumulator elements, number 4,096 × acc + 64 × row + column, as 64-bit patterns; and the view tags (R230). -/
  acc : Tab Nat
  tag : Tab Nat
  /-- Weight-buffer entries of 16 bits, number 2,048 × WB + 64 × k-row + column (R228). -/
  wb : Tab Nat
  idx : Nat
  compute : Bool
  run : CoreRun
  /-- A wake for the present wait is on its way to the core (R198). -/
  woken : Bool
  flags : Nat
  qindex : Nat
  vlen : Nat
  qclamp : Nat
  qmask : Nat
  dispatch : Nat
  gens : Tab Nat
  deadline : Option Nat
  rings : Tab RxRing
  rx : List Msg
  lmem : Tab Byte
  imem : Tab Word
  entry : Nat
  /-- The core has a program (R207); it runs a task (R208). -/
  hasProg : Bool
  inTask : Bool
  dma : List Dma
  trapCause : Nat
  trapIdx : Nat
  halt : Bool
deriving DecidableEq, Repr

/-- A sync object (R198 to R205). -/
structure SyncObj where
  /-- The three words of its record (R199). -/
  w0 : DWord
  w1 : DWord
  w2 : DWord
  count : Nat
  ovf : Bool
  rel : Nat
  /-- Waiting cores in arrival order, each with its n; for a barrier, the arrivers that wait. -/
  queue : List (Nat × Nat)
deriving DecidableEq, Repr

/-- Sync objects, task queues and the mesh (R179 to R210). -/
structure GridSt where
  objs : Tab SyncObj
  queues : Tab (List DWord)
  /-- Messages in the mesh, in the order issued. -/
  mesh : List Msg
  /-- Home routers that have raised SYNC_MISUSE_EVENT in this quantum (R204). -/
  misused : List Nat
deriving DecidableEq, Repr

/-- A reel entry whose fill has started and that is not released (R249), with its fill's progress. -/
structure ReelOut where
  entry : Nat
  /-- The quantum in whose pass the entry stands (R251). -/
  quantum : Nat
  filled : Bool
  signalled : Bool
  /-- The fill was abandoned (R258); its entry stays outstanding. -/
  failed : Bool
  /-- A core has waited for it since before its signal (R257). -/
  late : Bool
deriving DecidableEq, Repr

/-- One reel (R248 to R258). -/
structure Reel where
  /-- The list banks: entry number 1,024 × bank + position, as 256-bit values. -/
  list : Tab (BitVec 256)
  bank : Nat
  /-- The entry that the reel reaches next, and the quantum whose pass it is in. -/
  pos : Nat
  quantum : Nat
  d : Nat
  active : Bool
  out : List ReelOut
  /-- Pinned entries that have been filled. -/
  pinned : List Nat
  /-- Pinned entries whose one fill has been made, also where it failed (R253). -/
  pinTried : List Nat
  ctr : Tab Nat
  /-- Positions of entries not yet started that have a core waiting for them (R257). -/
  late : List Nat
deriving DecidableEq, Repr

/-- The loft and the reels (R244 to R261). -/
structure LoftSt where
  mem : Tab Byte
  /-- Region words of the placement (R389, STYPE 6). -/
  regions : List DWord
  reels : Tab Reel
  /-- Loft addresses in trace and probe rings that a core or a flank has written, with the number of trace records before (R246). -/
  wrote : Tab Nat
deriving DecidableEq, Repr

/-- A calibration record (R160, R161): the header fields, the group baselines and the column entries that differ from
the Reset value. -/
structure CalRec where
  plane : Nat
  point : Nat
  temp : Int
  act : Nat
  gen : Nat
  kind : Nat
  seq : Nat
  base : List (Nat × Int)
  cols : Tab (BitVec 64)
  /-- The CRC that the record was written with. -/
  crc : Nat
deriving DecidableEq, Repr

/-- A tile's correction adapter (R171 to R173): A by rank and input row, B by rank and output column, as BF16 codes; and the
training on it: its steps since the last candidate, the serial and generation against which it runs, and the FP32 master
copies. -/
structure Adapter where
  rank : Nat
  serial : Nat
  gen : Nat
  a : List Nat
  b : List Nat
  steps : Nat
  ofSerial : Nat
  ofGen : Nat
  ma : List Nat
  mb : List Nat
  /-- An accepted candidate that takes effect at the next boundary. -/
  next : Option (Nat × List Nat × List Nat)
deriving DecidableEq, Repr

/-- The envelope monitor of one descriptor and column group (R166 to R168): the statistics as exact fractions
`n / 2^64`, the learned envelope, and the counts. -/
structure EnvMon where
  /-- Values of the present quantum: number, sum, sum of squares, histogram. -/
  n : Nat
  sum : Int
  sq : Nat
  hist : List Nat
  mu : Int
  var : Int
  h : List Int
  muE : Int
  varE : Int
  hE : List Int
  learned : Nat
  breaches : Nat
deriving DecidableEq, Repr

/-- A row being assembled from its pieces at the quantising flank (R235): the values are exact. -/
structure RowAsm where
  desc : Nat
  hdr : Nat
  vals : List Dy
  bytes : Nat
  /-- The row is whole and taken: what still comes of it is beyond its count. -/
  whole : Bool
deriving DecidableEq, Repr

/-- A row's work at one flank, from its quantisation to its last output (R108, R109, R124 to R132, R138). -/
structure RowJob where
  desc : Nat
  /-- The row header (R194), the joining or single flank's array and its descriptor. -/
  hdr : Nat
  jArr : Nat
  jDesc : Nat
  /-- Codes of the tile's segment, and the scale of the row. -/
  codes : List Nat
  scale : Nat
  flat : Bool
  /-- The second evaluation still to come: its codes and scale (R108). -/
  again : Option (List Nat × Nat)
  rerun : Bool
  /-- Passes issued, groups of the oldest pass in flight that are done, passes done. -/
  passes : Nat
  group : Nat
  donePasses : Nat
  /-- Converted sums by output column (R122). -/
  conv : Tab Int
  /-- The adapter's terms, once they have come, and the corrected values that wait for them (R171). -/
  terms : Option (List Int)
  wait : Tab Int
  /-- The stage-5 values of the kept result. -/
  corr : Tab Int
  bytes : Nat
deriving DecidableEq, Repr

/-- A row at its single or joining flank from stage 6 on (R137, R138): partial sums by layer output column with their
number, activation outputs, and the columns sent. -/
structure JoinSt where
  hdr : Nat
  scale : Nat
  got : Tab (Nat × Int)
  z : Tab Int
  sent : List Nat
deriving DecidableEq, Repr

/-- The array states (R156), in the code order of R499. -/
inductive ArrState where
  | online | stale | suspect | programming | failed
deriving DecidableEq, Repr

/-- What an array in PROGRAMMING does (R149, R170, R174): the plane; the columns of a column program; the spare that its one
column goes to; and whether the capture is done and the array leaves at the next boundary. -/
structure ProgJob where
  plane : Nat
  cols : List Nat
  whole : Bool
  spare : Option Nat
  done : Bool
deriving DecidableEq, Repr

/-- A program that has been asked for and has not started (R152): a whole plane, or columns with the cells that their read-back
finds off, for a spare where one is named. -/
structure ProgReq where
  arr : Nat
  plane : Nat
  whole : Bool
  cols : List Nat
  stuck : List StuckCell
  spare : Option Nat
deriving DecidableEq, Repr

/-- A calibration of an array that waits or runs (R165): its planes, the command that asked for it, and whether a breach did
(R168). -/
structure CalReq where
  planes : List Nat
  cmd : Option Cmd
  breach : Bool
deriving DecidableEq, Repr

/-- One array and its flank (R116 to R178). -/
structure Arr where
  st : ArrState
  sel : Nat
  descs : Tab (List DWord)
  /-- The model that each descriptor belongs to, as the placement gave it (log entry 15). -/
  models : Tab Nat
  bias : Tab Int
  tables : Tab (List Word)
  curves : Tab (List Int)
  colmap : Tab (Tab Nat)
  recs : Tab CalRec
  idle : Tab CalRec
  swap : List Nat
  staged : Bool
  hist : Tab (List Nat)
  maxq : Tab Nat
  /-- Rows finished in the present quantum, by descriptor and slot (R105). -/
  doneQ : Tab Nat
  deferP : Tab Nat
  live : Tab Nat
  quiet : Tab Nat
  clipQ : Tab Nat
  loud : List Nat
  limited : List Nat
  satQ : Tab Nat
  gLive : Tab Nat
  oLive : Tab Int
  sumA : Tab Int
  sumB : Tab Int
  sumM : Tab Int
  npQ : Tab Nat
  hardRun : Nat
  passes16 : Nat
  asm : Option RowAsm
  fifo : List RowJob
  /-- Rows whose passes are done and that wait for their adapter's term. -/
  late : List RowJob
  /-- Passes that were in flight at the deadline: their rows are dropped, and they run to their end (R23, R33). -/
  drain : List RowJob
  joins : Tab JoinSt
  /-- Time pools, by descriptor and slot: the rows of the quantum not yet pooled, in ascending time position, each with its
  header and, once it has them, its activation outputs (R137). -/
  pool : Tab (List (Nat × Option (List Int)))
  env : Tab EnvMon
  breachCal : Nat
  cleanRun : Nat
  adapters : Tab Adapter
  /-- The probe rings: codes and stage-5 values of up to 256 rows of each descriptor's tile, oldest first (R172). -/
  probe : Tab (List (List Nat × List Int))
  probeAt : Tab Nat
  /-- The codes and stage-5 values of the last kept result of each descriptor (R172). -/
  lastRow : Tab (List Nat × List Int)
  onStandin : List Nat
  toStandin : List Nat
  fromStandin : List Nat
  /-- Tiles that need their stand-in while others have its cores (R177). -/
  waitStandin : List Nat
  calQ : List CalReq
  calDone : Nat
  /-- The soft bound of the live reference was exceeded in the last window (R159). -/
  refBad : Bool
  sliceOn : Bool
  /-- Flagged columns of each plane (R169), and those of them that have had their column program, level 1. -/
  flagged : Tab (List Nat)
  tried : Tab (List Nat)
  /-- Flagged columns that were over their bound with level 1 done and the adapters at their largest rank in use (R169, R174). -/
  spent : Tab (List Nat)
  /-- The cells of each plane that the last program's read-back listed (R149). -/
  offCells : Tab (List StuckCell)
  prog : Option ProgJob
  /-- Column map entries set at the next boundary: plane, spare, logical column (R174). -/
  mapNext : List (Nat × Nat × Nat)
  temp : Int
  flankOut : Bool
deriving DecidableEq, Repr

/-- A physical sector (R352, R355, R365, R368): its words (an unlisted word is all ones), closed codewords, header. -/
structure Sector where
  words : Tab DWord
  /-- Programmed words: bit i of word number i (a word programmed to all ones is programmed). -/
  done : Nat
  closed : Nat
  ecount : Nat
  logical : Nat
  seq : Nat
deriving DecidableEq, Repr

/-- The states of a logical sector (R355). -/
inductive SecState where
  | unmapped | erased | written | refresh | poisoned | erasing | retired
deriving DecidableEq, Repr

/-- A page-map entry (R355). -/
structure MapEnt where
  phys : Nat
  st : SecState
  preq : Bool
deriving DecidableEq, Repr

/-- An erase-intent record (R365). -/
structure Intent where
  seq : Nat
  ecount : Nat
  phys : Nat
  logical : Nat
  done : Bool
deriving DecidableEq, Repr

/-- A journal record (R367): the logical sector and its new physical sector, with its sequence. -/
structure JRec where
  logical : Nat
  phys : Nat
  retired : Bool
  seq : Nat
deriving DecidableEq, Repr

/-- What a bank does (R356 to R365): an accepted program with the words not yet stepped, or an erase. -/
structure BankJob where
  erase : Bool
  logical : Nat
  phys : Nat
  first : Nat
  data : List DWord
  sealCw : Bool
  allowClear : Bool
  intent : Nat
  suspended : Bool
deriving DecidableEq, Repr

/-- One store bank at run time. -/
structure Bank where
  job : Option BankJob
  queue : List BankJob
  serial : Nat
  /-- Reads that wait for the present step or erase to end, with what their cells will answer (R352, R364). -/
  reads : List (Nat × CellEnv)
deriving DecidableEq, Repr

/-- A layer of a stored generation (R278, R282): its entry bytes and digest, its sectors, and where it lies: 0 in the
store, 1 on the replica peer, 2 in the host spill region (R259). -/
structure LayerRef where
  entry : List Byte
  digest : List Byte
  sectors : List Nat
  spilled : Nat
deriving DecidableEq, Repr

/-- A model directory entry (R286) with what the engine keeps of the package's manifest. -/
structure DirEnt where
  model : Nat
  gen : Nat
  st : Nat
  active : Bool
  pin : Bool
  replica : Option Nat
  legacy : Bool
  bootAct : Bool
  seq : Nat
  useRecent : Nat
  actSeq : Nat
  /-- The generation's first store sector, and what it keeps: the digest of the manifest and the ID of the key that verified
  it (R286, R448). -/
  first : Option Nat
  mdigest : List Byte
  keyId : List Byte
  mhdr : List Byte
  layers : List LayerRef
deriving DecidableEq, Repr

/-- The health record (R459) as the engine holds it: CLEAN, HSEQ, TSTAMP and the block entries. -/
structure Health where
  present : Bool
  clean : Bool
  hseq : Nat
  tstamp : Nat
  blocks : Tab (BitVec 64)
deriving DecidableEq, Repr

/-- The key record (R438) as the newer sound copy holds it: its sequence, the store key item (IV, ciphertext, tag), and the
entries as their bytes: owner (none before FIELD), endorsed keys and groups. -/
structure KeyRec where
  present : Bool
  seq : Nat
  store : List Byte
  owner : List Byte
  endorsed : List (List Byte)
  groups : List (List Byte)
deriving DecidableEq, Repr

/-- Everything that survives OFF: the cells of the store with their maps and logs, the OTP row, and the records that
the HEALTH, EVENTLOG and MODELS partitions hold (R24, R352 to R374). -/
structure NvSt where
  sectors : Tab Sector
  /-- Page-map checkpoints, by 2 × stack, and one more for B, each with the sequence of the last record it contains; and the journals
  (R354, R367). -/
  ckpt : Tab (Nat × Tab MapEnt)
  journal : Tab (List JRec)
  /-- Sequence of the last journal record and of the last intent record of each stack. -/
  jseq : Tab Nat
  intents : Tab (List Intent)
  iseq : Tab Nat
  /-- Spare pools of the banks; an unlisted bank's pool is as when new (R354). -/
  pools : Tab (List Nat)
  retiredList : List Nat
  otp : Tab DWord
  otpDone : List Nat
  log : List EvRec
  dir : Tab DirEnt
  dirSeq : Nat
  calRecs : Tab CalRec
  calSeq : Nat
  calCurves : Tab (List Int)
  cycles : Tab Nat
  adapters : Tab Adapter
  adapterQ : Option Nat
  envs : Tab EnvMon
  /-- Cell levels u of the planes, number ((array × 16 + plane) × 2,048 + row) × 2,128 + plane weight column; erased cells
  are 0 (R116). -/
  cells : Tab Nat
  /-- R289 state of each plane, number array × 16 + plane: 0 FREE, 1 PENDING, 2 IN_USE, 3 WORN; and the model and
  generation it holds, with the plane that the placement names for them (log entry 15). -/
  alloc : Tab Nat
  holds : Tab (Nat × Nat × Nat)
  /-- Column maps of the planes: spare to logical column (R148). -/
  colmap : Tab (Tab Nat)
  health : Health
  keys : KeyRec
deriving DecidableEq, Repr

/-- What the last store operation answered (R358, R373). -/
structure StoreRes where
  status : Nat
  isOpen : Bool
  retried : Bool
  poison : Bool
  cbits : Nat
  data : List Byte
deriving DecidableEq, Repr

/-- The volatile state of the store controllers (R355 to R372). -/
structure StoreSt where
  /-- The page map is loaded; before that every entry holds its reset value (R355, R367). -/
  loaded : Bool
  map : Tab MapEnt
  protect : List (Nat × Nat)
  banks : Tab Bank
  /-- Banks that have raised STORE_SPARES_LOW. -/
  lowSaid : List Nat
  last : StoreRes
deriving DecidableEq, Repr

/-- An installation in progress (R282). -/
structure Install where
  cmd : Cmd
  slot : Nat
  switch : Nat
  atQ : Nat
  gen : Nat
  model : Nat
deriving DecidableEq, Repr

/-- A model switch in progress (R294 to R297). -/
structure Switch where
  model : Nat
  gen : Nat
  old : Option Nat
  atomic : Bool
  atQ : Nat
  /-- Planes still to program: (array, plane), and (old, new) plane pairs by array. -/
  todo : List (Nat × Nat)
  pairs : List (Nat × Nat × Nat)
  /-- Planes of the placement, as (array, plane), that are not to be had: their tiles run on cores from the switch on (R290). -/
  cores : List (Nat × Nat)
  ready : Bool
  reports : List Nat
  cmd : Option Cmd
deriving DecidableEq, Repr

/-- Models at run time: the generations captured for the quantum in process, the installation and the switches. -/
structure ModelSt where
  captured : Tab Nat
  install : Option Install
  switches : List Switch
  degradeNext : List Nat
  /-- Directory entries placed again at the next boundary (R287). -/
  placeNext : List Nat
  /-- Peaks of model outputs as the units that run last layers record them, newest first: by 8 × slot + chain position
  of the model that takes them (R104). The first is of the quantum in process. -/
  peaks : Tab (List Dy)
  /-- Requests for plane and column programs that wait, in the order received (R152). -/
  progs : List ProgReq
  /-- `WP_BLOCKS`, `WP_BAD`, `WP_LONG` and `WP_SHORT` of the control complex (R272), to which R470 gives no numbers. -/
  wp : Tab Nat
  /-- `USE_RECENT` by directory place as it rises with use; what no key lists stands as the directory holds it. And the index at which
  the last halving took place (R292). -/
  use : Tab Nat
  halved : Option Nat
  /-- `MODEL_SWITCH` by model ID (R299). -/
  switchCnt : Tab Nat
  /-- Directory writes that a switch boundary left to be made: the place and what the directory holds until then, the new
  generation's first (R296). -/
  unwritten : List (Nat × DirEnt)
deriving DecidableEq, Repr

/-- The states of a tether link (R306). -/
inductive Link where
  | dark | training | negotiating | exchanging | up
deriving DecidableEq, Repr

/-- One tether port (R300 to R308). -/
structure Port where
  st : Link
  uid : Nat
  addr : Option Nat
  cascade : Bool
  bcA : Bool
  version : Nat
  verFail : Bool
  uncorr : Nat
  delay : Nat
  held : Bool
deriving DecidableEq, Repr

/-- A message being reassembled from flits (R304): its bytes so far and its first flit's header; `bad` where it is
discarded up to its end. -/
structure Reasm where
  bytes : List Byte
  hdr : BitVec 128
  bad : Bool
deriving DecidableEq, Repr

/-- A multicast group at its source (R313): the last flit's SEQ of each quantum's traffic on each virtual channel's stream, as
(quantum, channel, SEQ), newest first; each member's last acknowledged quantum, by 4 × member + channel; and the members pruned. -/
structure McGroup where
  ends : List (Nat × Nat × Nat)
  acks : Tab Nat
  pruned : List Nat
deriving DecidableEq, Repr

/-- A multicast group's streams at a member (R313): SEQ of the last flit delivered, by virtual channel, and whether the member is
pruned. -/
structure McIn where
  last : Tab Nat
  pruned : Bool
deriving DecidableEq, Repr

/-- A bulk transfer being received (R315, R317): the sectors' data and how often each was requested again. -/
structure Bulk where
  data : Tab (List Byte)
  tries : Tab Nat
  failed : Bool
deriving DecidableEq, Repr

/-- The fabric switch and what it knows of the fabric (R300 to R327). -/
structure FabSt where
  ports : Tab Port
  addr : Option Nat
  position : Nat
  lsrs : List Lsr
  lsrSeq : Nat
  routes : Tab Nat
  /-- A route table computed and not yet in force, and the records that it and the one in force were computed from (R307, R309). -/
  nextRoutes : Option (Tab Nat × List Lsr)
  routeLsrs : List Lsr
  /-- Next SEQ of each stream sent, and of each stream received. -/
  txSeq : Tab Nat
  rxSeq : Tab Nat
  reasm : Tab Reasm
  groups : Tab McGroup
  mcIn : Tab McIn
  /-- Shard indices that have arrived, by 4 × set + quantum mod 4. -/
  shards : Tab (List Nat)
  /-- Bulk transfers by 128 × source + transfer. -/
  bulk : Tab Bulk
  /-- Bulk transfers that this engine sent of data that its store does not hold, by 128 × destination + transfer: the generation and the
  pieces (R302, R317). -/
  bulkOut : Tab (Nat × List (List Byte))
  /-- Bytes copied to each multicast branch, by 8 × (256 × source + group) + port: its buffer holds 64 KiB (R312). -/
  mcBytes : Tab Nat
  root : Option Nat
  /-- Peers whose heartbeat has arrived since the last boundary, consecutive misses, and peers declared failed. -/
  heard : List Nat
  missed : Tab Nat
  failed : List Nat
  declaredAt : Tab Nat
  /-- Re-map or return indices fixed, by failed address: (index, return). -/
  remap : Tab (Nat × Bool)
  /-- Failed engines whose re-map is applied, and the plan entries in force. -/
  remapped : List Nat
  applied : List (BitVec 128)
  /-- Standbys that serve for this engine (R324). -/
  servedBy : List Nat
  conflict : Bool
  tooLong : Bool
deriving DecidableEq, Repr

/-- Supply, droop and the ballast order (R418 to R433). Voltages are in mV, currents in mA, sags in 0.1 %, temperatures
in 1/16 °C, package power in 10 mW. -/
structure SupplySt where
  good : Bool
  /-- The VCORE reference in force and V_REQ (R419); the value that was announced. -/
  vref : Nat
  vreq : Nat
  vnext : Option Nat
  /-- 0 full speed, 1 half-frequency hold, 2 ramp at 3/4, 3 ramp at 7/8 (R421). -/
  stretch : Nat
  /-- ARITH slots lost in the present window, and whether DROOP_STORM was raised for it (R422). -/
  lost : Nat
  storm : Bool
  /-- The three demands (R424 to R426) and the stage in force (R423). -/
  sag : Nat
  tempD : Nat
  power : Nat
  stage : Nat
  /-- Consecutive evaluations below 52.0 W (R426). -/
  low : Nat
  /-- The last readings of each rail and die, and of the package. -/
  rails : Tab Nat
  currents : Tab Nat
  depths : Tab Nat
  dies : List Int
  pkg : Nat
  /-- Evaluations until THERM_LIMIT may be raised again (R425). -/
  therm : Nat
  /-- Priority classes that are shed, and those shed at any time since the last boundary (R428). -/
  shed : List Nat
  shedQ : List Nat
deriving DecidableEq, Repr

/-- The security engine (R434 to R449). -/
structure SecSt where
  kek : Bool
  storeKey : Bool
  spillKey : List Byte
  entropyOk : Bool
  lcCmd : Option Cmd
  keygen : Bool
deriving DecidableEq, Repr

/-- Self-test runs (R450 to R463): kind 0 none, 1 shutdown, 2 on demand, 3 recovery. -/
structure TestSt where
  kind : Nat
  /-- Slices not yet started, and the one in progress: number 256 × class + unit. -/
  queue : List Nat
  cur : Option Nat
  ran : Nat
  bad : Nat
  cmd : Option Cmd
  clear : Bool
  /-- Slices that have passed in this run, and since boot (R456, R462). -/
  ok : List Nat
  passed : List Nat
  excluded : List Nat
  budgetOver : Bool
deriving DecidableEq, Repr

/-- The header of a frame that a media port sends (R337, R338): source MAC address, the IEEE 802.1Q tag as VID and PCP, the DSCP,
and the IPv4 address of the next hop. -/
structure LanHdr where
  mac : Nat
  tag : Option (Nat × Nat)
  dscp : Nat
  hop : Nat
deriving DecidableEq, Repr

/-- What leaves the engine. The list only grows: it records, for a reader of the state, what the last commands sent. -/
inductive Out where
  /-- A write to host memory. -/
  | hostWrite (addr : Nat) (bytes : List Byte)
  /-- Output data of a command, into the buffer its list names (R410). -/
  | hostBuf (tag : Nat) (bytes : List Byte)
  | msix (vec : Nat)
  | media (port : Nat) (h : LanHdr) (p : MediaPkt)
  /-- An IGMPv3 report that joins or leaves a stream's group, from one source where the join is source-specific (R337, R340). -/
  | igmp (port : Nat) (h : LanHdr) (join : Bool) (group : Nat) (src : Option Nat)
  | arp (port : Nat) (h : LanHdr) (target : Nat)
  | icmp (port : Nat) (h : LanHdr) (dst : Nat) (payload : List Byte)
  | ptpDelayReq (port : Nat) (h : LanHdr)
  /-- A MADI frame: the presentation index, the block start flag, the channel-status block that its C bits carry, and the
  channels; its V and U bits are 0 (R349). -/
  | madi (port : Nat) (p : Nat) (block : Bool) (cs : List Byte) (ch : List Nat)
  | wordClock (port : Nat)
  | flit (port : Nat) (f : Flit)
  /-- A control, time or link flit, with what its content says (R302, R303, R309, R319, R320). -/
  | ctrl (port : Nat) (f : Flit) (kind : Nat) (body : List Nat)
  | lsr (port : Nat) (f : Flit) (r : Lsr)
  | time (port : Nat) (f : Flit) (t : TimeFlit)
  | heartbeat (port : Nat) (f : Flit) (h : Heartbeat)
deriving DecidableEq, Repr

/-- The whole engine. `pending` is the queue of commands that wait, first in, first out; `free` counts the free values
the model has taken (log entry 3); both are the model's own. -/
structure State where
  run : RunSt
  time : TimeSt
  cfg : CfgSt
  chan : ChanSt
  port : PortSt
  host : HostSt
  ev : EvSt
  obs : ObsSt
  cnt : Tab Nat
  cores : Tab Core
  grid : GridSt
  loft : LoftSt
  arrs : Tab Arr
  model : ModelSt
  store : StoreSt
  nv : NvSt
  fab : FabSt
  sup : SupplySt
  sec : SecSt
  test : TestSt
  out : List Out
  free : Nat
  pending : List Instr
deriving DecidableEq, Repr

/-! ### Reset -/

/-- An undefined value that no reset names never stands here: every field has the value that the rule or the log names
(INVENTORY.md, State). -/
def RunSt.reset : RunSt :=
  ⟨.off, none, none, 0, 0, 0, none, 0, 0, 0, 0, false, false, false, false, false, false, 0, 0, false, false, false,
   false, false, false, false, false, false⟩

def TimeSt.reset : TimeSt :=
  ⟨0, 0, false, 0, 0, .freeRun, 0, [], false, false, 0, 0, false, false, false, 0, false, none, [], [], none, none, 0⟩

/-- The Reset values of R383: word 2 down to word 0. -/
def clockingReset : BitVec 192 :=
  BitVec.ofNat 192 ((20 <<< 184) + (5 <<< 176) + (16 <<< 168) + (3 <<< 164) + (4 <<< 160) + (3 <<< 156) + (60 <<< 112)
    + (10 <<< 104) + (30 <<< 96) + (250 <<< 86) + (64 <<< 76) + (1 <<< 61) + (2 <<< 58))

/-- The Reset values of a media port record (R338): word 1 above word 0. -/
def mportReset : BitVec 128 := BitVec.ofNat 128 ((24 <<< 26) + (5 <<< 22) + ((34 <<< 26) + (46 <<< 20)) * 2 ^ 64)

/-- The Reset values of `SACTL` (R346). -/
def sactlReset : Word := BitVec.ofNat 32 ((1 <<< 28) + (1 <<< 27))

/-- The Reset values of a ballast stage word (R392). -/
def stageReset (k : Nat) : DWord :=
  BitVec.ofNat 64 ((1 <<< 63) + ((25 + 5 * k) <<< 53) + (10 <<< 45) + ((9 - k) <<< 37) + (3 <<< 32))

def CfgSt.reset : CfgSt :=
  { valid := false, slot := 0, seq := 0, startRun := false, fmt1 := false, clocking := clockingReset, phost := 0,
    mport := [mportReset, mportReset], sactl := [sactlReset, sactlReset, sactlReset, sactlReset], streams := [],
    tstreams := [], fabctl := BitVec.ofNat 128 ((3 <<< 92) + (8 <<< 84) + (500 <<< 72)), groups := [], slots := [],
    plctl := BitVec.ofNat 64 ((100 <<< 53) + (30 <<< 45) + (12 <<< 39) + (30 <<< 32)), subs := [],
    sagctl := BitVec.ofNat 64 (20 <<< 56), stages := [1, 2, 3, 4, 5, 6, 7, 8].map stageReset,
    protect := [BitVec.ofNat 64 ((24 <<< 58) + (16 <<< 40) + (30 <<< 32))],
    policy := BitVec.ofNat 64 (1000 <<< 44), trace := BitVec.ofNat 64 (2 <<< 44), remap := [], bcA := false }

def StreamIn.reset : StreamIn := ⟨[], [], none, false⟩
def StreamOut.reset : StreamOut := ⟨[], none, 0⟩
def SlotSt.reset : SlotSt := ⟨false, [], [], [], 0, 0, [], [], 0⟩
def ChanSt.reset : ChanSt := ⟨[], [], [], false⟩
def PortSt.reset : PortSt :=
  { lit := false, mediaUp := [false, false], gm := [none, none], twoStep := [none, none], synced := [false, false],
    annAt := [none, none], syncAt := [none, none], reqAt := [none, none], annLog := [0, 0], reqLog := [0, 0],
    saLock := [false, false, false, false], saFrame := [none, none, none, none], saEdges := [0, 0, 0, 0],
    edgeAt := [none, none, none, none], saIdx := [none, none, none, none], dark := [false, false, false, false],
    faulted := [false, false, false, false], retry := [false, false, false, false], dead := [false, false, false, false] }
def Ring.reset : Ring := ⟨0, false, false, 0, 4, 0, 0⟩
def HostSt.reset : HostSt :=
  ⟨false, false, 0, 0, .reset, .reset, .reset, .reset, true, 0x12, [], 0, false, 0, [], [], false, false, [], [], [], 0, [], [],
   0, 0⟩
def EvSt.reset : EvSt := ⟨0, [], false, 0⟩
def TrEng.reset : TrEng := ⟨0, false, [], 0, 0⟩
def ObsSt.reset : ObsSt := ⟨none, 0, 0, 0, [], none, [], none, false, false, false, [], [], [], 0, false, []⟩
def RxRing.reset : RxRing := ⟨0, 0, 0, 0, 0⟩
def Core.reset : Core :=
  { s := [], v := [], acc := [], tag := [], wb := [], idx := 0, compute := false, run := .halted, woken := false,
    flags := 0, qindex := 0, vlen := 64, qclamp := 0, qmask := 0xFFFF, dispatch := 0, gens := [], deadline := none,
    rings := [], rx := [], lmem := [], imem := [], entry := 0, hasProg := false, inTask := false, dma := [],
    trapCause := 0, trapIdx := 0, halt := false }
def SyncObj.reset : SyncObj := ⟨0, 0, 0, 0, false, 0, []⟩
def GridSt.reset : GridSt := ⟨[], [], [], []⟩
def Reel.reset : Reel := ⟨[], 0, 0, 0, 2, false, [], [], [], [], []⟩
def LoftSt.reset : LoftSt := ⟨[], [], [], []⟩
def CalRec.reset : CalRec := ⟨0, 0, 0, 0, 0, 0, 0, [], [], 0⟩
def RowJob.reset : RowJob :=
  { desc := 0, hdr := 0, jArr := 0, jDesc := 0, codes := [], scale := 0, flat := false, again := none, rerun := false,
    passes := 0, group := 0, donePasses := 0, conv := [], terms := none, wait := [], corr := [], bytes := 0 }
def Adapter.reset : Adapter := ⟨0, 0, 0, [], [], 0, 0, 0, [], [], none⟩
def EnvMon.reset : EnvMon := ⟨0, 0, 0, [], 0, 0, [], 0, 0, [], 0, 0⟩
def Arr.reset : Arr :=
  { st := .online, sel := 0, descs := [], models := [], bias := [], tables := [], curves := [],
    colmap := [], recs := [], idle := [], swap := [], staged := false, hist := [], maxq := [], doneQ := [],
    deferP := [], live := [], quiet := [], clipQ := [], loud := [], limited := [], satQ := [], gLive := [], oLive := [],
    sumA := [], sumB := [], sumM := [], npQ := [], hardRun := 0, passes16 := 0, asm := none, fifo := [], late := [], drain := [],
    joins := [], pool := [], env := [], breachCal := 0, cleanRun := 0, adapters := [], probe := [],
    probeAt := [], lastRow := [], onStandin := [], toStandin := [], fromStandin := [], waitStandin := [], calQ := [], calDone := 0, refBad := false,
    sliceOn := false, flagged := [], tried := [], spent := [], offCells := [], prog := none, mapNext := [], temp := 0,
    flankOut := false }
def ModelSt.reset : ModelSt := ⟨[], none, [], [], [], [], [], [], [], none, [], []⟩
def Sector.reset : Sector := ⟨[], 0, 0, 0, 0, 0⟩
def Bank.reset : Bank := ⟨none, [], 0, []⟩
def StoreRes.reset : StoreRes := ⟨0, false, false, false, 0, []⟩
def StoreSt.reset : StoreSt := ⟨false, [], [], [], [], .reset⟩
def Health.reset : Health := ⟨false, false, 0, 0, []⟩
def KeyRec.reset : KeyRec := ⟨false, 0, [], [], [], []⟩
def NvSt.reset : NvSt :=
  { sectors := [], ckpt := [], journal := [], jseq := [], intents := [], iseq := [], pools := [], retiredList := [], otp := [], otpDone := [], log := [],
    dir := [], dirSeq := 0, calRecs := [], calSeq := 0, calCurves := [], cycles := [], adapters := [], adapterQ := none,
    envs := [], cells := [], alloc := [], holds := [], colmap := [], health := .reset, keys := .reset }
def Port.reset : Port := ⟨.dark, 0, none, false, false, 0, false, 0, 0, false⟩
def Reasm.reset : Reasm := ⟨[], 0, false⟩
def McGroup.reset : McGroup := ⟨[], [], []⟩
def McIn.reset : McIn := ⟨[], false⟩
def Bulk.reset : Bulk := ⟨[], [], false⟩
def FabSt.reset : FabSt :=
  { ports := [], addr := none, position := 0, lsrs := [], lsrSeq := 0, routes := [], nextRoutes := none, routeLsrs := [], txSeq := [],
    rxSeq := [], reasm := [], groups := [], mcIn := [], shards := [], bulk := [], bulkOut := [], mcBytes := [], root := none, heard := [], missed := [],
    failed := [], declaredAt := [], remap := [], remapped := [], applied := [], servedBy := [], conflict := false,
    tooLong := false }
def SupplySt.reset : SupplySt :=
  { good := false, vref := 800, vreq := 800, vnext := none, stretch := 0, lost := 0, storm := false, sag := 0, tempD := 0,
    power := 0, stage := 0, low := 0, rails := [], currents := [], depths := [], dies := [], pkg := 0, therm := 0,
    shed := [], shedQ := [] }
def SecSt.reset : SecSt := ⟨false, false, [], true, none, false⟩
def TestSt.reset : TestSt := ⟨0, [], none, 0, 0, none, false, [], [], [], false⟩

/-- The engine in OFF, before supply-good, with a store and an OTP row that nothing has written (R16; DESIGN CHOICE, log
entry 2: the spec gives the parts' reset values one by one, and a state of the whole engine only as OFF). -/
def State.reset : State :=
  { run := .reset, time := .reset, cfg := .reset, chan := .reset, port := .reset, host := .reset, ev := .reset,
    obs := .reset, cnt := [], cores := [], grid := .reset, loft := .reset, arrs := [], model := .reset, store := .reset,
    nv := .reset, fab := .reset, sup := .reset, sec := .reset, test := .reset, out := [], free := 0, pending := [] }

end Sys2Proof.Machine
end

