-- ==== Sys2Proof/Machine/Ops.lean ====
section
/-!
DEFINITION. The operations that every family shares: time, counters, events, messages, completions, trace, and the
places where units are read and written.
-/

namespace Sys2Proof.Machine

/-- The outcome of a step. -/
abbrev Res := Host.Outcome State Fault Refusal

/-- The outcome for unit `n` of `bound`: the state, or the fault where the spec gives no such unit. -/
def inUnit (n bound : Nat) (t : State) : Res := if n < bound then .next t else .fault (.noSuchUnit n)

/-- The state with another queue of waiting commands; nothing else changes. -/
def State.withPending (s : State) (l : List Instr) : State := { s with pending := l }

/-! ### Sample time (R25 to R31) -/

/-- TSTAMP of a sample index and tick (R26). -/
def packTs (sample tick : Nat) : Nat := (sample % 2 ^ 52) * 4096 + tick % 4096

/-- The current TSTAMP (R26). -/
def State.tstamp (s : State) : Nat := packTs s.time.sample s.time.tick

/-- Quantum size of a QUANTUM code (R30, R51). -/
def qOf (code : Nat) : Nat := 8 * 2 ^ code

/-- The quantum size in force. -/
def State.q (s : State) : Nat := qOf s.time.quantum

/-- Multiple of the base rate of a RATE code (R28, R51): 1, 2 or 4. -/
def rateMul (code : Nat) : Nat := 2 ^ (code / 2)

/-- Ticks of an interpolator phase (R28). -/
def State.phaseTicks (s : State) : Nat := rateMul s.time.rate

/-- The sample rate in hertz (R51). -/
def rateHz (code : Nat) : Nat := (if code % 2 = 0 then 44100 else 48000) * rateMul code

/-- The index of the quantum being processed (R31). -/
def State.qindex (s : State) : Nat := s.time.window

/-- The channel slots are processed in this run state (R16). -/
def State.inRun (s : State) : Bool := s.run.st == .run

/-- The code of a run state in the registers (R405). -/
def runCode (x : RunState) : Nat := match x with | .off => 0 | .boot => 1 | .run => 2 | .maintenance => 3 | .shutdown => 4

/-- The engine refuses new work at its computing units, which drain to their safe boundaries: a warm reset is under way, or the
engine shuts down (R23). -/
def State.draining (s : State) : Bool := s.run.resetting.isSome || s.run.st == .shutdown

/-! ### Free values -/

/-- The number of the next free value, and the state that has taken it. -/
def State.take (s : State) : Nat × State := (s.free, { s with free := s.free + 1 })

/-! ### Counters (R468 to R472) -/

/-- A counter's value. -/
def State.ctr (s : State) (k : Nat) : Nat := tget 0 s.cnt k

/-- The counter `k` raised by `n`, saturating at 2^64 - 1 (R468). -/
def State.count (s : State) (k n : Nat) : State :=
  { s with cnt := tset 0 s.cnt k (min (tget 0 s.cnt k + n) (2 ^ 64 - 1)) }

/-- Several counters raised. -/
def State.counts (s : State) (l : List (Nat × Nat)) : State := l.foldl (fun s p => s.count p.1 p.2) s

def kCore (i o : Nat) : Nat := 24 * i + o
def kRouter (i o : Nat) : Nat := 1536 + 4 * i + o
def kArr (a o : Nat) : Nat := 1792 + 32 * a + o
def kSlice (i o : Nat) : Nat := 3328 + 32 * i + o
def kBank (b o : Nat) : Nat := 3840 + 8 * b + o
def kStack (t o : Nat) : Nat := 4096 + 16 * t + o
def kTether (p o : Nat) : Nat := 4128 + 8 * p + o
def kSwitch (o : Nat) : Nat := 4192 + o
def kHost (o : Nat) : Nat := 4224 + o
def kMedia (m o : Nat) : Nat := 4240 + 8 * m + o
def kSa (k o : Nat) : Nat := 4256 + 8 * k + o
def kSupply (o : Nat) : Nat := 4352 + o
def kEngine (o : Nat) : Nat := 4416 + o
def kSlot (s o : Nat) : Nat := 0x10000 + 16 * s + o
def kStream (t o : Nat) : Nat := 0x20000 + 16 * t + o
def kExit (s : Nat) : Nat := 0x30000 + s
def kDesc (a d o : Nat) : Nat := 0x40000 + 64 * (1024 * a + d) + o
def kDir (x o : Nat) : Nat := 0x400000 + 4 * x + o

/-! ### Endpoint addresses and messages (R184, R193) -/

/-- An endpoint address on this engine (R184). -/
def localAddr (kind unit sub : Nat) : Nat := kind * 2 ^ 16 + unit * 2 ^ 8 + sub

/-- An endpoint address on the engine `dev` (R184). -/
def remoteAddr (dev kind unit sub : Nat) : Nat := 2 ^ 31 + (dev % 4096) * 2 ^ 19 + localAddr kind unit sub


/-- Header word 1 of a message (R193). -/
def mkW1 (type fmt len : Nat) (syncEn : Bool) (sync qtag arg : Nat) : DWord :=
  BitVec.ofNat 64 (type * 2 ^ 60 + fmt * 2 ^ 56 + len * 2 ^ 42 + b2n syncEn * 2 ^ 41 + (sync % 4096) * 2 ^ 29
    + (qtag % 4) * 2 ^ 27 + arg % 2 ^ 21)

/-- A message of this engine (R193). -/
def mkMsg (dest src type fmt : Nat) (syncEn : Bool) (sync qtag arg : Nat) (payload : List Byte) : Msg :=
  ⟨BitVec.ofNat 32 dest, BitVec.ofNat 32 src, mkW1 type fmt payload.length syncEn sync qtag arg, payload⟩



/-- The router where the flank of an array attaches (R12), as 8x + y. -/
def flankRouter (a : Nat) : Nat :=
  let i := a % 12 / 2
  match a / 12 with
  | 0 => 8 * (i + 1)
  | 1 => 56 + (i + 1)
  | 2 => 8 * (6 - i) + 7
  | _ => 6 - i

/-- The router of a loft slice and of its task queue (R179). -/
def sliceRouter (i : Nat) : Nat := 8 * (2 + i / 4) + 2 + i % 4

/-- The router of an endpoint address, with the sync object that a `KIND` 7 message names (R179, R184). -/
def routerOf (addr sync : Nat) : Nat :=
  let u := bf addr 15 8
  if addr.testBit 31 then 63
  else
    match bf addr 18 16 with
    | 0 => u % 64
    | 1 => flankRouter u
    | 2 => sliceRouter (u % 16)
    | 3 => 0
    | 4 => 56
    | 5 => 7
    | 7 => sync % 4096 / 64
    | _ => 63

/-- The routers that forward a message, from its source's up to the last before its destination's: in x first, then in
y (R181); by fuel. -/
def meshPath : Nat → Nat → Nat → List Nat
  | 0, _, _ => []
  | f + 1, a, b =>
    if a / 8 ≠ b / 8 then a :: meshPath f (if a / 8 < b / 8 then a + 8 else a - 8) b
    else if a ≠ b then a :: meshPath f (if a < b then a + 1 else a - 1) b
    else []

/-- The flits of a message with `n` payload bytes (R180). -/
def flitsOf (n : Nat) : Nat := cdiv (16 + n) 64

/-- A message put into the mesh, behind those issued before it (R182); its flits count at each router that forwards them
to the next (R181, R213; log entry 7). -/
def State.send (s : State) (m : Msg) : State :=
  { s with grid.mesh := s.grid.mesh ++ [m] }.counts
    ((meshPath 15 (routerOf m.src.toNat 0) (routerOf m.dest.toNat m.sync)).map fun r =>
      (kRouter r 0, flitsOf m.payload.length))

/-- The block number of a self-test slice, number 256 × class + unit (R450, R459). -/
def blockOf (slice : Nat) : Nat :=
  let u := slice % 256
  match slice / 256 with | 0 => u | 1 => u | 2 => 112 + u | 3 => 64 + u | 4 => 64 + u | 5 => 128 + u | _ => 130 + u

/-- Two messages of one source endpoint, one destination endpoint and one virtual channel; a message to a sync object ends at the
object's home router (R182, R184, R198). -/
def sameEnds (x m : Msg) : Bool :=
  x.src == m.src && x.dest == m.dest && x.vc == m.vc && (m.kind != 7 || x.sync / 64 == m.sync / 64)

/-- Whether a message in the mesh may be delivered now: nothing of its source, destination and channel is ahead of it
(R182). A message that is not in the mesh comes from outside it. -/
def meshReady (l : List Msg) (m : Msg) : Bool :=
  match l with
  | [] => true
  | x :: r =>
    if x = m then true
    else if sameEnds x m ∧ r.contains m then false
    else meshReady r m

/-- The block number of the unit that a message goes to (R459), where it has one: a core, an array's flank, a loft slice. -/
def msgBlock (m : Msg) : Option Nat :=
  if m.remote then none
  else if m.type = 6 then some (112 + m.arg % 16)
  else match m.kind with | 0 => some m.unit | 1 => some (64 + m.unit) | 2 => some (112 + m.unit) | _ => none

/-- A block that this boot has excluded from service (R461). -/
def State.excl (s : State) (b : Nat) : Bool := s.test.excluded.contains b

/-- The block that the self-test slice in progress isolates (R453). -/
def State.isolated (s : State) (b : Nat) : Bool := s.test.cur.any fun c => blockOf c == b

/-- A message in the mesh may be delivered now: it is in turn, and its unit is not under test (R182, R453). -/
def State.ready (s : State) (m : Msg) : Bool :=
  meshReady s.grid.mesh m && !(match msgBlock m with | some b => s.isolated b | none => false)

/-- The state with the message taken out of the mesh. -/
def State.arrive (s : State) (m : Msg) : State := { s with grid.mesh := s.grid.mesh.erase m }

/-! ### Host memory and interrupts -/

def State.emit (s : State) (o : Out) : State := { s with out := s.out ++ [o] }

/-- Host DMA runs: the link is up, the function is in D0, and no reset of the function has stopped it (R334). -/
def State.dmaOn (s : State) : Bool := s.host.up && !s.host.d3 && !s.host.dmaHeld

/-- Entries of a ring (R406). -/
def Ring.size (r : Ring) : Nat := 2 ^ r.log2n

/-- Whether a ring that the engine writes is full: one entry stays free. -/
def Ring.full (r : Ring) : Bool := (r.tail + 1) % r.size == r.head

/-- Free entries of a ring that the engine writes. -/
def Ring.room (r : Ring) : Nat := r.size - 1 - (r.tail + r.size - r.head) % r.size

/-- The mask bit of an MSI-X vector, bit 0 of the entry's last word (R332). -/
def State.vecMasked (s : State) (v : Nat) : Bool := (tget 0 s.host.msix v).toNat.testBit 96

/-- An MSI-X message, or its pending bit while the vector is masked (R332, R333). -/
def State.msix (s : State) (v : Nat) : State :=
  if s.vecMasked v then { s with host.pba := if s.host.pba.contains v then s.host.pba else v :: s.host.pba } else s.emit (.msix v)

/-- The interrupt of a ring, where `IRQ_EN` is set (R406, R407). -/
def State.irq (s : State) (r : Ring) : State := if r.irqEn then s.msix r.vec else s

/-! ### Events (R484 to R486) -/

/-- An event: its code and its severity (R486). -/
structure EvKind where
  code : Nat
  sev : Nat
deriving DecidableEq, Repr

def evClockLockLost : EvKind := ⟨0x0100, 2⟩
def evClockHoldoverExpired : EvKind := ⟨0x0101, 2⟩
def evClockSourceChanged : EvKind := ⟨0x0102, 1⟩
def evClockRephased : EvKind := ⟨0x0103, 1⟩
def evClockPhaseStep : EvKind := ⟨0x0104, 2⟩
def evSat : EvKind := ⟨0x0200, 1⟩
def evConvClip : EvKind := ⟨0x0201, 1⟩
def evConvRangeLimit : EvKind := ⟨0x0202, 2⟩
def evPlaneWearWarn : EvKind := ⟨0x0203, 2⟩
def evCalStale : EvKind := ⟨0x0204, 1⟩
def evCalRecordBad : EvKind := ⟨0x0205, 2⟩
def evLiveRefBound : EvKind := ⟨0x0206, 2⟩
def evEnvelopeBreach : EvKind := ⟨0x0207, 2⟩
def evEnvelopePersistent : EvKind := ⟨0x0208, 2⟩
def evColumnFlagged : EvKind := ⟨0x0209, 1⟩
def evSpareRemapped : EvKind := ⟨0x020A, 1⟩
def evColumnUnrepairable : EvKind := ⟨0x020B, 2⟩
/-- `ARRAY_STATE`: severity 3 where the new state is FAILED. -/
def evArrayState (failed : Bool) : EvKind := ⟨0x020C, if failed then 3 else 1⟩
def evCoreTrap : EvKind := ⟨0x0300, 3⟩
def evSyncMisuse : EvKind := ⟨0x0301, 2⟩
def evReelFillFailed : EvKind := ⟨0x0400, 3⟩
def evModelInstalled : EvKind := ⟨0x0500, 0⟩
def evModelInstallRefused : EvKind := ⟨0x0501, 2⟩
def evModelInstallLost : EvKind := ⟨0x0502, 2⟩
def evModelState : EvKind := ⟨0x0503, 0⟩
def evModelUnavailable : EvKind := ⟨0x0504, 3⟩
def evModelSwitched : EvKind := ⟨0x0505, 1⟩
def evModelSwitchAbandoned : EvKind := ⟨0x0506, 2⟩
def evModelEvicted : EvKind := ⟨0x0507, 2⟩
def evModelDegraded : EvKind := ⟨0x0508, 3⟩
def evTpLinkState : EvKind := ⟨0x0600, 1⟩
def evTpLinkDegraded : EvKind := ⟨0x0601, 2⟩
def evTpVersionFail : EvKind := ⟨0x0602, 2⟩
def evFabNeighbourMismatch : EvKind := ⟨0x0603, 2⟩
def evFabAddrConflict : EvKind := ⟨0x0604, 3⟩
def evFabCascadeLong : EvKind := ⟨0x0605, 3⟩
def evMcPruned : EvKind := ⟨0x0606, 2⟩
def evMcRejoined : EvKind := ⟨0x0607, 1⟩
def evShardMissing : EvKind := ⟨0x0608, 2⟩
def evFabXferFailed : EvKind := ⟨0x0609, 2⟩
def evFabTimeRoot : EvKind := ⟨0x060A, 1⟩
def evFabPeerFailed : EvKind := ⟨0x060B, 3⟩
def evFabRemapApplied : EvKind := ⟨0x060C, 2⟩
def evRemapLate : EvKind := ⟨0x060D, 3⟩
def evPortLaserFault : EvKind := ⟨0x0700, 3⟩
def evHostLinkState : EvKind := ⟨0x0701, 1⟩
def evMediaLinkState : EvKind := ⟨0x0702, 2⟩
def evSaLockState : EvKind := ⟨0x0703, 2⟩
def evStoreEccWarn : EvKind := ⟨0x0800, 1⟩
def evStoreUncorrectable : EvKind := ⟨0x0801, 3⟩
def evStoreIntentReplayed : EvKind := ⟨0x0802, 2⟩
def evStoreSectorRetired : EvKind := ⟨0x0803, 1⟩
def evStoreSparesLow : EvKind := ⟨0x0804, 2⟩
def evStoreWearWarn : EvKind := ⟨0x0805, 2⟩
def evStoreMapRebuilt : EvKind := ⟨0x0806, 2⟩
def evConfigFallback : EvKind := ⟨0x0900, 2⟩
def evHostRingError : EvKind := ⟨0x0901, 2⟩
def evBallastStage : EvKind := ⟨0x0A00, 2⟩
def evDroopStorm : EvKind := ⟨0x0A01, 1⟩
def evSupplyVreq : EvKind := ⟨0x0A02, 1⟩
def evThermLimit : EvKind := ⟨0x0A03, 3⟩
def evLcChanged : EvKind := ⟨0x0B00, 1⟩
def evLcTokenRefused : EvKind := ⟨0x0B01, 2⟩
def evLcTorn : EvKind := ⟨0x0B02, 2⟩
def evSecEntropyFail : EvKind := ⟨0x0B03, 3⟩
def evSecKeyrecLost : EvKind := ⟨0x0B04, 3⟩
def evSecProvisionTorn : EvKind := ⟨0x0B05, 3⟩
def evSelftestFail : EvKind := ⟨0x0C00, 3⟩
def evSelftestDone : EvKind := ⟨0x0C01, 0⟩
def evHealthBlockExcluded : EvKind := ⟨0x0C02, 2⟩
def evHealthDegradedBoot : EvKind := ⟨0x0C03, 3⟩
def evHealthStoreFailed : EvKind := ⟨0x0C04, 3⟩
def evHealthRecordBad : EvKind := ⟨0x0C05, 2⟩
def evRipcordFired : EvKind := ⟨0x0D00, 0⟩
def evDebugHalted : EvKind := ⟨0x0D01, 1⟩
def evDebugResumed : EvKind := ⟨0x0D02, 1⟩

/-- This engine's fabric address, 0 before it has one. -/
def State.dev (s : State) : Nat := s.fab.addr.getD 0

/-- The payload items of an event, each `(bytes, value)` aligned to its own size, cut into payloads of 16 bytes; an item
that does not fit goes to the next record (R484). -/
def packItems : List (Nat × Nat) → List Byte → List (List Byte)
  | [], cur => [fit 0 16 cur]
  | (w, v) :: r, cur =>
    let at_ := cdiv cur.length w * w
    if at_ + w > 16 then fit 0 16 cur :: packItems r (leBytes w v)
    else packItems r (fit 0 at_ cur ++ leBytes w v)

/-- Capacity of the EVENTLOG ring in records: 16,384 sectors of 128 (R353, R485). -/
def eventLogCap : Nat := 16384 * 128

/-- An event record written to the host event ring, or discarded from it (R407). -/
def State.postHost (s : State) (r : EvRec) : State :=
  if s.dmaOn && s.host.eq.en && !s.host.eq.full then
    let e := s.host.eq
    let s1 := s.emit (.hostWrite (e.base.toNat + 32 * e.tail) (leBytes 8 r.ts ++ leBytes 8 r.word ++ r.payload))
    let s2 := { s1 with host.eq.tail := (e.tail + 1) % e.size, host.evCount := (s.host.evCount + 1) % 2 ^ 32,
                        host.sev := s.host.sev ||| 2 ^ bf r.word 15 14 }
    if e.tail = e.head then s2.irq e else s2
  else { s with host.eqOvf := true }.count (kHost 5) 1

/-- An event record sent on to the monitor engine (R485). -/
def State.forwardEv (s : State) (r : EvRec) : State :=
  if flag s.cfg.trace 58 ∧ fld s.cfg.trace 45 44 ≤ bf r.word 15 14 then
    if s.ev.fwdCount < 256 then
      { s with ev.fwdCount := s.ev.fwdCount + 1 }.send
        (mkMsg (remoteAddr (fld s.cfg.trace 57 46) 4 1 0) (localAddr 4 0 0) 0 0 false 0 s.qindex 0
          (leBytes 8 r.ts ++ leBytes 8 r.word ++ r.payload))
    else s.count (kEngine 18) 1
  else s

/-- The newest records of a log, as many as the ring holds. -/
def newest (cap : Nat) (l : List EvRec) : List EvRec := (l.reverse.take cap).reverse

/-- An event record kept in the EVENTLOG ring (R485). -/
def State.logEv (s : State) (r : EvRec) : State :=
  if 2 ≤ bf r.word 15 14 then
    { s with nv.log := newest eventLogCap (s.nv.log ++ [r]) } else s

/-- An event record posted to the rings, the log and the forward path, or held before boot step 12 (R485). -/
def State.postEv (s : State) (r : EvRec) : State :=
  if s.ev.posting then ((s.postHost r).logEv r).forwardEv r
  else if s.ev.held.length < 1024 then { s with ev.held := s.ev.held ++ [r] }
  else s.count (kEngine 19) 1

/-- The records of one event, from its payloads, in order (R484). -/
def State.raiseRecs (s : State) (e : EvKind) : Bool → List (List Byte) → State
  | _, [] => s
  | cont, p :: r =>
    let w := (s.ev.seq % 2 ^ 32) * 2 ^ 32 + e.code * 2 ^ 16 + e.sev * 2 ^ 14 + b2n cont * 2 ^ 13 + s.dev % 4096
    State.raiseRecs ({ s with ev.seq := s.ev.seq + 1 }.postEv ⟨s.tstamp, w, p⟩) e true r

/-- An event is raised with its payload items (R484); each raising counts once. -/
def State.raise (s : State) (e : EvKind) (items : List (Nat × Nat)) : State :=
  (s.count (kEngine 17) 1).raiseRecs e false (packItems items [])

/-- Events raised before boot step 12 are posted in order at its end (R485). -/
def State.postHeld (s : State) : State :=
  s.ev.held.foldl State.postEv { s with ev.held := [], ev.posting := true }

/-! ### Completions (R407, R409) -/

/-- A completion written to the host's completion ring. -/
def State.writeCpl (s : State) (c : Cpl) : State :=
  let q := s.host.cq
  let w0 := (c.tag % 65536) * 2 ^ 48 + (c.status % 256) * 2 ^ 40 + b2n s.host.phase * 2 ^ 39 + (c.kind % 4) * 2 ^ 37
    + (c.head % 65536) * 2 ^ 16 + c.r1 % 65536
  let body := leBytes 8 w0 ++ leBytes 4 c.r0
  let s1 := (if c.data = [] then s else s.emit (.hostBuf c.tag c.data)).emit
    (.hostWrite (q.base.toNat + 16 * q.tail) (body ++ leBytes 4 (crc32c body)))
  let wrap := q.tail + 1 = q.size
  let s2 := { s1 with host.cq.tail := (if wrap then 0 else q.tail + 1), host.phase := s.host.phase != wrap }
  if c.irq ∨ c.status = 1 then s2.irq q else s2

/-- A completion goes where its command came from: written, held while the ring is disabled, lost while host DMA is
stopped (R335, R407), or sent to the peer (R416). -/
def State.postCpl (s : State) (c : Cpl) : State :=
  match c.dst with
  | .host =>
    let s := if c.kind = 0 then { s with host.owed := s.host.owed - 1 } else s
    if !s.dmaOn then s.count (kHost 3) 1
    else if s.host.cq.en then s.writeCpl c
    else { s with host.held := s.host.held ++ [c] }
  | .peer a =>
    let big := c.data.length > 8176
    let w0 := (c.tag % 65536) * 2 ^ 48 + ((if big then 0x0D else c.status) % 256) * 2 ^ 40 + (c.kind % 4) * 2 ^ 37
      + c.r1 % 65536
    let body := leBytes 8 w0 ++ leBytes 4 (if big then c.data.length else c.r0)
    s.send (mkMsg (remoteAddr a 4 0 0) (localAddr 4 0 0) 0 0 false 0 s.qindex 0
      (body ++ leBytes 4 (crc32c body) ++ (if big then [] else c.data)))


/-! ### Units -/

def State.core (s : State) (k : Nat) : Core := tget .reset s.cores k
def State.setCore (s : State) (k : Nat) (c : Core) : State := { s with cores := tset .reset s.cores k c }
def State.arr (s : State) (a : Nat) : Arr := tget .reset s.arrs a
def State.setArr (s : State) (a : Nat) (x : Arr) : State := { s with arrs := tset .reset s.arrs a x }
def State.reel (s : State) (r : Nat) : Reel := tget .reset s.loft.reels r
def State.setReel (s : State) (r : Nat) (x : Reel) : State := { s with loft.reels := tset .reset s.loft.reels r x }
def State.port_ (s : State) (p : Nat) : Port := tget .reset s.fab.ports p
def State.setPort (s : State) (p : Nat) (x : Port) : State := { s with fab.ports := tset .reset s.fab.ports p x }
def State.slot (s : State) (i : Nat) : SlotSt := tget .reset s.chan.slots i
def State.setSlot (s : State) (i : Nat) (x : SlotSt) : State := { s with chan.slots := tset .reset s.chan.slots i x }
def State.dirEnt (s : State) (x : Nat) : Option DirEnt := tfind s.nv.dir x

/-- Number and entry of the active generation of a model. -/
def State.activeEnt (s : State) (m : Nat) : Option (Nat × DirEnt) := s.nv.dir.find? fun p => p.2.model == m && p.2.active

/-! ### Ballast (R423) -/

/-- Stage `k` sheds its function: it is in force and enabled; a stage whose `STG_EN` is clear never sheds (R423). -/
def State.ballast (s : State) (k : Nat) : Bool := decide (k ≤ s.sup.stage) && flag (nth 0 s.cfg.stages (k - 1)) 63

/-! ### Self-test slices (R427, R450, R451, R458) -/

/-- A block's entry in the health record, and its `BSTATE` (R460). -/
def State.hEntry (s : State) (b : Nat) : BitVec 64 := tget 0 s.nv.health.blocks b
def heState (e : BitVec 64) : Nat := fld e 63 62

/-- A slice of an array waits for a program on it to end (R458). -/
def State.sliceBusy (s : State) (c : Nat) : Bool := (c / 256 == 3 || c / 256 == 4) && (s.arr (c % 256)).st == .programming

/-- The next slice of a run starts where none is in progress: never on a FAILED block, unless the run clears it, and not
while ballast stage B1 is in force or after the budget of a recovery (R402, R427, R451). -/
def State.startSlice (s : State) : State :=
  let x := s.test
  if x.kind = 0 ∨ x.cur ≠ none ∨ s.ballast 1 ∨ (x.kind = 3 ∧ x.budgetOver) then s
  else
    match x.queue.dropWhile fun c => !x.clear && heState (s.hEntry (blockOf c)) == 2 with
    | [] => { s with test.queue := [] }
    | c :: r => if s.sliceBusy c then { s with test.queue := c :: r } else { s with test.queue := r, test.cur := some c }


/-! ### Trace (R477, R480 to R483) -/

/-- Records that the trace ring holds (R483): `TRACE_MIB` + 1 MiB of 16-byte records. -/
def State.traceCap (s : State) : Nat := (fld s.cfg.trace 61 59 + 1) * 65536

def State.trEng (s : State) (e : Nat) : TrEng := tget .reset s.obs.engines e
def State.setTrEng (s : State) (e : Nat) (g : TrEng) : State := { s with obs.engines := tset .reset s.obs.engines e g }

/-- The host's trace ring takes records. -/
def State.tqOpen (s : State) : Bool := s.dmaOn && s.host.tq.en && !s.host.tq.full

/-- A trace record written to the host's ring; its interrupt comes when the ring passes half full (R406, R407). -/
def State.tqPut (s : State) (r : TrRec) : State :=
  let q := s.host.tq
  let s : State := { s.emit (.hostWrite (q.base.toNat + 16 * q.tail) (leBytes 8 r.ts ++ leBytes 8 r.word)) with
    host.tq.tail := (q.tail + 1) % q.size }
  if s.host.tq.room + q.size / 2 + 2 = q.size then s.irq s.host.tq else s

/-- Trace records move on as far as there is room (R482, R483): those of the flight recorder's copy and of the staging ring
to the host, and those of the FIFOs, the lowest engine first (log entry 28), to the trace ring, which overwrites its oldest
record as a flight recorder. -/
def State.drainTrace (s : State) : Nat → State
  | 0 => s
  | f + 1 =>
    let stream := flag s.cfg.trace 62
    match s.obs.copying with
    | r :: l => if s.tqOpen then State.drainTrace (({ s with obs.copying := l }).tqPut r) f else s
    | [] =>
      match (if stream && s.tqOpen then s.obs.ring else []) with
      | r :: l => State.drainTrace (({ s with obs.ring := l }).tqPut r) f
      | [] =>
        if stream && decide (s.traceCap ≤ s.obs.ring.length) then s
        else
          match s.obs.engines.find? fun p => p.2.fifo != [] with
          | none => s
          | some p =>
            let s := s.setTrEng p.1 { p.2 with fifo := p.2.fifo.drop 1 }
            let ring := s.obs.ring ++ p.2.fifo.take 1
            State.drainTrace { s with obs.ring := ring.drop (ring.length - s.traceCap), obs.ringN := s.obs.ringN + 1 } f

/-- Records that wait, as the fuel of their draining. -/
def State.traceFuel (s : State) : Nat :=
  s.obs.copying.length + 2 * s.obs.ring.length + 3 * sumN (s.obs.engines.map fun p => p.2.fifo.length) + 3

def State.moveTrace (s : State) : State := s.drainTrace s.traceFuel

/-- The word of a trace record (R481). -/
def trWord (e kind tag aux : Nat) : Nat := e * 2 ^ 54 + kind * 2 ^ 50 + (tag % 65536) * 2 ^ 34 + aux % 2 ^ 34

/-- A record enters its engine's FIFO, or is dropped where the FIFO is full; once space has returned, a lost record goes
ahead of it (R482). -/
def State.traceIn (s : State) (e : Nat) (r : TrRec) : State :=
  let g := s.trEng e
  let g := if g.lost ≠ 0 ∧ g.fifo.length < 32 then
      { g with fifo := g.fifo ++ [⟨s.tstamp, trWord e 3 0 g.lost⟩], lost := 0 } else g
  if g.fifo.length < 32 then ((s.setTrEng e { g with fifo := g.fifo ++ [r] }).count (kEngine 15) 1).moveTrace
  else (s.setTrEng e { g with lost := g.lost + 1 }).count (kEngine 16) 1

/-- A trace record of engine `e` captured, where trace is on and neither B4 nor a copy holds it (R427, R482, R483). -/
def State.traceRec (s : State) (e kind tag aux : Nat) : State :=
  if flag s.cfg.trace 63 && !s.obs.captureOff && !s.ballast 4 then s.traceIn e ⟨s.tstamp, trWord e kind tag aux⟩
  else s

/-- A traced command begins: its engine's gauge takes the new tag (R477), and its record is captured. -/
def State.traceBegin (s : State) (e tag aux : Nat) : State :=
  let g := tget .reset s.obs.engines e
  ({ s with obs.engines := tset .reset s.obs.engines e { g with tag := tag % 65536, begun := true } }).traceRec e 0 tag
    aux

/-- A traced command ends (kind 1) or is abandoned (kind 2), with its `AUX`. -/
def State.traceEnd (s : State) (e kind tag aux : Nat) : State := s.traceRec e kind tag aux

/-- The same where `AUX` is a count of cycles: it depends on timing and is free (log entry 3). -/
def State.traceCyc (s : State) (e kind tag : Nat) : State :=
  let (n, s) := s.take
  s.traceRec e kind tag (Config.freeCycles n)

/-- The tag of the command that an engine's gauge shows. -/
def State.gaugeTag (s : State) (e : Nat) : Nat := (tget .reset s.obs.engines e).tag

/-- The next serial number of an engine's commands (R480), and the state that has taken it. -/
def State.serial (s : State) (e : Nat) : Nat × State :=
  let g := tget .reset s.obs.engines e
  (g.serial, { s with obs.engines := tset .reset s.obs.engines e { g with serial := g.serial + 1 } })

/-- A marker record (R481): 0 ripcord, 1 halt, 2 resume, 3 capture stopped, 4 capture resumed, 5 copy begun. -/
def State.marker (s : State) (m : Nat) : State := s.traceRec 232 4 0 (m * 2 ^ 30)

/-! ### Commands -/

/-- A command's final completion with its results and output data (R409, R410): output beyond the buffer's total is cut
and gives SHORT_BUFFER. -/
def State.answerCmd (s : State) (c : Cmd) (status r0 r1 : Nat) (data : List Byte) : State :=
  let total := fld c.p2 63 32
  let short := decide (data ≠ []) && (c.src == .host) && decide (total < data.length)
  let s := { s with host.long := s.host.long.erase c, host.accepted := s.host.accepted.erase c }
  s.postCpl
    { dst := c.src, tag := c.tag, status := if short then 0x0D else status, kind := 0,
      r0 := if short then data.length else r0, r1 := r1, irq := c.irq, head := s.host.sq.head,
      data := if short then data.take total else data }

/-- The source of a command in a trace record (R480): the host as `0xFFF`. -/
def Src.code : Src → Nat
  | .host => 0xFFF
  | .peer a => a % 4096

/-- A command begins on control processor 0 (R480; log entry 28). -/
def State.traceCmd (s : State) (c : Cmd) : State := s.traceBegin 232 c.tag (c.opcode * 2 ^ 26 + Src.code c.src * 2 ^ 14)

/-- An executed command ends: its trace record and its final completion (R409, R480). -/
def State.finish (s : State) (c : Cmd) (status r0 r1 : Nat) (data : List Byte) : State :=
  (s.traceEnd 232 1 c.tag (status * 2 ^ 26)).answerCmd c status r0 r1 data

end Sys2Proof.Machine
end

