-- ==== Sys2Proof/Machine/Subs.lean ====
section
/-!
DEFINITION. The sub-blocks of the model-placement section: their items, the model list and the dormant placements, and the
entries of the re-map plan (R322, R388 to R390).
-/

namespace Sys2Proof.Machine

/-! ### Bytes of a section -/

/-- Values of `n` bytes each from offset `o` on. -/
def items (b : List Byte) (o n k : Nat) : List Nat := (List.range k).map fun i => leAt b (o + n * i) n

/-- The sub-blocks of a body, from an offset on, with the offset of each word; none where the framing fails. By fuel. -/
def subBlocks (b : List Byte) : Nat → Nat → Option (List (Nat × Nat × List Byte))
  | 0, o => if o = b.length then some [] else none
  | f + 1, o =>
    if o = b.length then some []
    else if b.length < o + 8 ∨ b.length < o + 8 + leAt b o 4 then none
    else (subBlocks b f (o + 8 + leAt b o 4)).map fun l => (leAt b (o + 7) 1, o, (b.drop (o + 8)).take (leAt b o 4)) :: l

/-! ### The items of a placement (R389) -/

/-- The placement's sub-blocks: type and body. -/
abbrev Subs := List (Nat × List Byte)

def Subs.of (l : Subs) (t : Nat) : List (List Byte) := (l.filter fun p => p.1 == t).map (·.2)

/-- A core program: its cores, `ENTRY`, `DISPATCH`, the models of its generation table, and its instructions. -/
structure CoreProg where
  cores : List Nat
  entry : Nat
  dispatch : Nat
  models : List Nat
  code : List Nat
deriving DecidableEq, Repr

def Subs.progs (l : Subs) : List CoreProg :=
  (l.of 1).map fun b =>
    let w := leAt b 8 8
    ⟨bitsSet 64 (leAt b 0 8), bf w 63 50, bf w 49 36, items b 16 4 16, items b 80 4 (bf w 35 20)⟩

def Subs.sched (l : Subs) : List (Nat × DWord) :=
  (l.of 2).flatMap fun b => (List.range (b.length / 16)).map fun i => (leAt b (16 * i) 1, BitVec.ofNat 64 (leAt b (16 * i + 8) 8))

def Subs.syncs (l : Subs) : List (Nat × List DWord) :=
  (l.of 3).flatMap fun b => (List.range (bf (leAt b 0 8) 27 16)).map fun i =>
    (leAt b 0 8 % 4096 + i, (items b (8 + 24 * i) 8 3).map (BitVec.ofNat 64))

/-- Layer descriptors: array, index and the eight words. -/
def Subs.descs (l : Subs) : List (Nat × Nat × List DWord) :=
  (l.of 4).flatMap fun b => (List.range ((b.length - 8) / 72)).map fun i =>
    (leAt b 0 1 % 64, leAt b (8 + 72 * i) 8 % 1024, (items b (16 + 72 * i) 8 8).map (BitVec.ofNat 64))

def Subs.reels (l : Subs) : List (Nat × Nat × List (BitVec 256)) :=
  (l.of 5).map fun b =>
    let w := leAt b 0 8
    (w % 16, bf w 11 8, (items b 8 32 (bf w 26 16)).map (BitVec.ofNat 256))

def Subs.regions (l : Subs) : List DWord := (l.of 6).flatMap dwords

/-- The cores that `SPILL_CORES` reserves. -/
def Subs.spillCores (l : Subs) : Nat := ((l.of 7).map fun b => leAt b 0 8).foldl (· ||| ·) 0

/-- Stand-ins with reserved cores: array, descriptor, core mask (R389). -/
def Subs.standins (l : Subs) : List (Nat × Nat × Nat) :=
  (l.of 7).flatMap fun b => (List.range ((b.length - 8) / 16)).map fun i =>
    (bf (leAt b (8 + 16 * i) 8) 63 58, bf (leAt b (8 + 16 * i) 8) 57 48, leAt b (16 + 16 * i) 8)

/-- `QCTL` overrides: model, layer and value. -/
def Subs.qctl (l : Subs) : List (Nat × Nat × DWord) :=
  (l.of 10).flatMap fun b => (List.range (b.length / 16)).map fun i =>
    (bf (leAt b (16 * i) 8) 63 32, leAt b (16 * i) 8 % 4096, BitVec.ofNat 64 (leAt b (16 * i + 8) 8))

/-- The dormant placement for a failed engine. -/
def Subs.dormant (l : Subs) (f : Nat) : Subs :=
  (l.of 11).flatMap fun b =>
    if leAt b 0 8 % 4096 = f then ((subBlocks b b.length 8).getD []).map fun p => (p.1, p.2.2) else []

def State.placement (s : State) : Subs := s.cfg.subs

/-- Fields of a re-map entry (R322). -/
def rmValid (e : BitVec 128) : Bool := flag e 127
def rmFailed (e : BitVec 128) : Nat := fld e 126 115
def rmStandby (e : BitVec 128) : Nat := fld e 114 103
def rmKind (e : BitVec 128) : Nat := fld e 102 100
def rmLo (e : BitVec 128) : Nat := fld e 99 92
def rmHi (e : BitVec 128) : Nat := fld e 91 84
def rmModel (e : BitVec 128) : Nat := fld e 63 32

/-- The sub-blocks in force: the placement's own, and those of the dormant placements that a re-map has activated (R323). -/
def State.inForce (s : State) : Subs :=
  s.placement.filter (fun p => p.1 != 11)
    ++ (s.fab.remapped.filter fun f => s.fab.applied.any fun e => rmFailed e == f && rmStandby e == s.dev).flatMap s.placement.dormant

/-- Bodies of the placement's sub-blocks of one type (R389). -/
def State.subsOf (s : State) (t : Nat) : List (List Byte) := (s.cfg.subs.filter fun p => p.1 == t).map (·.2)

/-- Entries of the model list (R389, STYPE 9). -/
def State.modelList (s : State) : List (List DWord) := (s.subsOf 9).flatMap fun b => chunks 3 (dwords b)

/-- The lists of the placement and of its dormant placements. -/
def State.allLists (s : State) : List (List DWord) :=
  let own := s.modelList
  own ++ ((s.subsOf 11).flatMap fun b => (((subBlocks b b.length 8).getD []).filter fun p => p.1 == 9).flatMap fun p =>
    chunks 3 (dwords p.2.2))

def mlModel (e : List DWord) : Nat := fld (nth 0 e 0) 63 32
def mlAlt (e : List DWord) : Nat := fld (nth 0 e 0) 31 16
def mlPeers (e : List DWord) : List Nat :=
  (List.range (min 8 (fld (nth 0 e 0) 3 0))).map fun i => bf (nth 0 e (1 + i / 4)).toNat (16 * (i % 4) + 11) (16 * (i % 4))

/-- The model list's entry of a model. -/
def State.listed (s : State) (m : Nat) : List DWord := (s.allLists.find? fun e => mlModel e == m).getD []

/-- An engine with parts of the model has failed, and its re-map is pending. -/
def State.modelLost (s : State) (m : Nat) : Bool :=
  (mlPeers (s.listed m)).any fun p => s.fab.failed.contains p && !s.fab.remapped.contains p

/-- A part of this engine's own placement lies dormant while a standby serves it (R324). -/
def State.servedElsewhere (s : State) (kind unit : Nat) : Bool :=
  s.cfg.remap.any fun e => rmValid e && rmFailed e == s.dev && s.fab.servedBy.contains (rmStandby e) && rmKind e == kind
    && decide (rmLo e ≤ unit ∧ unit ≤ rmHi e)

/-- The model that the placement's descriptor `d` of array `a` belongs to (log entry 15). -/
def State.imgModel (s : State) (a d : Nat) : Nat := Config.descModel s.cfg.subs a d

end Sys2Proof.Machine
end

