-- ==== Sys2Proof/Machine/Channel.lean ====
section
/-!
DEFINITION. The channel stage: slot records, entry conversion and peaks, exit words, crossfades, dither and
requantisation (R56 to R70, R90, R385).
-/

namespace Sys2Proof.Machine

/-! ### Slot records and endpoints (R56) -/

def State.slotRec (s : State) (i : Nat) : BitVec 512 := tget 0 s.cfg.slots i
def slEn (w : BitVec 512) : Bool := flag w 31
def slPrio (w : BitVec 512) : Nat := fld w 30 29
def slMiss (w : BitVec 512) : Nat := fld w 28 27
def slDrySel (w : BitVec 512) : Nat := fld w 26 25
def slDither (w : BitVec 512) : Bool := flag w 24
def slChainLen (w : BitVec 512) : Nat := fld w 11 8
/-- Endpoint descriptor `j`: 0 and 1 the sources, 2 to 5 the destinations. -/
def slEp (w : BitVec 512) (j : Nat) : Nat := fld w (32 * j + 63) (32 * j + 32)
def slChain (w : BitVec 512) (c : Nat) : Nat := fld w (32 * c + 255) (32 * c + 224)
/-- The model IDs of the chain. -/
def slModels (w : BitVec 512) : List Nat := (List.range (min (slChainLen w) 8)).map (slChain w)
def slSeed (w : BitVec 512) : Nat := fld w 511 480

def epKind (e : Nat) : Nat := bf e 31 28
def epFmt (e : Nat) : Nat := bf e 27 25
def epStream (e : Nat) : Nat := bf e 23 12
def epCh (e : Nat) : Nat := bf e 11 0

/-- The stream number of the counter families: media streams, tether streams, serial audio ports (R472). -/
def streamKey (kind stream : Nat) : Nat := match kind with | 3 => 2048 + stream | 4 => 1024 + stream | _ => stream

/-- The numbers of the active slots. -/
def State.activeSlots (s : State) : List Nat :=
  if s.run.placeOk then (s.cfg.slots.filter fun p => slEn p.2).map (·.1) else []

def State.strIn (s : State) (t : Nat) : StreamIn := tget .reset s.chan.ins t
def State.setIn (s : State) (t : Nat) (x : StreamIn) : State := { s with chan.ins := tset .reset s.chan.ins t x }
def State.strOut (s : State) (t : Nat) : StreamOut := tget .reset s.chan.outs t
def State.setStrOut (s : State) (t : Nat) (x : StreamOut) : State :=
  { s with chan.outs := tset .reset s.chan.outs t x }

/-! ### Streams (R340, R384, R385) -/

/-- Fields of a media stream record. -/
def msEn (w : BitVec 256) : Bool := flag w 63
def msTx (w : BitVec 256) : Bool := flag w 62
def msPort (w : BitVec 256) : Nat := fld w 61 60
def msL24 (w : BitVec 256) : Bool := flag w 57
def msPtime (w : BitVec 256) : Nat := fld w 56 55
def msNch (w : BitVec 256) : Nat := fld w 54 49 + 1
def msPt (w : BitVec 256) : Nat := fld w 48 42
def msIngress (w : BitVec 256) : Nat := fld w 26 16
def msDstIp (w : BitVec 256) : Nat := fld w 127 96
def msSrcIp (w : BitVec 256) : Nat := fld w 95 64
def msUdpDst (w : BitVec 256) : Nat := fld w 191 176
def msSsrc (w : BitVec 256) : Nat := fld w 159 128
def msDstIpB (w : BitVec 256) : Nat := fld w 255 224
def msRtp (w : BitVec 256) : Nat := fld w 223 192
def msSsm (w : BitVec 256) : Bool := flag w 41
def msUdpSrc (w : BitVec 256) : Nat := fld w 175 160
/-- A stream record at its Reset values (R340). -/
def msReset : BitVec 256 := BitVec.ofNat 256 (2 ^ 57 + 3 * 2 ^ 55 + 96 * 2 ^ 42)
/-- The record of a stream: one that the section does not supply reads as its Reset values (R340). -/
def State.stream (s : State) (t : Nat) : BitVec 256 := tget msReset s.cfg.streams t
/-- The stream is in use on a port. -/
def msOn (w : BitVec 256) (port : Nat) : Bool := msEn w && (msPort w == port || msPort w == 2)
/-- Bytes of one sample. -/
def msSize (w : BitVec 256) : Nat := if msL24 w then 3 else 2

/-- Samples of a packet of a stream with this PTIME (R340). -/
def packetOf (ptime rate : Nat) : Nat := nth 6 [48, 16, 12, 6] ptime * rateMul rate

/-- Fields of a tether stream record. -/
def tsEn (w : BitVec 128) : Bool := flag w 127
def tsTx (w : BitVec 128) : Bool := flag w 126
def tsFmt (w : BitVec 128) : Nat := fld w 125 123
def tsNch (w : BitVec 128) : Nat := fld w 122 117 + 1
def tsPeer (w : BitVec 128) : Nat := fld w 107 96
def tsPstream (w : BitVec 128) : Nat := fld w 95 86

/-- Bytes of a sample in an endpoint format (R385). -/
def fmtSize (f : Nat) : Nat := match f with | 0 => 2 | 1 => 3 | _ => 4

/-- Fields of `SACTL` (R346). -/
def State.sactl (s : State) (k : Nat) : Word := nth 0 s.cfg.sactl k
def saOn (w : Word) : Bool := flag w 31
def saMadi (w : Word) : Bool := flag w 31 && fld w 30 29 == 0
def saWclk (w : Word) : Bool := flag w 31 && fld w 30 29 == 1
def saTx (w : Word) : Bool := flag w 27
/-- Channels of a port's MADI frame (R346). -/
def saChans (w : Word) (rate : Nat) : Nat := (if flag w 28 then 64 else 56) / rateMul rate

/-- The enabled receive streams, by stream number: media, tether, and MADI ports. -/
def State.rxStreams (s : State) : List Nat :=
  ((s.cfg.streams.filter fun p => msEn p.2 && !msTx p.2).map (·.1))
    ++ ((s.cfg.tstreams.filter fun p => tsEn p.2 && !tsTx p.2).map fun p => 1024 + p.1)
    ++ (((List.range 4).filter fun k => saMadi (s.sactl k)).map fun k => 2048 + k)

/-! ### Entry (R36, R61, R62) -/

/-- A source sample as A32, and whether it saturated, and whether it was a NaN (R61). -/
def toA32 (fmt raw : Nat) : Int × Bool × Bool :=
  match fmt with
  | 0 => (sx 16 raw * 256, false, false)
  | 1 => (sx 24 raw, false, false)
  | 2 => (roundShift (sx 32 raw) 8 0, false, false)
  | 3 =>
    let v := fpRead fp32 false (raw % 2 ^ 32)
    let x := v.val.toInt (-23) 0
    if v.nan then (0, false, true) else (sat x 32, v.inf || satHit x 32, false)
  | _ => (a24Get raw, false, false)

/-- The converted samples of a source over the quantum that starts at index `lo`; a missing sample enters as 0. -/
def State.sourceA32 (s : State) (e lo : Nat) : List (Int × Bool × Bool) :=
  let t := (s.strIn (streamKey (epKind e) (epStream e))).samples
  (List.range s.q).map fun k =>
    match tfind t (lo + k) with
    | some chs => toA32 (epFmt e) (nth 0 chs (epCh e))
    | none => (0, false, false)

/-- The input channels of `CHAIN0`'s first model for the quantum in process: the sources' A32 samples, source 0 first (R60). How
the channel stage lays them into messages to cores and flanks the spec does not say (log entry 65). -/
def State.slotInput (s : State) (i : Nat) : List (List Int) :=
  let x := s.slot i
  if epKind (slEp (s.slotRec i) 1) = 0 then [x.a0] else [x.a0, x.a1]

/-- The exact peak of converted samples, as a U32 (R62). -/
def peakOf (l : List Int) : Nat := maxN (l.map Int.natAbs)

/-- The entry of one active slot: both sources converted, their peaks recorded, saturations and NaNs counted. -/
def State.slotEntry (s : State) (lo i : Nat) : State :=
  let w := s.slotRec i
  let src (j : Nat) := if epKind (slEp w j) = 0 then [] else s.sourceA32 (slEp w j) lo
  let x0 := src 0
  let x1 := src 1
  let a0 := x0.map (·.1)
  let a1 := x1.map (·.1)
  let n (f : Int × Bool × Bool → Bool) (l : List (Int × Bool × Bool)) := (l.filter f).length
  let x : SlotSt := { s.slot i with a0 := a0, a1 := a1, peak0 := peakOf a0, peak1 := peakOf a1,
                                    peaks := (max (peakOf a0) (peakOf a1) :: (s.slot i).peaks).take 8, out := [] }
  (s.setSlot i x).counts
    [(kSlot i 8, n (·.2.1) x0), (kSlot i 9, n (·.2.2) x0), (kSlot i 10, n (·.2.1) x1), (kSlot i 11, n (·.2.2) x1)]

/-- The stream samples of a quantum that have not arrived, counted once for each sample period; a MADI period without a
frame is also a slip (R36, R348). -/
def State.inputLate (s : State) (lo : Nat) : List Nat → State
  | [] => s
  | t :: r =>
    let miss := ((List.range s.q).filter fun k => (tfind (s.strIn t).samples (lo + k)).isNone).length
    let s := s.count (kStream t 0) miss
    State.inputLate (if 2048 ≤ t then s.count (kSa (t - 2048) 0) miss else s) lo r

/-- Samples of collected quanta leave the channel stage. -/
def State.dropIns (s : State) (hi : Nat) : State :=
  { s with chan.ins := s.chan.ins.map fun p => (p.1, { p.2 with samples := p.2.samples.filter fun x => hi ≤ x.1 }) }

/-- Entry at the boundary that ends the quantum starting at `lo` (R61): `late` says whether missing samples count. -/
def State.channelEntry (s : State) (lo : Nat) (late : Bool) : State :=
  let s := if late then s.inputLate lo s.rxStreams else s
  (s.activeSlots.foldl (fun s i => s.slotEntry lo i) s).dropIns (lo + s.q)

/-! ### Exit words (R63, R64, R68, R69, R90) -/

/-- The dry path of a slot as exit words (R63, R64). -/
def dryWords (sel : Nat) (a0 a1 : List Int) : List Int :=
  match sel with
  | 0 => a0.map (· * 256)
  | 1 => a1.map (· * 256)
  | _ => (a0.zip a1).map fun p => rndDiv 0 (p.1 + p.2) 2 * 256

/-- The first halves of the crossfade ROM (R68), for each QUANTUM code; the second halves follow from
w(k) + w(Q − 1 − k) = 2^15. -/
def fadeHalf (code : Nat) : List Nat :=
  match code with
  | 0 => [315, 2761, 7282, 13188]
  | 1 => [79, 705, 1935, 3719, 5990, 8661, 11628, 14778]
  | 2 => [20, 177, 491, 958, 1573, 2331, 3224, 4244, 5381, 6624, 7961, 9379, 10864, 12403, 13980, 15580]
  | 3 => [5, 44, 123, 241, 398, 593, 827, 1098, 1406, 1749, 2128, 2542, 2989, 3468, 3978, 4518, 5087, 5682, 6304, 6950,
      7619, 8308, 9018, 9745, 10487, 11245, 12014, 12794, 13583, 14378, 15179, 15982]
  | _ => [1, 11, 31, 60, 100, 149, 208, 277, 355, 443, 541, 648, 765, 891, 1027, 1171, 1325, 1488, 1660, 1841, 2030, 2229,
      2435, 2651, 2874, 3105, 3345, 3592, 3847, 4110, 4380, 4657, 4942, 5233, 5531, 5835, 6146, 6463, 6786, 7115, 7449,
      7789, 8134, 8484, 8839, 9198, 9561, 9929, 10300, 10676, 11054, 11436, 11821, 12208, 12598, 12991, 13385, 13781,
      14179, 14578, 14978, 15379, 15781, 16183]

/-- The crossfade weight w(k) for a QUANTUM code (R68). -/
def fadeW (code k : Nat) : Nat :=
  let h := qOf code / 2
  if k < h then nth 0 (fadeHalf code) k else 2 ^ 15 - nth 0 (fadeHalf code) (2 * h - 1 - k)

/-- One crossfaded sample (R68). -/
def fadeMix (w : Nat) (a b : Int) : Int := sat (rndDiv 0 (a * ((2 ^ 15 - w : Nat) : Int) + b * (w : Int)) (2 ^ 15)) 48

/-- The crossfade over one quantum from `a` to `b` (R68); samples beyond the end of a list are 0. -/
def xfade (code : Nat) (a b : List Int) : List Int :=
  (List.range (qOf code)).map fun k => fadeMix (fadeW code k) (nth 0 a k) (nth 0 b k)

/-- A value held over one quantum. -/
def held (code : Nat) (v : Int) : List Int := (List.range (qOf code)).map fun _ => v

/-- The last exit word delivered, 0 before the first. -/
def lastWord (l : List Int) : Int := (l.getLast?).getD 0

/-- The exit words of a slot with a chain by its transition (R69); `act` is the miss action. -/
def exitWords (code act : Nat) (was now : Bool) (last dry wet : List Int) : List Int :=
  let idle := if act = 0 then dry else held code 0
  if was then
    if now then wet
    else if act = 0 then xfade code (held code (lastWord last)) dry
    else if act = 1 then xfade code last (held code 0)
    else xfade code (held code (lastWord last)) (held code 0)
  else if now then xfade code idle wet
  else idle

/-- The exit words that a RESULT message's values form, and whether each clamped to S48 (R90); under BC-A a subnormal operand
reads as zero (R95, R97, R497). A NaN reads as +0 and an infinity as the largest finite value, counted nowhere, and an exit word
is the low 48 bits of its container, sign-extended (log entry 64). Formats without a route carry no exit words. -/
def exitForm (bcA : Bool) (fmt scale : Nat) (bs : List Byte) : List (Int × Bool) :=
  let fp (f : FpFmt) (w : Nat) :=
    let x := (fpRead f bcA w).val.toInt (-31) 0
    (sat x 48, satHit x 48)
  match fmt with
  | 3 => (chunks 2 bs).map fun c =>
      let x := scaleApply (sx 16 (leNat c)) 0 [scale] (-31) 0
      (sat x 48, satHit x 48)
  | 5 => (chunks 4 bs).map fun c => (a24Get (leNat c) * 256, false)
  | 6 => (chunks 4 bs).map fun c => (sx 32 (leNat c) * 256, false)
  | 7 => (chunks 8 bs).map fun c => (sx 48 (leNat c), false)
  | 8 => (chunks 2 bs).map fun c => fp bf16 (leNat c)
  | 9 => (chunks 2 bs).map fun c => fp fp16 (leNat c)
  | 10 => (chunks 4 bs).map fun c => fp fp32 (leNat c)
  | _ => []

/-! ### Dither and requantisation (R65, R66) -/

/-- One step of the dither generator (R66). -/
def lfsrStep (x : Nat) : Nat := if x % 2 = 1 then (x / 2) ^^^ 0x80200003 else x / 2

def lfsrSteps : Nat → Nat → Nat
  | 0, x => x
  | n + 1, x => lfsrSteps n (lfsrStep x)

/-- The generator's value at the start of exit for quantum `n` (R66). -/
def lfsrLoad (seed n : Nat) : Nat :=
  let x := seed ^^^ ((n % 2 ^ 32) * 0x9E3779B9 % 2 ^ 32)
  if x = 0 then seed else x

/-- The values the generator holds at the output samples, `n` of them. -/
def lfsrRun : Nat → Nat → List Nat
  | 0, _ => []
  | n + 1, x => let y := lfsrSteps 32 x; y :: lfsrRun n y

/-- `requantise` of R65: the code in the endpoint format, and whether it clamped; `u` is the generator's value. -/
def requantise (x : Int) (fmt u : Nat) (dither : Bool) : Nat × Bool :=
  match fmt with
  | 3 => ((fpOfDy fp32 false 0 false ⟨x, -31⟩).1, false)
  | 2 => (ux 32 (sat x 32), satHit x 32)
  | _ =>
    let shift := if fmt = 0 then 16 else 8
    let d : Int := if dither then (bf u 31 16 : Int) - (bf u 15 0 : Int) else 0
    let y := rndDiv 0 (x * ((2 ^ (16 - shift) : Nat) : Int) + d) (2 ^ 16)
    (ux (if fmt = 4 then 32 else 32 - shift) (sat y (32 - shift)), satHit y (32 - shift))

/-! ### Delivery (R31, R344, R385) -/

/-- A presented value: channel `ch` of stream `t` at index `p`. -/
def presentAt (x : StreamOut) (p ch v : Nat) : StreamOut :=
  { x with samples := tput x.samples p (some (tput (tget [] x.samples p) ch (some v))) }

def presentAll (x : StreamOut) (ch : Nat) : Nat → List Nat → StreamOut
  | _, [] => x
  | p, v :: r => presentAll (presentAt x p ch v) ch (p + 1) r

/-- Samples per packet of a media stream. -/
def State.spp (s : State) (t : Nat) : Nat := packetOf (msPtime (s.stream t)) s.time.rate

/-- A slot's samples for one destination, presented from index `base` on. -/
def State.present (s : State) (base e : Nat) (codes : List Nat) : State :=
  let t := streamKey (epKind e) (epStream e)
  let x := presentAll (s.strOut t) (epCh e) base codes
  let next := match x.next with
    | some p => some p
    | none => if t < 1024 then some (base / s.spp t * s.spp t) else none
  s.setStrOut t { x with next := next }

/-- The destinations of a slot requantised and presented (R65): the first destination's number, and their count. -/
def State.deliver (s : State) (i base : Nat) (words : List Int) (us : List Nat) : Nat → Nat → State
  | _, 0 => s
  | j, n + 1 =>
    let w := s.slotRec i
    let e := slEp w (j + 2)
    if epKind e = 0 then s.deliver i base words us (j + 1) n
    else
      let rs := (words.zip us).map fun p => requantise p.1 (epFmt e) p.2 (slDither w)
      ((s.count (kSlot i (12 + j)) ((rs.filter (·.2)).length)).present base e (rs.map (·.1))).deliver i base words us
        (j + 1) n

/-- Whether the wet output of a slot is complete: an exit word for every sample of the quantum (R60, R67). -/
def State.wetDone (s : State) (i : Nat) : Bool := (List.range s.q).all fun k => (tfind (s.slot i).out k).isSome

/-- The exit of slot `i` for quantum `n` (R21, R60, R65 to R69): `why` is the cause of R67 where it misses, 1 to 7.
Around a re-phase step the output fades to zero and back (R48). -/
def State.slotExit (s : State) (n i why : Nat) : State :=
  let w := s.slotRec i
  let x := s.slot i
  let code := s.time.quantum
  let dry := dryWords (slDrySel w) x.a0 x.a1
  let shut := s.run.st == .shutdown
  let fade := if n = s.run.fadeQ then xfade code (held code (lastWord x.last)) (held code 0) else held code 0
  let now := s.wetDone i && s.inRun && !(slModels w).any s.modelLost
  let words :=
    if shut then fade
    else if slChainLen w = 0 then dry
    else exitWords code (slMiss w) x.wet now x.last dry ((List.range s.q).map fun k => tget 0 x.out k)
  let words := match s.time.rephased with
    | some 2 => xfade code words (held code 0)
    | some _ => xfade code (held code 0) words
    | none => words
  let s := if slChainLen w = 0 ∨ now then s else s.count (kSlot i (why - 1)) 1
  let s := if slChainLen w ≠ 0 ∧ x.wet ∧ ¬ now then s.count (kSlot i 7) 1 else s
  let us := lfsrRun s.q (lfsrLoad (slSeed w) n)
  let s := s.setSlot i { x with wet := now && slChainLen w != 0, last := words, lfsr := (us.getLast?).getD 0 }
  s.deliver i (n * s.q + 2 * s.q + 24) words us 0 4

/-- The messages of a transmit tether stream for a quantum: pieces of whole sample periods (R385). -/
def State.tetherPieces (s : State) (n t : Nat) : Nat → Nat → State
  | 0, _ => s
  | f + 1, k =>
    let w := tget 0 s.cfg.tstreams t
    let size := fmtSize (tsFmt w)
    let nk := min (8184 / (tsNch w * size)) (s.q - k)
    if s.q ≤ k ∨ nk = 0 then s
    else
      let base := n * s.q + 2 * s.q + 24
      let x := s.strOut (1024 + t)
      let body := (List.range nk).flatMap fun i => (List.range (tsNch w)).flatMap fun c =>
        leBytes size (tget 0 (tget [] x.samples (base + k + i)) c)
      let hd := leBytes 8 (tsPstream w + k * 2 ^ 16 + nk * 2 ^ 32)
      (s.send (mkMsg (remoteAddr (tsPeer w) 3 0 0) (localAddr 3 0 0) 0 0 false 0 n 0 (hd ++ body))).tetherPieces n t f
        (k + nk)

/-- The transmit tether streams of a quantum handed off (R385). -/
def State.tetherSend (s : State) (n : Nat) : State :=
  if s.chan.stopped then s
  else
    let ts := (s.cfg.tstreams.filter fun p => tsEn p.2 && tsTx p.2).map (·.1)
    ts.foldl (fun s t =>
      let s := s.tetherPieces n t (s.q + 1) 0
      let x := s.strOut (1024 + t)
      s.setStrOut (1024 + t) { x with samples := x.samples.filter fun p => n * s.q + 3 * s.q + 24 ≤ p.1 }) s

end Sys2Proof.Machine
end

