-- ==== Sys2Proof/Machine/Grid.lean ====
section
/-!
DEFINITION. The loft as memory, the sync objects, the task queues, and messages as a core receives them
(R182 to R212, R244 to R247): the shared operations and the meanings of the grid's commands.
-/

namespace Sys2Proof.Machine

/-! ### The loft (R244 to R247) -/

def Reel.entry (r : Reel) (i : Nat) : BitVec 256 := tget 0 r.list (1024 * r.bank + i % 1024)

/-- Fields of a reel entry: words 0 to 3 from the low end (R248). -/
def reEn (e : BitVec 256) : Bool := flag e 63
def reLast (e : BitVec 256) : Bool := flag e 62
def rePin (e : BitVec 256) : Bool := flag e 61
def reCond (e : BitVec 256) : Bool := flag e 60
def reSrc (e : BitVec 256) : Nat := fld e 59 58
def reCtr (e : BitVec 256) : Nat := fld e 57 54
def reN (e : BitVec 256) : Nat := fld e 53 48
def reSync (e : BitVec 256) : Nat := fld e 47 36
def reFillN (e : BitVec 256) : Nat := fld e 35 28
def reArr (e : BitVec 256) : Nat := fld e 27 22
def reDesc (e : BitVec 256) : Nat := fld e 21 12
def reSector (e : BitVec 256) : Nat := fld e (64 + 63) (64 + 40)
def reNsec (e : BitVec 256) : Nat := fld e (64 + 39) (64 + 24)
def rePeer (e : BitVec 256) : Nat := fld e (64 + 23) (64 + 12)
def reLoft (e : BitVec 256) : Nat := fld e (128 + 63) (128 + 38)
def reUlen (e : BitVec 256) : Nat := fld e (128 + 37) (128 + 14)
def reModel (e : BitVec 256) : Nat := fld e (192 + 63) (192 + 32)
def reLayer (e : BitVec 256) : Nat := fld e (192 + 31) (192 + 20)
def rePart (e : BitVec 256) : Nat := fld e (192 + 19) (192 + 16)

/-- The pinned entries of the list in force, by position (R253). -/
def Reel.pins (r : Reel) : List Nat :=
  ((r.list.filter fun p => p.1 / 1024 == r.bank && reEn p.2 && rePin p.2).map fun p => p.1 % 1024)

/-- The loft ranges that cores and flanks may not write: entries outstanding or pinned (R247, R253). -/
def State.protectedRanges (s : State) : List (Nat × Nat) :=
  s.loft.reels.flatMap fun p =>
    ((p.2.out.map (·.entry)) ++ p.2.pins).map fun i => (reLoft (p.2.entry i), reUlen (p.2.entry i))

/-- Fields of a loft region (R389). -/
def rgSlice (w : DWord) : Nat := fld w 63 60
def rgKind (w : DWord) : Nat := fld w 59 57
def rgOfs (w : DWord) : Nat := fld w 53 32
def rgLen (w : DWord) : Nat := fld w 21 0

/-- A loft address lies in a region. -/
def inRegion (a : Nat) (w : DWord) : Bool :=
  a / 2 ^ 22 == rgSlice w && decide (rgOfs w ≤ a % 2 ^ 22 ∧ a % 2 ^ 22 < rgOfs w + rgLen w)

/-- The byte that a record of the trace ring holds at a loft address, where the trace-ring regions, in ascending address, place one
there and no later write lies over it (R242, R246, R481, R483). -/
def State.traceByte (s : State) (a : Nat) : Option Byte :=
  let l := sortBy (fun w => rgSlice w * 2 ^ 22 + rgOfs w) (s.loft.regions.filter fun w => rgKind w == 5)
  match l.find? (inRegion a) with
  | none => none
  | some w =>
    let o := sumN ((l.takeWhile (· != w)).map rgLen) + (a % 2 ^ 22 - rgOfs w)
    let n := s.obs.ringN
    let cap := (fld s.cfg.trace 61 59 + 1) * 65536
    let back := (n + cap - 1 - o / 16 % cap) % cap + 1
    if back ≤ s.obs.ring.length && (tfind s.loft.wrote a).all (fun t => decide (t ≤ n - back)) then
      (s.obs.ring[s.obs.ring.length - back]?).bind fun r => (leBytes 8 r.ts ++ leBytes 8 r.word)[o % 16]?
    else none

/-- A byte of the loft as its readers find it, with the number of a free value: records of the trace ring, and probe rows, whose
layout in their ring the spec does not give, lie among what has been written; what a core or a flank has written since reads back
(R172, R242, R246; log entry 69). -/
def State.loftByte (s : State) (f a : Nat) : Byte :=
  if (s.loft.regions.any fun w => rgKind w == 4 && inRegion a w) && (tfind s.loft.wrote a).isNone then
    BitVec.ofNat 8 (Config.freeCount f a)
  else (s.traceByte a).getD (rdByte s.loft.mem a)

/-- Whether trace or probe rings lie in the loft. -/
def State.loftRings (s : State) : Bool := s.loft.regions.any fun w => rgKind w == 4 || rgKind w == 5

def inRanges (l : List (Nat × Nat)) (a : Nat) : Bool := l.any fun r => decide (r.1 ≤ a ∧ a < r.1 + r.2)

/-- Whether a loft address lies in its slice's range for the control complex (R247). -/
def loftCtl (a : Nat) : Bool := decide (0x3F0000 ≤ a % 2 ^ 22)

/-- The loft slice of an address (R244). -/
def loftSlice (a : Nat) : Nat := a / 2 ^ 22 % 16

/-- One read that crosses no 4 KiB boundary (R245, R247). -/
def State.loftRead (s : State) (a n : Nat) : List Byte × State :=
  if loftCtl a then ((List.range n).map fun _ => 0, s.count (kSlice (loftSlice a) 2) 1)
  else if s.loftRings then
    let (f, s) := s.take
    ((List.range n).map fun i => s.loftByte f (a + i), s)
  else (rdBytes s.loft.mem a n, s)

/-- The bytes written where no range forbids it. -/
def wrFree (l : List (Nat × Nat)) : Tab Byte → Nat → List Byte → Tab Byte
  | m, _, [] => m
  | m, a, b :: r => wrFree l (if inRanges l a then m else wrByte m a b) (a + 1) r

/-- A range of a write is one that no core or flank may write (R247). -/
def State.refusesWrite (s : State) (a n : Nat) : Bool :=
  loftCtl a || (List.range n).any fun i => inRanges s.protectedRanges (a + i)

/-- The bytes of a write that lie in a trace or probe ring, with the number of trace records written before it (R246). -/
def State.overRings (s : State) (pr : List (Nat × Nat)) (a n : Nat) : Tab Nat :=
  if s.loftRings then
    ((List.range n).filter fun i => !inRanges pr (a + i)
      && s.loft.regions.any fun w => (rgKind w == 4 || rgKind w == 5) && inRegion (a + i) w).foldl
        (fun t i => tput t (a + i) (some s.obs.ringN)) s.loft.wrote
  else s.loft.wrote

/-- One write by a core or a flank that crosses no 4 KiB boundary (R245, R247). -/
def State.loftWrite (s : State) (a : Nat) (bs : List Byte) : State :=
  if loftCtl a then s.count (kSlice (loftSlice a) 2) 1
  else
    let pr := s.protectedRanges
    let s1 : State := { s with loft.mem := wrFree pr s.loft.mem a bs, loft.wrote := s.overRings pr a bs.length }
    if (List.range bs.length).any fun i => inRanges pr (a + i) then s1.count (kSlice (loftSlice a) 2) 1 else s1

/-- The pieces of a transfer: at most 4 KiB, crossing no 4 KiB boundary (R232); by fuel. -/
def piecesF : Nat → Nat → Nat → List (Nat × Nat)
  | 0, _, _ => []
  | _ + 1, _, 0 => []
  | f + 1, a, n =>
    let k := min n (4096 - a % 4096)
    (a % 2 ^ 26, k) :: piecesF f ((a + k) % 2 ^ 26) (n - k)

def pieces (a n : Nat) : List (Nat × Nat) := piecesF (n / 4096 + 2) a n

/-- A loft-to-local transfer, piece by piece, into a core's local memory at `loc` (R232). -/
def State.dmaIn (s : State) (k : Nat) : List (Nat × Nat) → Nat → State
  | [], _ => s
  | (a, n) :: r, loc =>
    let (bs, s) := s.loftRead a n
    let c := s.core k
    State.dmaIn (s.setCore k { c with lmem := wrBytes c.lmem loc bs }) k r (loc + n)

/-- A local-to-loft transfer, piece by piece (R232). -/
def State.dmaOut (s : State) (k : Nat) : List (Nat × Nat) → Nat → State
  | [], _ => s
  | (a, n) :: r, loc => State.dmaOut (s.loftWrite a (rdBytes (s.core k).lmem loc n)) k r (loc + n)

/-- One transfer completes: its bytes move, and its length is counted (R232). -/
def State.dmaDone (s : State) (k : Nat) (t : Dma) : State :=
  let s := if t.rd then s.dmaIn k (pieces t.loft t.len) t.loc else s.dmaOut k (pieces t.loft t.len) t.loc
  let c := s.core k
  ((s.setCore k { c with dma := c.dma.erase t }).count (kCore k (if t.rd then 20 else 21)) t.len).traceCyc (64 + k) 1
    (t.tag * 2 ^ 13 + t.serial % 2 ^ 13)

/-- Every transfer of a core in flight completes, in the order issued (R189). -/
def State.dmaAll (s : State) (k : Nat) : State := (s.core k).dma.foldl (fun s t => s.dmaDone k t) s

/-- The transfers a DWAIT waits for. -/
def Core.dmaOf (c : Core) (tag : Option Nat) : List Dma :=
  match tag with
  | none => c.dma
  | some t => c.dma.filter fun d => d.tag == t

/-! ### Sync objects and task queues (R198 to R210) -/

def State.obj (s : State) (o : Nat) : SyncObj := tget .reset s.grid.objs o
def State.setObj (s : State) (o : Nat) (x : SyncObj) : State := { s with grid.objs := tset .reset s.grid.objs o x }
def SyncObj.kind (o : SyncObj) : Nat := fld o.w0 63 62
def SyncObj.qreset (o : SyncObj) : Bool := flag o.w0 61
def SyncObj.trig (o : SyncObj) : Bool := flag o.w0 60
def SyncObj.tq (o : SyncObj) : Nat := fld o.w0 59 56
def SyncObj.init (o : SyncObj) : Nat := fld o.w0 31 0
def SyncObj.target (o : SyncObj) : Nat := fld o.w1 63 32

/-- The home router of an object (R198). -/
def homeOf (o : Nat) : Nat := o / 64

def State.queue (s : State) (i : Nat) : List DWord := tget [] s.grid.queues i
def State.setQueue (s : State) (i : Nat) (l : List DWord) : State :=
  { s with grid.queues := tset [] s.grid.queues i l }

/-- The engine runs in ready-list mode (R206, R388). -/
def State.readyList (s : State) : Bool := flag s.cfg.plctl 63

/-- A task word with its QTAG set to the quantum being processed (R205, R208). -/
def State.stampTask (s : State) (w : DWord) : DWord :=
  BitVec.ofNat 64 (w.toNat - fld w 40 39 * 2 ^ 39 + (s.qindex % 4) * 2 ^ 39)

/-- A task pushed to its queue (R208): for a full queue it goes into the mesh as a TASK message, from the control complex (R183; that it
takes this way is a DESIGN CHOICE, log entry 79). In fixed-schedule mode none is pushed (R236). -/
def State.pushTask (s : State) (q : Nat) (w : DWord) : State :=
  if !s.readyList then s
  else if (s.queue q).length < 256 then
    (s.setQueue q (s.queue q ++ [s.stampTask w])).count (kSlice q 21) 1
  else
    s.send (mkMsg (localAddr 2 q 0) (localAddr 4 0 0) 6 0 false 0 s.qindex q (leBytes 8 w.toNat))

/-- The pushes of `n` releases of an object with TRIG_EN set (R205). -/
def State.trigger (s : State) (o : SyncObj) : Nat → State
  | 0 => s
  | n + 1 => if o.trig then State.trigger (s.pushTask o.tq o.w2) o n else s

/-- A queued waiter is satisfied: its wake is on its way (R198). -/
def State.wake (s : State) (k : Nat) : State := s.setCore k { s.core k with woken := true }

def State.wakeAll (s : State) (l : List (Nat × Nat)) : State := l.foldl (fun s p => s.wake p.1) s

/-- Waiters of a semaphore served strictly in arrival order while the count allows (R200): the count left, the waiters
served and those that go on waiting. -/
def serve : Nat → List (Nat × Nat) → Nat × List (Nat × Nat) × List (Nat × Nat)
  | c, [] => (c, [], [])
  | c, (k, n) :: r =>
    if n ≤ c then
      let (c', d, w) := serve (c - n) r
      (c', (k, n) :: d, w)
    else (c, [], (k, n) :: r)

/-- SIGNAL n on a semaphore (R200, R205). Waiters are served before a trigger takes `TARGET` (DESIGN CHOICE, log entry 79). -/
def State.semSignal (s : State) (oi n : Nat) (src : SyncSrc) : State :=
  let o := s.obj oi
  let big := o.count + n ≥ 2 ^ 32
  let (c, done, wait) := serve (if big then 2 ^ 32 - 1 else o.count + n) o.queue
  let rel := if o.trig ∧ 0 < o.target then c / o.target else 0
  let o' := { o with count := c - rel * o.target, ovf := o.ovf || big, queue := wait, rel := o.rel + rel }
  let s := (s.setObj oi o').wakeAll done
  let s := if big then
      match src with
      | .core k => (s.count (kRouter (homeOf oi) 2) 1).setCore k { s.core k with flags := (s.core k).flags ||| 1 }
      | _ => s.count (kRouter (homeOf oi) 2) 1
    else s
  s.trigger o rel

/-- SET of an event (R202, R205). -/
def State.evSet (s : State) (oi : Nat) : State :=
  let o := s.obj oi
  if o.count = 1 then s
  else ((s.setObj oi { o with count := 1, queue := [], rel := o.rel + 1 }).wakeAll o.queue).trigger o 1

/-- ARRIVE at a barrier (R201, R205); an arriving core waits for the release, unless its wait has been cancelled (R203). -/
def State.barArrive (s : State) (oi : Nat) (src : SyncSrc) : State :=
  let o := s.obj oi
  let q := match src with
    | .core k => if (s.core k).run = .waitSync oi 1 0 then o.queue ++ [(k, 0)] else o.queue
    | _ => o.queue
  if o.count + 1 ≥ o.target then
    ((s.setObj oi { o with count := 0, queue := [], rel := o.rel + 1 }).wakeAll q).trigger o 1
  else s.setObj oi { o with count := o.count + 1, queue := q }

/-- Misuse that arrives by message: dropped, counted, reported once a quantum (R204). -/
def State.misuse (s : State) (oi : Nat) : State :=
  let h := homeOf oi
  let s := s.count (kRouter h 3) 1
  if s.grid.misused.contains h then s
  else { s with grid.misused := h :: s.grid.misused }.raise evSyncMisuse [(2, oi)]

/-- Whether an operation code of R198 suits an object of this kind. -/
def opSuits (op kind : Nat) : Bool :=
  match op with
  | 0 => kind == 1 || kind == 3
  | 1 => kind == 2
  | 2 => kind == 3
  | 3 => kind == 3
  | 4 => kind == 1
  | 5 => kind == 3
  | 6 => kind != 0
  | _ => false

/-- The operation of R198 is misuse wherever it stands: at an object of this engine that it does not suit, of a reserved code, or
of a core or unit at the control complex's objects (R204). -/
def State.misfits (s : State) (op oi : Nat) : Bool :=
  !opSuits op (s.obj oi).kind || (decide (op ≤ 3) && decide (3840 ≤ oi))

/-- An operation of R198 that no core waits on, performed at the object's home router: 0 SIGNAL n, 1 ARRIVE, 2 SET,
3 CLEAR. -/
def State.syncOp (s : State) (op oi n : Nat) (src : SyncSrc) : State :=
  let oi := oi % 4096
  let k := (s.obj oi).kind
  let foreign := (match src with | .peer => op == 3 | _ => false) ||
    (match src with | .entry => false | _ => decide (3840 ≤ oi))
  if !opSuits op k || foreign || decide (3 < op) then s.misuse oi
  else if op = 0 then (if k = 3 then s.evSet oi else s.semSignal oi n src)
  else if op = 1 then s.barArrive oi src
  else if op = 2 then s.evSet oi
  else s.setObj oi { s.obj oi with count := 0 }

/-- The sync action of a delivered message: always SIGNAL with n = 1 (R197). It counts as a unit's, also where a core sent the message
(DESIGN CHOICE, log entry 79). -/
def State.syncAction (s : State) (m : Msg) : State := if m.syncEn then s.syncOp 0 m.sync 1 .unit else s

/-! ### Messages as a core receives them (R190, R195 to R197, R234) -/

/-- Where a message of `n` padded bytes goes in a ring: the bytes skipped before the end, and whether it fits. -/
def RxRing.place (r : RxRing) (n : Nat) : Nat × Bool :=
  let skip := if r.base + r.size - r.wr < n then r.base + r.size - r.wr else 0
  (skip, decide (r.used + skip + n ≤ r.size))

/-- The address one further along a ring. -/
def RxRing.adv (r : RxRing) (p n : Nat) : Nat := if p + n ≥ r.base + r.size then r.base else p + n

/-- The message is discarded for its QTAG (R196). -/
def State.stale (s : State) (m : Msg) : Bool := (m.type == 1 || m.type == 2 || m.type == 6) && m.qtag != s.qindex % 4

/-- A message written into a core's local memory, if it can be now: none leaves it in the receive buffer (R195); one that has become
stale there is discarded (R196). The spec does not say what the padding up to the next multiple of 64 bytes holds: the model writes
zeros (DESIGN CHOICE, log entry 74). -/
def State.rxWrite (s : State) (k : Nat) (m : Msg) : Option State :=
  let c := s.core k
  let len := m.payload.length
  if s.stale m then some (s.count (kCore k 9) 1)
  else if m.sub = 255 then
    if m.arg + len > 0x200000 then some (s.count (kCore k 8) 1)
    else some ((s.setCore k { c with lmem := wrBytes c.lmem m.arg m.payload }).syncAction m)
  else
    let r := tget .reset c.rings m.sub
    let n := cdiv len 64 * 64
    let (skip, fits) := r.place n
    if r.size = 0 then some (s.count (kCore k 8) 1)
    else if n > r.size then none
    else if !fits then none
    else
      let at_ := if skip ≠ 0 then r.base else r.wr
      let r' := { r with wr := r.adv at_ n, used := r.used + skip + n }
      let c' := { c with rings := tset .reset c.rings m.sub r', lmem := wrBytes c.lmem at_ (fit 0 n m.payload) }
      some ((s.setCore k c').syncAction m)

/-- Held messages written in arrival order, until one does not fit (R190, R195); by the list of those held. -/
def State.rxDrain (s : State) (k : Nat) : List Msg → State
  | [] => s.setCore k { s.core k with rx := [] }
  | m :: r =>
    match s.rxWrite k m with
    | some s' => State.rxDrain s' k r
    | none => s.setCore k { s.core k with rx := m :: r, flags := (s.core k).flags ||| 2 }

/-- The receive buffer's messages go to local memory, as at the start of a LOAD phase (R190). -/
def State.rxFlush (s : State) (k : Nat) : State := s.rxDrain k (s.core k).rx

/-- Bytes held in a receive buffer. -/
def Core.rxBytes (c : Core) : Nat := sumN (c.rx.map fun m => m.payload.length)

/-- A message that reaches a core: discarded as stale, written, kept in the receive buffer, or left in the mesh with the
sender held (R183, R190, R196). -/
def State.toCore (s : State) (k : Nat) (m : Msg) : State :=
  if s.stale m then (s.arrive m).count (kCore k 9) 1
  else
    let c := s.core k
    if c.rxBytes + m.payload.length ≤ 32768 then
      let s := (s.arrive m).setCore k { c with rx := c.rx ++ [m] }
      if c.compute then s else s.rxFlush k
    else
      let (n, s) := s.take
      let s := if s.grid.mesh.contains m then s else s.send m
      (s.setCore k { s.core k with flags := (s.core k).flags ||| 2 }).count (kCore k 5) (Config.freeCycles n)

/-- A TASK message enters its queue, is discarded as stale, or is held while the queue is full (R183, R196, R208). In
fixed-schedule mode it enters none and is dropped (R236; log entry 74). A stale one counts at the core of the queue's router (DESIGN
CHOICE, log entry 79). -/
def State.toQueue (s : State) (m : Msg) : State :=
  let q := m.arg % 16
  if m.qtag ≠ s.qindex % 4 then (s.arrive m).count (kCore (sliceRouter q) 9) 1
  else if !s.readyList then s.arrive m
  else if (s.queue q).length < 256 then
    (((s.arrive m).setQueue q (s.queue q ++ [s.stampTask (BitVec.ofNat 64 (leAt m.payload 0 8))])).count (kSlice q 21)
      1).syncAction m
  else if s.grid.mesh.contains m then s else s.send m

/-- Bytes of row values held in an input FIFO: a row's until its first pass is latched or its misfit is decided, and those of the
pieces of the row that is still incomplete (R127, R471; log entry 67). -/
def Arr.fifoBytes (x : Arr) : Nat :=
  sumN ((x.fifo.filter fun j => j.passes == 0 && !j.rerun).map (·.bytes)) + (x.asm.map (·.bytes)).getD 0

/-- The message's destination has no space for it: a full receive buffer, flank FIFO or task queue (R183). -/
def State.noRoom (s : State) (m : Msg) : Bool :=
  if m.remote || s.stale m then false
  else if m.type = 6 then s.readyList && decide (256 ≤ (s.queue (m.arg % 16)).length)
  else if m.kind = 0 then decide (32768 < (s.core m.unit).rxBytes + m.payload.length)
  else m.kind == 1 && m.type == 1 && decide (131072 < (s.arr m.unit).fifoBytes + (m.payload.length - 16))

/-- The mesh holds a message of the endpoint `src` that its destination cannot accept, and the endpoint is held at its message unit
(R183, R233; log entry 30). -/
def State.holds (s : State) (src : Nat) : Bool := s.grid.mesh.any fun m => m.src.toNat == src && s.noRoom m

/-- The message stands at its sender's message unit behind one of the same virtual channel that its destination cannot accept (R181,
R183). -/
def State.behindHeld (s : State) (m : Msg) : Bool :=
  (s.grid.mesh.takeWhile (· != m)).any fun x => x.src == m.src && x.vc == m.vc && s.noRoom x

/-- The first task of a queue that core `k` may take, and the queue without it; tasks pinned to another core and those of a
class that is shed are passed over (R208, R428). -/
def takeTask (k : Nat) (shed : List Nat) : List DWord → Option (DWord × List DWord)
  | [] => none
  | w :: r =>
    if (flag w 49 && fld w 48 43 != k) || shed.contains (fld w 42 41) then
      (takeTask k shed r).map fun p => (p.1, w :: p.2)
    else some (w, r)

/-- The task that core `k` takes from the first queue of its mask that holds one for it, in ascending queue index. -/
def State.findTask (s : State) (k : Nat) : List Nat → Option (DWord × State)
  | [] => none
  | q :: r =>
    match takeTask k s.sup.shed (s.queue q) with
    | some (w, l) => some (w, s.setQueue q l)
    | none => State.findTask s k r

/-- The task that a core's TAKE takes now: none in fixed-schedule mode (R208, R236). -/
def State.nextTask (s : State) (k : Nat) : Option (DWord × State) :=
  if s.readyList then s.findTask k (bitsSet 16 (s.core k).qmask) else none

/-- A core that takes a task loads s1 with its ARG and goes on at its ENTRY (R208, R236); its accumulators' tags are
clear (R230). -/
def State.startTask (s : State) (k : Nat) (w : DWord) : State :=
  let c := s.core k
  s.setCore k { c with s := tset 0 c.s 1 (BitVec.ofNat 32 (fld w 31 0)), idx := fld w 63 50, run := .running, tag := [],
                       inTask := true, woken := false }

/-! ### Waits (R198 to R203) -/

/-- Waiting cores leave the queues of every object (R203). -/
def dropWaiter (k : Nat) (t : Tab SyncObj) : Tab SyncObj :=
  t.map fun p => (p.1, { p.2 with queue := p.2.queue.filter fun q => q.1 != k })

/-- A core's wait on an object at its home router: WAIT n (R200). -/
def State.semWait (s : State) (oi n k : Nat) : State :=
  let o := s.obj oi
  if n = 0 then s.wake k
  else if o.queue = [] ∧ n ≤ o.count then (s.setObj oi { o with count := o.count - n }).wake k
  else s.setObj oi { o with queue := o.queue ++ [(k, n)] }

/-- WAITSET (R202). -/
def State.evWait (s : State) (oi k : Nat) : State :=
  let o := s.obj oi
  if o.count = 1 then s.wake k else s.setObj oi { o with queue := o.queue ++ [(k, 0)] }

/-- A waiting core goes on with its next instruction; the wait's instruction has completed (R198, R214). -/
def State.resume (s : State) (k : Nat) : State :=
  let c := s.core k
  ((s.setCore k { c with run := .running, woken := false, idx := (c.idx + 1) % 2 ^ 32 }).count (kCore k 0) 1).traceCyc k 1
    (s.gaugeTag k)

/-! ### Phases (R188 to R190) -/

/-- The phase change: to COMPUTE, every transfer in flight completes first; to LOAD, held messages are written. -/
def State.toPhase (s : State) (k : Nat) (compute : Bool) : State :=
  if (s.core k).compute = compute then s
  else if compute then
    let s := s.dmaAll k
    (s.setCore k { s.core k with compute := true }).count (kCore k 4) 1
  else
    ((s.setCore k { s.core k with compute := false }).count (kCore k 4) 1).rxFlush k

/-- The core issues instructions: it runs, is not stopped by a debug halt (R478), the mesh holds no message of its own (R233), and
no warm reset drains it (R23). -/
def State.runs (s : State) (k : Nat) : Bool :=
  (s.core k).run == .running && !(s.core k).halt && s.run.resetting.isNone && !s.holds (localAddr 0 k 0)

/-! ### Meanings -/

/-- `PHASE_SWITCH` (R189): the core changes phase for its next instruction. One that waits, idles or is halted issues none and
stays as it is (R190). -/
def execPhaseSwitch (core : Nat) (compute : Bool) (s : State) : Res :=
  inUnit core 64 (if s.runs core then s.toPhase core compute else s)

/-- The bytes a DATA message writes into the loft, and then its sync action: its slice checks the request, and performs no action
for one that it drops or of which bytes are discarded (R197, R245, R247; log entry 74). -/
def State.loftData (s : State) (m : Msg) : State :=
  let w := leAt m.payload 0 8
  let a := bf w 25 0
  let bs := m.payload.drop 8
  if bf w 63 26 ≠ 0 ∨ m.payload.length < 8 ∨ a / 2 ^ 22 ≠ m.unit ∨ a % 4096 + bs.length > 4096 then
    s.count (kSlice (m.unit % 16) 1) 1
  else if s.refusesWrite a bs.length then s.loftWrite a bs
  else (s.loftWrite a bs).syncAction m

/-- `DATA_DELIVER` (R195, R197): a DATA message is written where it is addressed, then its sync action follows. Out of
the order of R182, or behind a held message of its sender (R183), it is not delivered yet. The answers of the loft and control messages are delivered in the same way (R193,
R245). -/
def execDataDeliver (m : Msg) (s : State) : Res :=
  .next (if (m.type ≠ 0 ∧ m.type ≠ 5 ∧ m.type ≠ 7) ∨ !s.ready m ∨ s.behindHeld m then s
    else if m.toUnit 0 then s.toCore m.unit m
    else if m.toUnit 2 ∧ m.type = 0 then (s.arrive m).loftData m
    else if m.remote then s
    else (s.arrive m).syncAction m)

/-- `LOFT_READ_REQ` (R181, R245): a loft slice answers with one READ_RESP to the request's SRC, or drops a bad request. It accepts the
request whatever it has to send itself; an answer goes behind those that are held (R183). -/
def execLoftReadReq (m : Msg) (s : State) : Res :=
  .next (if m.type ≠ 4 ∨ !m.toUnit 2 ∨ !s.ready m then s
    else
      let w := leAt m.payload 0 8
      let n := bf w 44 32
      let a := bf w 25 0
      let s := s.arrive m
      if bf w 63 45 ≠ 0 ∨ bf w 31 26 ≠ 0 ∨ n = 0 ∨ n > 4096 ∨ a / 2 ^ 22 ≠ m.unit ∨ a % 4096 + n > 4096 then
        s.count (kSlice m.unit 1) 1
      else
        let (bs, s) := s.loftRead a n
        s.send (mkMsg m.src.toNat (localAddr 2 m.unit 0) 5 m.fmt m.syncEn m.sync m.qtag 0 (leBytes 8 a ++ bs)))

/-- `LOFT_WRITE` (R245 to R247): a DATA message writes bytes into a loft slice, subject to protection. -/
def execLoftWrite (m : Msg) (s : State) : Res :=
  .next (if m.type ≠ 0 ∨ !m.toUnit 2 ∨ !s.ready m then s
    else (s.arrive m).loftData m)

/-- `TASK_ENQUEUE` (R208): a TASK message enters its hardware task queue. -/
def execTaskEnqueue (m : Msg) (s : State) : Res :=
  .next (if m.type ≠ 6 ∨ m.remote ∨ !s.ready m then s else s.toQueue m)

/-- `DMA_TRANSFER_COMPLETE` (R232): the oldest transfer of the core completes; a DWAIT that waited for it ends. -/
def execDmaTransferComplete (core : Nat) (s : State) : Res :=
  inUnit core 64 (
    match (s.core core).dma with
    | [] => s
    | t :: _ =>
      let s := s.dmaDone core t
      match (s.core core).run with
      | .waitDma tag => if (s.core core).dmaOf tag = [] then s.resume core else s
      | _ => s)

/-- The oldest SYNC_OP message in the mesh by which a core's or a peer's operation travels to its object; one for another engine goes to
the fabric switch (R184, R198). -/
def State.opMsg (s : State) (oi op : Nat) (src : SyncSrc) : Option Msg :=
  let from_ (m : Msg) : Bool :=
    match src with
    | .core k => m.src.toNat == localAddr 0 k 0
    | .peer => m.src.toNat.testBit 31
    | _ => false
  s.grid.mesh.find? fun m => !m.remote && m.kind == 7 && m.type == 3 && m.sync == oi && m.arg % 16 == op && from_ m

/-- An operation at its object's home router: its message leaves the mesh, and where that one is not yet in turn nothing happens
(R182, R198). An operation that no message in the mesh carries is performed as it is given. -/
def State.atHome (s : State) (oi op : Nat) (src : SyncSrc) (eff : State → State) : State :=
  match s.opMsg oi op src with
  | some m => if s.ready m then eff (s.arrive m) else s
  | none => eff s

/-- n of a SIGNAL: `ARG` [19:4] of its message (R198). -/
def State.opN (s : State) (oi op : Nat) (src : SyncSrc) (n : Nat) : Nat :=
  match s.opMsg oi op src with | some m => bf m.arg 19 4 | none => n % 65536

/-- The source as an ARRIVE acts for it: a core whose message is of an earlier quantum waits no longer (R203). -/
def State.arriver (s : State) (oi : Nat) (src : SyncSrc) : SyncSrc :=
  match src, s.opMsg oi 1 src with
  | .core k, some m => if m.qtag = (s.core k).qindex % 4 then .core k else .unit
  | _, _ => src

/-- `SYNC_SIGNAL` (R200): the object's home router adds n to a semaphore, or sets an event. -/
def execSyncSignal (obj n : Nat) (src : SyncSrc) (s : State) : Res :=
  inUnit obj 4096 (s.atHome obj 0 src fun t => t.syncOp 0 obj (s.opN obj 0 src n) src)

/-- `SYNC_ARRIVE` (R201): an arrival counts and, at TARGET, releases every waiter. -/
def execSyncArrive (obj : Nat) (src : SyncSrc) (s : State) : Res :=
  inUnit obj 4096 (s.atHome obj 1 src fun t => t.syncOp 1 obj 0 (s.arriver obj src))

/-- `SYNC_SET` (R202). -/
def execSyncSet (obj : Nat) (src : SyncSrc) (s : State) : Res :=
  inUnit obj 4096 (s.atHome obj 2 src fun t => t.syncOp 2 obj 0 src)

/-- `SYNC_CLEAR` (R202). -/
def execSyncClear (obj : Nat) (src : SyncSrc) (s : State) : Res :=
  inUnit obj 4096 (s.atHome obj 3 src fun t => t.syncOp 3 obj 0 src)

/-- `SYNC_WAIT` (R200): a semaphore serves or queues the waiting core. -/
def execSyncWait (obj n core : Nat) (s : State) : Res :=
  inUnit (max (obj / 64) core) 64 (
    if (s.core core).run = .waitSync obj 4 n ∧ (s.obj obj).kind = 1 ∧ !(s.core core).woken then
      s.atHome obj 4 (.core core) fun t => t.semWait obj n core
    else s)

/-- `SYNC_WAITSET` (R202): a set event completes at once, or the core queues. -/
def execSyncWaitset (obj core : Nat) (s : State) : Res :=
  inUnit (max (obj / 64) core) 64 (
    if (s.core core).run = .waitSync obj 5 0 ∧ (s.obj obj).kind = 3 ∧ !(s.core core).woken then
      s.atHome obj 5 (.core core) fun t => t.evWait obj core
    else s)

/-- `SYNC_READ` (R198): READ answers the object's count or release count, and the core goes on. A READ by the control complex
changes nothing, and has no command. -/
def execSyncRead (obj core : Nat) (s : State) : Res :=
  inUnit (max (obj / 64) core) 64 (
    match (s.core core).run with
    | .waitRead o sel sd =>
      if o = obj then
        s.atHome obj 6 (.core core) fun s =>
          let v := if sel then (s.obj obj).rel else (s.obj obj).count
          let c := s.core core
          (s.setCore core (if sd = 0 then c else { c with s := tset 0 c.s sd (BitVec.ofNat 32 v) })).resume core
      else s
    | _ => s)

/-- `CORE_WAKE` (R198): a satisfied waiter resumes. -/
def execCoreWake (core : Nat) (s : State) : Res :=
  inUnit core 64 (
    match (s.core core).run with
    | .waitSync _ _ _ => if (s.core core).woken then s.resume core else s
    | _ => s)

/-- `TASK_AVAILABLE` (R208): a core waiting in TAKE takes the task that has become available. -/
def execTaskAvailable (core : Nat) (s : State) : Res :=
  inUnit core 64 (
    if (s.core core).run = .waitTake then
      match s.nextTask core with
      | some (w, s') => ((s'.startTask core w).count (kCore core 0) 1).traceCyc core 1 (s.gaugeTag core)
      | none => s
    else s)

end Sys2Proof.Machine
end

