-- ==== Sys2Proof/Machine/Tick.lean ====
section
/-!
DEFINITION. Sample time as it is counted between commands (R25, R28, R29, R47).
-/

namespace Sys2Proof.Machine

/-- The sample index is a 64-bit number (R25). -/
def idx64 (n : Nat) : Nat := n % 2 ^ 64

/-- The sample index of the next quantum boundary (R30). -/
def State.nextBoundary (s : State) : Nat := (s.time.sample / s.q + 1) * s.q

/-- One interpolator phase of sample time, where it is counted (R25, R28); the last phase before a quantum boundary
holds, because the boundary's command carries time onto it (log entry 5). -/
def State.phaseTick (s : State) : State :=
  if s.time.counting then
    let t := s.time.tick + s.phaseTicks
    if t < 4096 then { s with time.tick := t }
    else if s.time.sample + 1 < s.nextBoundary then { s with time.tick := 0, time.sample := s.time.sample + 1 }
    else s
  else s

/-- Sample time carried on to an instant that lies ahead; it never goes back (R47). -/
def State.toInstant (s : State) (sample tick : Nat) : State :=
  if s.time.sample < sample ∨ (s.time.sample = sample ∧ s.time.tick < tick) then
    { s with time.sample := sample, time.tick := tick }
  else s

/-- The frequency of the source in use is measured anew while the bridle follows it; in HOLDOVER and FREE_RUN it is held (R45,
R51; log entry 3). -/
def State.freqMeasured (s : State) (src : Nat) : State :=
  if s.time.src = src ∧ s.time.st ≠ .holdover ∧ s.time.st ≠ .freeRun then
    let (n, s) := s.take
    { s with time.freqOff := Config.freeFreq n }
  else s

end Sys2Proof.Machine
end

