-- ==== Sys2Proof/Machine/Time.lean ====
section
/-!
DEFINITION. The bridle: media-clock sources, lock, holdover and phase; schedule entries; and a core's instants and
deadlines (R29, R37 to R52, R500).
-/

namespace Sys2Proof.Machine

/-! ### Sources (R42 to R46, R50, R383) -/

/-- The engine stands at positions 1 to 7 of a cascade (R17, R50). -/
def State.cascaded (s : State) : Bool := flag s.cfg.fabctl 127 && decide (0 < s.fab.position)

/-- Source codes of the list in priority order, up to the first 0 (R383). -/
def State.sources (s : State) : List Nat :=
  if s.cascaded then [7]
  else ([bf s.cfg.clocking.toNat 43 41, bf s.cfg.clocking.toNat 40 38, bf s.cfg.clocking.toNat 37 35,
    bf s.cfg.clocking.toNat 34 32]).takeWhile (· != 0)

def State.revertEn (s : State) : Bool := flag s.cfg.clocking 57
def State.rephaseEn (s : State) : Bool := flag s.cfg.clocking 56

/-- The highest-priority qualified source. -/
def State.bestSrc (s : State) : Option Nat := s.sources.find? fun c => s.time.qual.contains c

/-- Boot step 9 is under way (R52). -/
def State.acquiring9 (s : State) : Bool := s.run.st == .boot && decide (9 ≤ s.run.step) && !s.run.s9

/-- The bridle takes a source, in ACQUIRING. Each change of source raises its event (R46). -/
def State.takeSrc (s : State) (c : Nat) : State :=
  let t := { s with time.st := .acquiring, time.src := c, time.hadLocked := false, time.slewing := false, time.err := 0 }
  if s.time.src = c then t else t.raise evClockSourceChanged []

/-- No source is in use: the frequency stays as it was (R45). -/
def State.freeRun (s : State) : State := { s with time.st := .freeRun, time.src := 0, time.slewing := false }

/-- The frequency tolerance in parts per billion, `PPM_TOL` (R43, R383). -/
def State.ppbTol (s : State) : Nat := 1000 * bf s.cfg.clocking.toNat 95 86

/-- The tests of R43 that the state decides: timing is present and the rate agrees. PTP: the selected grandmaster of the port
announces the rate in force and a Sync of it has been measured; word clock: edges come; fabric time: a flit of the rate in
force has come. That each comes within its limit `State.lapseSources` keeps. -/
def State.srcOk (s : State) (src : Nat) : Bool :=
  match src with
  | 1 => nth false s.port.synced 0 && (nth none s.port.gm 0).any fun g => g.2.2 == s.time.rate
  | 2 => nth false s.port.synced 1 && (nth none s.port.gm 1).any fun g => g.2.2 == s.time.rate
  | 7 => s.time.fabAt.isSome && s.time.fabTime.any fun t => t.rate == s.time.rate
  | _ => decide (0 < nth 0 s.port.saEdges (src - 3))

/-- `SOURCE_QUALIFIED` (R43, R44, R46): a listed source meets its tests, its frequency standing `ppb` parts per billion from
fs; the bridle takes it where none is in use, from boot step 9 on, and, during that step, where it has the higher priority. -/
def execSourceQualified (src : Nat) (ppb : Int) (s : State) : Res :=
  .next (
    if !s.sources.contains src || decide (s.ppbTol < ppb.natAbs) || !s.srcOk src then s
    else
      let s : State := { s with time.qual := if s.time.qual.contains src then s.time.qual else src :: s.time.qual }
      if s.run.st = .boot ∧ s.run.step < 9 then s
      else if s.time.st = .freeRun ∨ s.time.st = .holdover ∨ (s.acquiring9 ∧ s.time.st = .acquiring) then
        match s.bestSrc with
        | some c => if s.time.st = .acquiring ∧ s.time.src = c then s else s.takeSrc c
        | none => s
      else s)

/-- Ticks of internal time in a time of `ns` nanoseconds and `frac` units of 2^-16 ns (R25, R27). -/
def State.ticksOf (s : State) (ns frac : Nat) : Nat := (ns * 65536 + frac) * rateHz s.time.rate * 4096 / (1000000000 * 65536)

/-- The time of a source as a sample index and tick, in ticks (R27): PTP time as seconds and a fraction in units of 2^-16 ns;
the index that word-clock edges count, and `frac` ticks since the last edge; fabric time as its last flit carried it, with
`frac` ticks since. -/
def State.srcTime (s : State) (src sec frac : Nat) : Nat :=
  match src with
  | 1 => s.ticksOf (sec * 1000000000) frac
  | 2 => s.ticksOf (sec * 1000000000) frac
  | 7 => (match s.time.fabTime with | some t => t.tstamp + s.ticksOf t.delay 0 + frac | none => frac)
  | _ => (nth none s.port.saIdx (src - 3)).getD 0 * 4096 + frac % 4096

/-- Sample time set to an instant in ticks, at the interpolator phase that it lies in (R25, R28). The limits of R43 run anew from
there (DESIGN CHOICE, log entry 80). -/
def State.setTime (s : State) (t : Nat) : State :=
  let i := idx64 (t / 4096)
  let now (l : List (Option Nat)) := l.map fun o => o.map fun _ => i
  { s with time.sample := i, time.tick := t % 4096 / s.phaseTicks * s.phaseTicks, time.fabAt := s.time.fabAt.map fun _ => i,
           port.annAt := now s.port.annAt, port.syncAt := now s.port.syncAt, port.reqAt := now s.port.reqAt,
           port.edgeAt := now s.port.edgeAt }

/-- The phase error of a source's time against internal time, in ticks (R47). -/
def State.phaseErr (s : State) (t : Nat) : Int := (t : Int) - ((s.time.sample * 4096 + s.time.tick : Nat) : Int)

/-- The phase tolerance in ticks, `PHASE_TOL` (R43, R383). -/
def State.phaseTol (s : State) : Nat := bf s.cfg.clocking.toNat 85 76

/-- The stability test of R43 on the phase errors of an interval, oldest first: each lies within the tolerance of the first. -/
def State.stable (s : State) (errs : List Int) : Bool :=
  match errs with
  | [] => false
  | e :: l => l.all fun x => decide ((x - e).natAbs ≤ s.phaseTol)

/-- `STABILITY_TEST_PASS` (R27, R43, R47, R49, R52): at the end of the test's interval, the source's phase errors over it being
`errs` in ticks, a stable source passes. In BOOT the bridle steps onto the source's time, and step 9 stops at the first listed source
that passes; afterwards an error of one sample or less is slewed out and a larger one held. -/
def execStabilityTestPass (src sec frac : Nat) (errs : List Int) (s : State) : Res :=
  .next (
    let mine := s.time.src == src || (s.acquiring9 && s.time.qual.contains src)
    if s.time.st ≠ .acquiring ∨ !mine ∨ s.time.slewing ∨ !s.stable errs then s
    else
      let t := s.srcTime src sec frac
      if s.run.st = .boot then
        let s := if s.time.src = src then s else s.takeSrc src
        let s := s.setTime t
        { s with time.counting := true, time.st := .locked, time.hadLocked := true, time.err := 0,
                 run.s9 := s.run.s9 || decide (9 ≤ s.run.step) }
      else
        let e := s.phaseErr t
        if e.natAbs < 16 then { s with time.st := .locked, time.hadLocked := true, time.err := 0 }
        else if e.natAbs ≤ 4096 then { s with time.slewing := true, time.err := e }
        else { s with time.st := .lockedOffset, time.hadLocked := true, time.err := e })

/-- `SLEW_COMPLETE` (R47). -/
def execSlewComplete (s : State) : Res :=
  .next (
    if s.time.st = .acquiring ∧ s.time.slewing then
      { s with time.st := .locked, time.slewing := false, time.hadLocked := true, time.err := 0 }
    else s)

/-- The loss of a source (R44 to R46): a lost source that the bridle had locked to raises `CLOCK_LOCK_LOST`; the next
qualified source follows, or HOLDOVER, or, where it had not locked, FREE_RUN. -/
def State.sourceLost (s : State) (src : Nat) : State :=
  let s : State := { s with time.qual := s.time.qual.filter (· != src),
                            port.saIdx := if 3 ≤ src then put s.port.saIdx (src - 3) none else s.port.saIdx }
  if s.time.src ≠ src ∨ s.time.st = .freeRun ∨ s.time.st = .holdover then s
  else if s.time.hadLocked then
    let s := { s with time.lockLost := true }.raise evClockLockLost []
    match s.bestSrc with
    | some c => s.takeSrc c
    | none => { s with time.st := .holdover, time.slewing := false }
  else
    match s.bestSrc with
    | some c => s.takeSrc c
    | none => s.freeRun.raise evClockSourceChanged []

/-- `SOURCE_LOST` (R44 to R46). -/
def execSourceLost (src : Nat) (s : State) : Res := .next (s.sourceLost src)

/-- Samples of `n` intervals of 2^`log` seconds. -/
def State.spanOf (s : State) (n : Nat) (log : Int) : Nat :=
  n * (if 0 ≤ log then rateHz s.time.rate * 2 ^ log.toNat else rateHz s.time.rate / 2 ^ log.natAbs)

/-- More than `lim` samples have gone by since an instant. -/
def State.past (s : State) (at_ : Option Nat) (lim : Nat) : Bool := at_.any fun t => decide (t + lim < s.time.sample)

/-- The timing of PTP on a media port is gone: no Announce, or no Sync, of its grandmaster within `PTP_ANN` announce intervals. The
grandmaster is given up (R43, R339, R383). -/
def State.lapsePtp (s : State) (m : Nat) : State :=
  let lim := s.spanOf (bf s.cfg.clocking.toNat 167 164) (nth 0 s.port.annLog m)
  if (nth none s.port.gm m).isSome && (s.past (nth none s.port.annAt m) lim || s.past (nth none s.port.syncAt m) lim) then
    State.sourceLost { s with port.gm := put s.port.gm m none, port.synced := put s.port.synced m false,
                              port.annAt := put s.port.annAt m none, port.syncAt := put s.port.syncAt m none } (m + 1)
  else s

/-- No word-clock edge for more than `WCLK_GAP` sample periods (R43, R383). -/
def State.lapseWclk (s : State) (k : Nat) : State :=
  if s.past (nth none s.port.edgeAt k) (bf s.cfg.clocking.toNat 163 160) then
    State.sourceLost { s with port.saEdges := put s.port.saEdges k 0, port.edgeAt := put s.port.edgeAt k none } (k + 3)
  else s

/-- No time flit for more than `FAB_GAP` quanta (R43, R383). -/
def State.lapseFab (s : State) : State :=
  if s.past s.time.fabAt (bf s.cfg.clocking.toNat 159 156 * s.q) then State.sourceLost { s with time.fabAt := none } 7 else s

/-- The sources whose timing has stayed away beyond its limit are lost (R43, R45). -/
def State.lapseSources (s : State) : State :=
  if s.time.counting then (((List.range 4).foldl State.lapseWclk ((List.range 2).foldl State.lapsePtp s))).lapseFab else s

/-- A phase error departs from the value that the bridle holds: zero in LOCKED, the offset in LOCKED_OFFSET (R500). -/
def State.departs (s : State) (e : Int) : Bool :=
  decide (s.phaseTol < (e - (if s.time.st = .lockedOffset then s.time.err else 0)).natAbs)

/-- `PHASE_STEP` (R500): the phase errors of consecutive quanta, newest last, depart from the value held in 16 of them. -/
def execPhaseStep (errs : List Int) (s : State) : Res :=
  .next (
    if (s.time.st = .locked ∨ s.time.st = .lockedOffset) ∧ 16 ≤ errs.length ∧ errs.all s.departs then
      { s with time.st := .acquiring, time.slewing := false, time.err := (errs.getLast?).getD 0 }.raise evClockPhaseStep []
    else s)

/-- `HOLDOVER_EXPIRY` (R45). -/
def execHoldoverExpiry (s : State) : Res :=
  .next (if s.time.st = .holdover then s.freeRun.raise evClockHoldoverExpired [] else s)

/-- A source stands before another in the list. -/
def srcBefore (l : List Nat) (a b : Nat) : Bool := l.contains a && decide (l.idxOf a < l.idxOf b)

/-- `REVERT_HOLDOFF_EXPIRY` (R46). -/
def execRevertHoldoffExpiry (src : Nat) (s : State) : Res :=
  .next (
    if s.revertEn ∧ s.time.qual.contains src ∧ srcBefore s.sources src s.time.src ∧ s.time.st ≠ .freeRun
        ∧ s.time.st ≠ .holdover then s.takeSrc src
    else s)

/-- `CLOCK_ACQUISITION_TIMEOUT` (R27, R52): boot step 9 ends with the best qualified source in ACQUIRING, or in FREE_RUN;
sample time counts from 0 where no source has set it (log entry 11). -/
def execClockAcquisitionTimeout (s : State) : Res :=
  .next (
    if s.acquiring9 then
      let s := match s.bestSrc with
        | some c => if s.time.src = c ∧ s.time.st = .acquiring then s else s.takeSrc c
        | none => s.freeRun
      let t : State := if s.time.counting then s else { s with time.sample := 0, time.tick := 0, time.counting := true }
      { t with run.s9 := true }
    else s)

/-- `CLK_STATUS_CLEAR` (R7, R51): a 1 clears STEPPED or LOCK_LOST. -/
def execClkStatusClear (v : Word) (s : State) : Res :=
  .next { s with time.stepped := s.time.stepped && !flag v 18, time.lockLost := s.time.lockLost && !flag v 17 }

/-! ### Instants (R29, R37 to R41) -/

/-- The first interpolator phase at or after an instant in ticks (R29). -/
def State.phaseUp (s : State) (t : Nat) : Nat := cdiv t s.phaseTicks * s.phaseTicks

/-- The sample indices that share the upper bits of the present one, which TSTAMP leaves out (R26). -/
def State.epoch (s : State) : Nat := s.time.sample / 2 ^ 52 * 2 ^ 52

/-- Whether TSTAMP has reached a value, or reaches it in a phase before the next quantum boundary (R29). -/
def State.reaches (s : State) (ts : Nat) : Bool :=
  decide (ts ≤ s.tstamp) || (s.time.counting && decide (s.epoch * 4096 + s.phaseUp ts < s.nextBoundary * 4096))

/-- Time carried on to the phase of a TSTAMP value that lies ahead. -/
def State.toTs (s : State) (ts : Nat) : State :=
  let p := s.phaseUp ts
  s.toInstant (s.epoch + p / 4096) (p % 4096)

/-- `CORE_DEADLINE_REACHED` (R41): the core's sticky flag is set, once per load. -/
def execCoreDeadlineReached (core : Nat) (s : State) : Res :=
  inUnit core 64 (
    match (s.core core).deadline with
    | none => s
    | some d =>
      if s.reaches d then
        let s := s.toTs d
        (s.setCore core { s.core core with deadline := none, flags := (s.core core).flags ||| 8 }).count (kCore core 18) 1
      else s)

/-- `TIME_WAIT_RESUME` (R41): a core waiting for an instant resumes when it arrives. -/
def execTimeWaitResume (core : Nat) (s : State) : Res :=
  inUnit core 64 (
    match (s.core core).run with
    | .waitTime ts => if s.reaches ts then (s.toTs ts).resume core else s
    | _ => s)

/-- Fields of a schedule entry (R37). -/
def seEn (e : DWord) : Bool := flag e 63
def seSync (e : DWord) : Nat := fld e 55 44
def seAction (e : DWord) : Nat := fld e 43 40
def seDiv (e : DWord) : Nat := fld e 39 32
def sePhase (e : DWord) : Nat := fld e 18 12
def seTick (e : DWord) : Nat := fld e 11 0

def State.entry (s : State) (i : Nat) : DWord := tget 0 s.time.sched i

/-- The run state and a debug halt let an entry release (R40, R479). -/
def State.mayRelease (s : State) (i : Nat) : Bool := decide (240 ≤ i) || (s.run.st == .run && !s.obs.halting)

/-- An entry may release in the present quantum: active, selected by its divider, not held by the run state or a debug
halt, and not released yet (R38, R40, R479). -/
def State.due (s : State) (i : Nat) : Bool :=
  let e := s.entry i
  seEn e && s.time.sample / s.q % (seDiv e + 1) == 0 && !s.time.released.contains i
    && s.mayRelease i

/-- The action of an entry on its object (R38). -/
def State.actEntry (s : State) (i : Nat) : State :=
  let e := s.entry i
  let op := match seAction e with | 0 => 0 | 1 => 2 | 2 => 1 | _ => 7
  s.syncOp op (seSync e) 1 .entry

/-- The release of one entry in the present quantum. -/
def State.release (s : State) (i : Nat) : State := State.actEntry { s with time.released := i :: s.time.released } i

/-- The interpolator phase of a quantum in which an entry is due, counted from the quantum's boundary (R29, R38). -/
def State.duePhase (s : State) (i : Nat) : Nat := cdiv (sePhase (s.entry i) * 4096 + seTick (s.entry i)) s.phaseTicks

/-- An entry's phase lies within its quantum; one later than the last phase is due in the phase of the next boundary (R29). -/
def State.dueWithin (s : State) (i : Nat) : Bool := decide (s.duePhase i * s.phaseTicks < s.q * 4096)

/-- `SCHEDULE_RELEASE` (R38 to R40): the entry releases at its instant, after those of lower index that are due in the
same phase. -/
def execScheduleRelease (idx : Nat) (s : State) : Res :=
  inUnit idx 256 (
    let ts := packTs (s.time.sample / s.q * s.q + sePhase (s.entry idx)) (seTick (s.entry idx))
    if s.due idx ∧ s.dueWithin idx ∧ s.reaches ts then
      ((List.range (idx + 1)).filter fun i => s.due i && s.duePhase i == s.duePhase idx).foldl State.release (s.toTs ts)
    else s)

/-- Work of a quantum whose deadline has passed may still be under way: its window is closed, or a core or an array drains (R32,
R33). -/
def State.lateWork (s : State) : Bool :=
  s.time.opened && (!s.time.windowOpen || s.cores.any (fun p => p.2.run == .late) || s.arrs.any fun p => p.2.drain != [])

/-- `LATE_RESULT_DISCARD` (R32): a unit discards a result that it completes after the deadline. The results that flanks and the
channel stage discard count where they come (`State.drainGroup`, `execResultDeliver`). -/
def execLateResultDiscard (s : State) : Res := .next (if s.lateWork then s.count (kEngine 0) 1 else s)

/-- `USE_RECENT_HALVE` (R292): at a quantum index that is a multiple of 65,536, once, every directory entry's use is halved, rounding
down, and written to the directory. -/
def execUseRecentHalve (s : State) : Res :=
  .next (
    if s.qindex % 65536 ≠ 0 ∨ s.model.halved = some s.qindex then s
    else { s with
      nv.dir := s.nv.dir.map fun p => (p.1, { p.2 with useRecent := (tfind s.model.use p.1).getD p.2.useRecent / 2 }),
      model.use := [], model.halved := some s.qindex })

end Sys2Proof.Machine
end

