-- ==== Sys2Proof/Machine/Ports.lean ====
section
/-!
DEFINITION. The media ports, the serial audio ports and the tether streams at the edge of the channel stage
(R337 to R350, R385, R502).
-/

namespace Sys2Proof.Machine

/-! ### Media ports (R337, R338, R342 to R345) -/

def State.mport (s : State) (m : Nat) : BitVec 128 := nth 0 s.cfg.mport m
def State.mportIp (s : State) (m : Nat) : Nat := fld (s.mport m) 63 32
def State.vlanEn (s : State) (m : Nat) : Bool := flag (s.mport m) 25
def State.vid (s : State) (m : Nat) : Nat := fld (s.mport m) 21 10

/-- A port of chiplet PH0 has light: lit, not darkened by a laser fault, and its configuration passed (R19, R331). -/
def State.ph0 (s : State) : Bool := s.port.lit && s.run.cfgOk && !nth false s.port.dark 0

/-- A media port is enabled and its link is up (R338, R345). -/
def State.mediaOn (s : State) (m : Nat) : Bool := s.ph0 && nth false s.port.mediaUp m && s.mportIp m != 0 && !s.excl (131 + m)

/-- Group address of a stream on a port (R343). -/
def msGroup (w : BitVec 256) (m : Nat) : Nat := if msPort w = 2 ∧ m = 1 then msDstIpB w else msDstIp w

/-- The VLAN filter of a port, which every frame received meets (R338). -/
def State.vlanPass (s : State) (m : Nat) (vid : Option Nat) : Bool :=
  if s.vlanEn m then vid == some (s.vid m) else vid == none || vid == some 0

/-- The next hop of an IPv4 address: a multicast group and an address of the port's own network are reached directly, others
through `GATEWAY` (R338; PRESUMED, log entry 81). -/
def State.hopOf (s : State) (m ip : Nat) : Nat :=
  let net := 2 ^ (32 - fld (s.mport m) 31 26)
  if ip / 2 ^ 28 = 14 ∨ ip / net = s.mportIp m / net then ip else fld (s.mport m) 127 96

/-- The header of a frame that a port sends to an IPv4 address (R337, R338): the MAC address from the OTP row, the tag, the DSCP. -/
def State.lanHdr (s : State) (m dscp ip : Nat) : LanHdr :=
  { mac := fld (tget 0 s.nv.otp 1) 47 0 + m, tag := if s.vlanEn m then some (s.vid m, fld (s.mport m) 24 22) else none, dscp := dscp,
    hop := s.hopOf m ip }

def State.mediaDscp (s : State) (m : Nat) : Nat := fld (s.mport m) 95 90
def State.ptpDscp (s : State) (m : Nat) : Nat := fld (s.mport m) 89 84

/-- The IGMPv3 report of a receive stream on a port (R337, R340); its DSCP is stated nowhere (log entry 81). -/
def State.igmpReport (s : State) (m : Nat) (join : Bool) (t : Nat) : Out :=
  let w := s.stream t
  .igmp m (s.lanHdr m 0 (msGroup w m)) join (msGroup w m) (if msSsm w then some (msSrcIp w) else none)

/-- The enabled receive streams of a port. -/
def State.portStreams (s : State) (m : Nat) : List Nat := (s.cfg.streams.filter fun e => msOn e.2 m && !msTx e.2).map (·.1)

/-- The filters of a stream (R338, R342). -/
def State.msPass (s : State) (m : Nat) (w : BitVec 256) (p : MediaPkt) : Bool :=
  s.vlanPass m p.vid && p.pt == msPt w && (msSsrc w == 0 || p.ssrc == msSsrc w) && (msSrcIp w == 0 || p.srcIp == msSrcIp w)

/-- The ingress offset of a stream in samples (R35). -/
def State.msOffset (s : State) (t : Nat) (w : BitVec 256) : Nat :=
  if msIngress w = 0 then s.spp t + 8 else msIngress w

/-- The first index of the quantum under collection. -/
def State.collectBase (s : State) : Nat := s.time.sample / s.q * s.q

/-- A number as `n` bytes in network order. -/
def beBytes (n v : Nat) : List Byte := (leBytes n v).reverse

/-- Sample periods placed at consecutive indices; those of collected quanta are discarded. -/
def placeIn (base : Nat) : Tab (List Nat) → Int → List (List Nat) → Tab (List Nat)
  | t, _, [] => t
  | t, i, x :: r => placeIn base (if (base : Int) ≤ i then tput t i.toNat (some x) else t) (i + 1) r

/-- A packet that has matched the address of stream `t` (R342); its index needs sample time. -/
def State.mediaTake (s : State) (m : Nat) (p : MediaPkt) (t : Nat) : State :=
  let w := s.stream t
  let n := s.spp t
  let x := s.strIn t
  let now := s.time.sample
  let i : Int := (now : Int) + sx 32 (ux 32 ((p.ts : Int) - (msRtp w : Int) - (now : Int)))
  let first := i + (s.msOffset t w : Int)
  let key := ux 64 i
  if !s.msPass m w p then s.count (kStream t 3) 1
  else if p.payload.length ≠ n * msNch w * msSize w then s.count (kStream t 4) 1
  else if !s.time.counting then s
  else if first > ((now + 1024 : Nat) : Int) then s.count (kStream t 5) 1
  else if x.seen.contains key then s.count (kStream t 6) 1
  else
    let gap := match x.lastSeq with | some q => p.seq % 2 ^ 16 != (q + 1) % 2 ^ 16 | none => false
    let rows := (chunks (msNch w * msSize w) p.payload).map fun r => (chunks (msSize w) r).map beNat
    let late := decide (first < (s.collectBase : Int))
    let x' : StreamIn := { x with samples := placeIn s.collectBase x.samples first rows, seen := key :: x.seen,
                                  lastSeq := some (p.seq % 2 ^ 16) }
    (s.setIn t x').counts [(kStream t 1, 1), (kStream t 7, b2n gap), (kStream t 9, b2n late)]

/-- `MEDIA_PACKET_RX` (R342, R343, R502): a UDP packet other than PTP goes to every receive stream that it matches. -/
def execMediaPacketRx (port : Nat) (p : MediaPkt) (s : State) : Res :=
  inUnit port 2 (
    if !s.mediaOn port || s.chan.stopped || p.udpDst == 319 || p.udpDst == 320 then s
    else
      let ts := (s.cfg.streams.filter fun e => msOn e.2 port && !msTx e.2 && p.dstIp == msGroup e.2 port
        && p.udpDst == msUdpDst e.2).map (·.1)
      if ts = [] then s.count (kMedia port 2) 1 else ts.foldl (fun s t => s.mediaTake port p t) s)

/-- The next packet of a transmit stream, sent on its ports or dropped where a link is down (R343 to R345). -/
def State.packetOut (s : State) (t p : Nat) : State :=
  let w := s.stream t
  let n := s.spp t
  let x := s.strOut t
  let rows := (List.range n).map fun i => tget [] x.samples (p + i)
  let body := rows.flatMap fun r => (List.range (msNch w)).flatMap fun c => beBytes (msSize w) (tget 0 r c)
  let pkt (m : Nat) : MediaPkt :=
    { dstIp := msGroup w m, srcIp := s.mportIp m, udpDst := msUdpDst w, udpSrc := msUdpSrc w,
      vid := if s.vlanEn m then some (s.vid m) else none, pt := msPt w, seq := x.seq, ts := (p + msRtp w) % 2 ^ 32,
      ssrc := msSsrc w, payload := body }
  let s := s.setStrOut t { x with samples := x.samples.filter fun e => p + n ≤ e.1, next := some (p + n),
                                  seq := (x.seq + 1) % 2 ^ 16 }
  ((List.range 2).filter fun m => msOn w m).foldl (fun s m =>
    if s.mediaOn m then (s.emit (.media m (s.lanHdr m (s.mediaDscp m) (msGroup w m)) (pkt m))).count (kStream t 2) 1 else s.count (kStream t 8) 1) s

/-- The first presentation index beyond the outputs of the shutdown's fade quantum (R21, R31). -/
def State.fadeEnd (s : State) : Nat := (s.run.fadeQ + 3) * s.q + 24

/-- The shutdown lets nothing leave that is presented at index `p`: all of the fade quantum has left before it (R502). -/
def State.silent (s : State) (p : Nat) : Bool := s.run.st == .shutdown && decide (s.fadeEnd ≤ p)

/-- A transmit stream has a packet whose last sample has been handed off (R344, R502). -/
def State.packetDue (s : State) (t : Nat) : Bool :=
  let w := s.stream t
  match (s.strOut t).next with
  | none => false
  | some p => msEn w && msTx w && decide (p + s.spp t ≤ s.time.handed) && !s.silent p

/-- `MEDIA_PACKET_TX` (R344): the stream's next window, once its last sample has been handed off, leaves as a packet, after the
packets of lower-numbered streams that are due. -/
def execMediaPacketTx (stream : Nat) (s : State) : Res :=
  inUnit stream 1024 (
    match (s.strOut stream).next with
    | none => s
    | some p =>
      if s.chan.stopped || !s.packetDue stream || (s.cfg.streams.map (·.1)).any (fun t => decide (t < stream) && s.packetDue t) then s
      else s.packetOut stream p)

/-- The remaining packets of a stream up to index `hi` (R502); by fuel. -/
def State.packetsTo (s : State) (t hi : Nat) : Nat → State
  | 0 => s
  | f + 1 =>
    match (s.strOut t).next with
    | none => s
    | some p => if p < hi then (s.packetOut t p).packetsTo t hi f else s

/-- The stop of the streams after the fade quantum (R502): every packet with a sample of it leaves, the port leaves its
receive groups, and nothing more is taken or sent. -/
def State.streamStop (s : State) : State :=
  if s.chan.stopped then s
  else
    let hi := s.fadeEnd
    let tx := (s.cfg.streams.filter fun p => msEn p.2 && msTx p.2).map (·.1)
    let s := tx.foldl (fun s t => s.packetsTo t hi (s.q + 1)) s
    let leave := (List.range 2).flatMap fun m => if s.mediaOn m then (s.portStreams m).map (s.igmpReport m false) else []
    let s : State := { s with out := s.out ++ leave, chan.stopped := true }
    { s with chan.ins := s.chan.ins.map fun p => (p.1, { p.2 with joined := false }) }

/-- The fade quantum of the shutdown has been delivered (R21). -/
def State.fadePast (s : State) : Bool :=
  decide (s.run.fadeQ < s.time.window) || (s.time.window == s.run.fadeQ && !s.time.windowOpen)

/-- `MEDIA_STREAM_STOP` (R21, R502): step 3 of the shutdown, once the fade quantum has been delivered. -/
def execMediaStreamStop (s : State) : Res := .next (if s.run.st = .shutdown ∧ s.fadePast then s.streamStop else s)

/-- The link of a media port is down; in RUN the event is raised; a PTP source on the port is lost (R345). -/
def State.mediaDown (s : State) (port : Nat) : State :=
  if nth false s.port.mediaUp port then
    let t : State := { s with port.mediaUp := put s.port.mediaUp port false, port.synced := put s.port.synced port false }
    let t := if t.inRun then t.raise evMediaLinkState [] else t
    t.sourceLost (port + 1)
  else s

/-- `MEDIA_LINK_DOWN` (R345). -/
def execMediaLinkDown (port : Nat) (s : State) : Res := inUnit port 2 (s.mediaDown port)

/-- `MEDIA_LINK_UP` (R345): the port joins the group of each receive stream, and sends again. -/
def execMediaLinkUp (port : Nat) (s : State) : Res :=
  inUnit port 2 (
    if !s.ph0 || s.mportIp port == 0 then s
    else
      let ts := if s.chan.stopped then [] else s.portStreams port
      let t : State := { s with port.mediaUp := put s.port.mediaUp port true,
                                out := s.out ++ ts.map (s.igmpReport port true) }
      ts.foldl (fun s i => s.setIn i { s.strIn i with joined := true }) t)

/-- `ARP_ICMP_RX` (R337, R338, R502): an ARP request for the port's address, or an ICMP echo to it, is answered to its sender; an
IGMP query is answered with a report for each group that the port has joined. A frame that the VLAN filter stops is not seen. -/
def execArpIcmpRx (port : Nat) (kind : LanKind) (vid : Option Nat) (target sender : Nat) (payload : List Byte) (s : State) : Res :=
  inUnit port 2 (
    if !s.mediaOn port || !s.vlanPass port vid then s
    else
      match kind with
      | .arp => if target = s.mportIp port then s.emit (.arp port (s.lanHdr port 0 sender) sender) else s
      | .echo => if target = s.mportIp port then s.emit (.icmp port (s.lanHdr port 0 sender) sender payload) else s
      | .igmpQuery =>
        { s with out := s.out ++ (if s.chan.stopped then [] else s.portStreams port).map (s.igmpReport port true) })

/-! ### PTP (R339) -/

/-- A delay request goes out where the interval that the grandmaster sets has gone by since the last one; the interval is 1 s before
a response has named it (R339; log entry 80). -/
def State.delayReq (s : State) (port : Nat) : State :=
  let due := match nth none s.port.reqAt port with
    | none => true
    | some t => !s.time.counting || decide (t + s.spanOf 1 (nth 0 s.port.reqLog port) ≤ s.time.sample)
  if due then
    { s with port.reqAt := put s.port.reqAt port (some s.time.sample) }.emit
      (.ptpDelayReq port (s.lanHdr port (s.ptpDscp port) 0xE0000181))
  else s

/-- A PTP timing measurement of a port: the frequency of a source in use is measured anew, and a delay request goes out where one
is due. -/
def State.ptpMeasured (s : State) (port : Nat) : State :=
  (State.delayReq { s with port.synced := put s.port.synced port true,
                           port.syncAt := put s.port.syncAt port (some s.time.sample) } port).freqMeasured (port + 1)

/-- An Announce that takes the grandmaster, or repeats it: a new grandmaster has no Sync measured yet, and one whose rate does
not agree with fs is no qualified source (R43). -/
def State.ptpAnnounce (s : State) (port : Nat) (m : PtpMsg) : State :=
  let new := !(nth none s.port.gm port).any fun g => g.1 == m.gm
  let now := some s.time.sample
  let t : State := { s with port.gm := put s.port.gm port (some (m.gm, m.rank, m.rateCode)),
                            port.annAt := put s.port.annAt port now, port.annLog := put s.port.annLog port m.logInt,
                            port.syncAt := if new then put s.port.syncAt port now else s.port.syncAt,
                            port.synced := if new then put s.port.synced port false else s.port.synced }
  if m.rateCode = s.time.rate then t else t.sourceLost (port + 1)

/-- `PTP_MESSAGE_RX` (R338, R339): messages of the configured domain that pass the VLAN filter; the better Announce takes the
grandmaster, its one-step Sync measures at once, a two-step Sync with its Follow_Up, and its Delay_Resp sets the interval of the delay
requests. -/
def execPtpMessageRx (port : Nat) (m : PtpMsg) (s : State) : Res :=
  inUnit port 2 (
    if !s.mediaOn port || !s.vlanPass port m.vid || m.domain != bf s.cfg.clocking.toNat 51 44 then s
    else
      let cur := nth none s.port.gm port
      let isGm := cur.any fun g => g.1 == m.gm
      match m.kind with
      | .announce =>
        let better := match cur with | none => true | some g => g.1 == m.gm || decide (m.rank < g.2.1)
        if better then s.ptpAnnounce port m else s
      | .sync two =>
        if !isGm then s
        else if two then { s with port.twoStep := put s.port.twoStep port (some (m.seqId, m.rxTime)) }
        else s.ptpMeasured port
      | .followUp =>
        if isGm && (nth none s.port.twoStep port).any (fun p => p.1 == m.seqId) then
          { s with port.twoStep := put s.port.twoStep port none }.ptpMeasured port
        else s
      | .delayResp => if isGm then { s with port.reqLog := put s.port.reqLog port m.logInt } else s)

/-! ### Serial audio ports (R346 to R350) -/

/-- A serial audio port with light. -/
def State.saLit (s : State) (k : Nat) : Bool := s.ph0 && saOn (s.sactl k) && !s.excl (133 + k)

/-- `MADI_FRAME_RX` (R348): the frame that completes in a sample period gives every channel its sample. -/
def execMadiFrameRx (port : Nat) (subs : List MadiSub) (s : State) : Res :=
  inUnit port 4 (
    if !s.saLit port || !saMadi (s.sactl port) || !nth false s.port.saLock port || s.chan.stopped || !s.time.counting then s
    else
      let t := 2048 + port
      let x := s.strIn t
      let i := s.time.sample
      let slip := (tfind x.samples i).isSome
      let used := subs.take (saChans (s.sactl port) s.time.rate)
      let val (b : MadiSub) := if b.parityOk && b.active then ux 24 b.value else 0
      let s := s.setIn t { x with samples := tput x.samples i (some (used.map val)) }
      let n (f : MadiSub → Bool) := (used.filter f).length
      let s := s.counts [(kSa port 0, b2n slip), (kSa port 1, n fun b => !b.parityOk), (kSa port 2, n fun b => b.validity)]
      { s with port.saFrame := put s.port.saFrame port (some i) })

/-- Time carried on to tick 0 of the sample at hand: now where the tick is 0, else the next sample, if it comes before
the quantum boundary. -/
def State.tickZero (s : State) : Option State :=
  if !s.time.counting then none
  else if s.time.tick = 0 then some s
  else if s.time.sample + 1 < s.nextBoundary then some (s.toInstant (s.time.sample + 1) 0)
  else none

/-- The professional channel-status block of R349: PCM, the configured fs, a 24-bit word length, the rest zero; the codes are those
of AES3 (PRESUMED, log entry 12). -/
def channelStatus (rate : Nat) : List Byte :=
  let base := rate % 2
  let fs0 := if rate < 2 then (if base = 0 then 0x40 else 0x80) else 0
  let fs4 := if rate < 2 then 0 else (rate / 2 + 1 + (if base = 0 then 8 else 0)) * 8
  fit 0 24 [BitVec.ofNat 8 (1 + fs0), 0, 0x2C, 0, BitVec.ofNat 8 fs4]

/-- `MADI_FRAME_TX` (R349, R502): the frame of the present sample index starts at its tick 0; channels that no slot names, and
indices at which nothing is presented, carry zero. -/
def execMadiFrameTx (port : Nat) (s : State) : Res :=
  inUnit port 4 (
    let w := s.sactl port
    if !s.saLit port || !saMadi w || !saTx w then s
    else
      match s.tickZero with
      | none => s
      | some s =>
        let p := s.time.sample
        if s.silent p then s else
        let x := s.strOut (2048 + port)
        let row := tget [] x.samples p
        let s := s.setStrOut (2048 + port) { x with samples := x.samples.filter fun e => p < e.1 }
        s.emit (.madi port p (p % 192 == 0) (channelStatus s.time.rate) ((List.range (saChans w s.time.rate)).map fun c => tget 0 row c)))

/-- `WORD_CLOCK_EDGE` (R27, R350): an edge marks a sample for the bridle; from the first edge of a qualified source on, edges
count its sample index from 0. -/
def execWordClockEdge (port : Nat) (s : State) : Res :=
  inUnit port 4 (
    if s.saLit port && saWclk (s.sactl port) then
      let i := match nth none s.port.saIdx port with | some n => n + 1 | none => 0
      State.freqMeasured { s with
        port.saEdges := put s.port.saEdges port (nth 0 s.port.saEdges port + 1),
        port.edgeAt := put s.port.edgeAt port (some s.time.sample),
        port.saIdx := if s.time.qual.contains (port + 3) then put s.port.saIdx port (some i) else s.port.saIdx } (port + 3)
    else s)

/-- `WORD_CLOCK_OUTPUT` (R350): the rising edge at tick 0 of a sample period, in every bridle state. -/
def execWordClockOutput (port : Nat) (s : State) : Res :=
  inUnit port 4 (
    if s.saLit port && saWclk (s.sactl port) && saTx (s.sactl port) then
      match s.tickZero with
      | none => s
      | some s => s.emit (.wordClock port)
    else s)

/-- The lock of a MADI receiver is lost (R348, R351). -/
def State.madiLost (s : State) (port : Nat) : State :=
  if saMadi (s.sactl port) && nth false s.port.saLock port then
    { s with port.saLock := put s.port.saLock port false }.raise evSaLockState []
  else s

/-- `MADI_LOCK_LOST` (R348). -/
def execMadiLockLost (port : Nat) (s : State) : Res := inUnit port 4 (s.madiLost port)

/-- `MADI_LOCK_GAINED` (R348, R351): the change of lock state is reported. -/
def execMadiLockGained (port : Nat) (s : State) : Res :=
  inUnit port 4 (
    if s.saLit port && saMadi (s.sactl port) && !nth false s.port.saLock port then
      { s with port.saLock := put s.port.saLock port true }.raise evSaLockState []
    else s)

/-! ### Tether streams (R385) -/

/-- The quantum of a message from the low two bits of its index: the one nearest the quantum in process (log entry 12). -/
def State.quantumOf (s : State) (qtag : Nat) : Nat :=
  let lo := s.qindex + 2
  (lo + (qtag + 4 * lo - lo) % 4) - 4

/-- `TETHER_STREAM_RX` (R385): the samples of a stream message enter at their presentation indices; those of collected
quanta are discarded. -/
def execTetherStreamRx (m : Msg) (s : State) : Res :=
  .next (
    if m.type ≠ 0 ∨ !m.toUnit 3 ∨ s.chan.stopped ∨ !s.ready m then s
    else
      let s := s.arrive m
      let h := leAt m.payload 0 8
      let t := bf h 9 0
      let w := tget 0 s.cfg.tstreams t
      if !tsEn w || tsTx w then s
      else
        let size := fmtSize (tsFmt w)
        let rows := (chunks (tsNch w * size) (m.payload.drop 8)).take (bf h 42 32)
        let vals := rows.map fun r => (chunks size r).map leNat
        let n := s.quantumOf m.qtag
        let x := s.strIn (1024 + t)
        let base := n * s.q + 2 * s.q + 24 + bf h 26 16
        s.setIn (1024 + t) { x with samples := placeIn s.collectBase x.samples (base : Int) vals })

end Sys2Proof.Machine
end

