-- ==== Sys2Proof/Machine/Operands.lean ====
section
/-!
DEFINITION. How a core issues an instruction and reads its operands (R214 to R219, R239): the formats of the operand
bits, the registers, the checks, and what completing or trapping does.
-/

namespace Sys2Proof.Machine

/-- Operand bits [22:0] of an instruction word (R216). -/
abbrev Ops23 := BitVec 23

/-! ### Registers (R186, R219) -/

/-- Scalar register k; s0 reads as 0. -/
def Core.sr (c : Core) (k : Nat) : Nat := if k = 0 then 0 else (tget 0 c.s k).toNat

/-- A scalar register read as S32. -/
def Core.srI (c : Core) (k : Nat) : Int := sx 32 (c.sr k)

/-- The core with scalar register k written; a write of s0 is ignored. -/
def Core.setS (c : Core) (k v : Nat) : Core := if k = 0 then c else { c with s := tset 0 c.s k (BitVec.ofNat 32 v) }

/-- A register pair: s(k+1):sk. -/
def Core.pair (c : Core) (k : Nat) : Nat := c.sr (k + 1) * 2 ^ 32 + c.sr k

/-- The core with a register pair written. -/
def Core.setPair (c : Core) (k v : Nat) : Core := (c.setS k (v % 2 ^ 32)).setS (k + 1) (v / 2 ^ 32)

def zeros64 : List Word := (List.range 64).map fun _ => 0

/-- Vector register k, 64 lanes. -/
def Core.vr (c : Core) (k : Nat) : List Nat := (tget zeros64 c.v k).map (·.toNat)

/-- The core with a vector register written. -/
def Core.setV (c : Core) (k : Nat) (l : List Nat) : Core :=
  { c with v := tset zeros64 c.v k (fit 0 64 (l.map fun x => BitVec.ofNat 32 x)) }

/-! ### Flags and what an instruction counts (R83, R212, R213) -/

/-- The core with bits of CORE_FLAGS set. -/
def Core.flagOn (c : Core) (b : Nat) : Core := { c with flags := c.flags ||| b }

/-- What an instruction does besides writing registers: offsets of the core's counters and how much each rises. -/
abbrev Cnts := List (Nat × Nat)

/-- A core and the counters its instruction raises. -/
structure Fx where
  c : Core
  n : Cnts
deriving DecidableEq, Repr

/-- `n` integer saturations of scalar and vector results: counted, and SAT set (R83, R220). -/
def Fx.sats (f : Fx) (n : Nat) : Fx := if n = 0 then f else ⟨f.c.flagOn 0x80, (11, n) :: f.n⟩

/-- NaN and infinite operands read and results clamped (R82). -/
def Fx.fp (f : Fx) (nans infs ovf : Nat) : Fx :=
  let c := if nans = 0 then f.c else f.c.flagOn 0x20
  let c := if infs = 0 then c else c.flagOn 0x10
  let c := if ovf = 0 then c else c.flagOn 0x40
  ⟨c, [(16, nans), (17, infs), (15, ovf)].filter (fun p => p.2 != 0) ++ f.n⟩

/-- Clamps of an accumulator drain (R89): counted, and SAT set. -/
def Fx.drains (f : Fx) (n : Nat) : Fx := if n = 0 then f else ⟨f.c.flagOn 0x80, (14, n) :: f.n⟩

/-! ### Issue (R189, R211, R214, R218) -/

/-- A trap: the core stops at the instruction and records the cause and the index; the event and the count (R211). A branch target
has 32 bits (R220), and so has the index in the event (R484). -/
def State.trap (s : State) (k cause : Nat) : State :=
  let c := s.core k
  ((s.setCore k { c with run := .trapped, trapCause := cause, trapIdx := c.idx }).count (kCore k 7) 1).raise evCoreTrap
    [(1, k), (1, cause), (4, c.idx), (8, s.tstamp)]

/-- The phase an instruction needs (R215). -/
inductive Need where
  | either | load | compute
deriving DecidableEq, Repr

/-- The issue of an instruction by core `k`: nothing where the core is not running; the traps of fetch and encoding; the
phase it needs; then its effect. -/
def State.issue (s : State) (k : Nat) (legal : Bool) (need : Need) (eff : State → State) : Res :=
  inUnit k 64 (
    if !s.runs k then s
    else if (s.core k).idx > 16383 then s.trap k 3
    else if !legal then s.trap k 1
    else
      match need with
      | .either => eff s
      | .load => eff (s.toPhase k false)
      | .compute => eff (s.toPhase k true))

/-- What is traced of an instruction of class 2 to 7 that has issued (R480): its end, or that a trap abandoned it; the
end of one that waits comes with the wait's. -/
def State.traceClose (s : State) (k : Nat) : State :=
  match (s.core k).run with
  | .running => s.traceCyc k 1 (s.gaugeTag k)
  | .idle => s.traceCyc k 1 (s.gaugeTag k)
  | .cut => s
  | .late => s
  | .halted => s
  | .trapped => s.traceCyc k 2 (s.gaugeTag k)
  | .waitSync _ _ _ => s
  | .waitRead _ _ _ => s
  | .waitTake => s
  | .waitTime _ => s
  | .waitDma _ => s

/-- The issue of a traced instruction (R480): its begin is recorded with the operand bits, then it issues. -/
def State.issueT (s : State) (k : Nat) (ops : Ops23) (legal : Bool) (need : Need) (eff : State → State) : Res :=
  inUnit k 64 (
    if !s.runs k then s
    else
      let s := s.traceBegin k (s.qindex % 4 * 2 ^ 14 + (s.core k).idx % 2 ^ 14) ops.toNat
      (if (s.core k).idx > 16383 then s.trap k 3
       else if !legal then s.trap k 1
       else
         match need with
         | .either => eff s
         | .load => eff (s.toPhase k false)
         | .compute => eff (s.toPhase k true)).traceClose k)

/-- An instruction completes with the core's new contents and its counts, and the index goes on by one. -/
def State.retire (s : State) (k : Nat) (f : Fx) : State :=
  ((s.setCore k { f.c with idx := ((s.core k).idx + 1) % 2 ^ 32 }).counts (f.n.map fun p => (kCore k p.1, p.2))).count
    (kCore k 0) 1

/-- An instruction completes and the index becomes `t` (R220). -/
def State.retireTo (s : State) (k : Nat) (c : Core) (t : Nat) : State :=
  (s.setCore k { c with idx := t % 2 ^ 32 }).count (kCore k 0) 1

/-- A register instruction: its effect on the core alone. -/
def State.reg (s : State) (k : Nat) (legal : Bool) (f : Core → Fx) : Res :=
  s.issue k legal .either fun s => s.retire k (f (s.core k))

/-- The instruction ends in a wait: the core holds in it (R190, R203). -/
def State.waitIn (s : State) (k : Nat) (w : CoreRun) : State :=
  let c := s.core k
  let s := s.setCore k { c with run := w, woken := false }
  match w with
  | .waitSync _ _ _ => if c.inTask then s.count (kCore k 10) 1 else s
  | _ => s

/-- The local-memory check of R239: `n` bytes from `a` lie within 2 MiB. -/
def memOk (a n : Nat) : Bool := n == 0 || decide (a + n ≤ 0x200000)

/-! ### Formats (R217) -/

def oSD (o : Ops23) : Nat := fld o 22 18
def oSA (o : Ops23) : Nat := fld o 17 13
def oSB (o : Ops23) : Nat := fld o 12 8
def oRM (o : Ops23) : Nat := fld o 7 6
def oMODW (o : Ops23) : Bool := flag o 5
def oImm13 (o : Ops23) : Nat := fld o 12 0
def oImm18 (o : Ops23) : Nat := fld o 17 0
def oVD (o : Ops23) : Nat := fld o 22 19
def oVA (o : Ops23) : Nat := fld o 18 15
def oVB (o : Ops23) : Nat := fld o 14 11
def oSS (o : Ops23) : Nat := fld o 10 6
def oTY (o : Ops23) : Nat := fld o 5 5
def oVRM (o : Ops23) : Nat := fld o 4 3
def oVMODW (o : Ops23) : Bool := flag o 2
/-- VM: SA, MF, RM. -/
def oMSA (o : Ops23) : Nat := fld o 18 14
def oMF (o : Ops23) : Nat := fld o 13 10
def oMRM (o : Ops23) : Nat := fld o 9 8
/-- TR. -/
def oDT (o : Ops23) : Nat := fld o 22 20
def oTSA (o : Ops23) : Nat := fld o 19 15
def oTSB (o : Ops23) : Nat := fld o 14 10
def oTSC (o : Ops23) : Nat := fld o 9 5
/-- SY. -/
def oOBJ (o : Ops23) : Nat := fld o 22 11
def oYSA (o : Ops23) : Nat := fld o 10 6
def oSEL (o : Ops23) : Bool := flag o 5
def oXR (o : Ops23) : Bool := flag o 4
def oYSB (o : Ops23) : Nat := fld o 3 0

/-- Format SR is legal: reserved bits zero, and RM not 3 (R217, R218). -/
def srOk (o : Ops23) : Bool := decide (fld o 4 0 = 0) && decide (oRM o ≠ 3)

/-- The fields a vector register operation uses (R224): those it does not use are reserved. -/
structure VUse where
  vd : Bool
  va : Bool
  vb : Bool
  ss : Bool
  ty : Bool
  rm : Bool
  modw : Bool
deriving DecidableEq, Repr

/-- Format VR is legal for an operation's use of its fields. -/
def vrOk (u : VUse) (o : Ops23) : Bool :=
  decide (fld o 1 0 = 0) && decide (oVRM o ≠ 3) && (u.vd || decide (oVD o = 0)) && (u.va || decide (oVA o = 0))
    && (u.vb || decide (oVB o = 0)) && (u.ss || decide (oSS o = 0)) && (u.ty || decide (oTY o = 0))
    && (u.rm || decide (oVRM o = 0)) && (u.modw || !oVMODW o)

/-- The behaviour class in force is BC-A (R95). -/
def State.bcA (s : State) : Bool := s.cfg.bcA

end Sys2Proof.Machine
end

