-- ==== Sys2Proof/Machine/Flags.lean ====
section
/-!
DEFINITION. Results of the integer and floating-point operations of a core with the conditions they raise
(R79 to R83, R220, R224): saturation, NaN and infinity operands, clamped results.
-/

namespace Sys2Proof.Machine

/-- An integer result: saturated to S32, or its low 32 bits in the modulo form; and whether it saturated (R220). -/
def intRes (modw : Bool) (v : Int) : Nat × Bool :=
  if modw then (ux 32 v, false) else (ux 32 (sat v 32), satHit v 32)

/-- A lane's result and what it raised: saturation, NaN operands, infinite operands, clamped result. -/
structure Lane where
  val : Nat
  sat : Nat
  nan : Nat
  inf : Nat
  ovf : Nat
deriving DecidableEq, Repr

def Lane.pure (v : Nat) : Lane := ⟨v, 0, 0, 0, 0⟩
/-- What two operations raised together. -/
def Lane.add (a b : Lane) : Lane := ⟨b.val, a.sat + b.sat, a.nan + b.nan, a.inf + b.inf, a.ovf + b.ovf⟩
def Lane.int (modw : Bool) (v : Int) : Lane :=
  let r := intRes modw v
  ⟨r.1, b2n r.2, 0, 0, 0⟩

/-- An FP result with the conditions of its operands (R82). -/
def Lane.fp (xs : List FpV) (r : Nat × Bool) : Lane :=
  ⟨r.1, 0, (xs.filter (·.nan)).length, (xs.filter (·.inf)).length, b2n r.2⟩

def sumBy (l : List Lane) (f : Lane → Nat) : Nat := sumN (l.map f)

/-- A core with a vector register written from lanes, and everything the lanes raised. -/
def Core.lanes (c : Core) (vd : Nat) (l : List Lane) : Fx :=
  (Fx.sats ⟨c.setV vd (l.map (·.val)), []⟩ (sumBy l (·.sat))).fp (sumBy l (·.nan)) (sumBy l (·.inf)) (sumBy l (·.ovf))

/-- A core with a scalar register written from one result, and what it raised. -/
def Core.one (c : Core) (sd : Nat) (l : Lane) : Fx :=
  (Fx.sats ⟨c.setS sd l.val, []⟩ l.sat).fp l.nan l.inf l.ovf

/-- An FP32 operand as the core reads it in its behaviour class (R82, R97). -/
def rd32 (bcA : Bool) (w : Nat) : FpV := fpRead fp32 bcA w

/-- The order of two FP operands; zeros of either sign are equal. -/
def fpLt (a b : FpV) : Bool := a.val.lt b.val

/-- The code of an operand as read: NaN as +0, infinity as the largest finite value, flushed subnormals as zero. -/
def fpCode (f : FpFmt) (v : FpV) : Nat := (fpOfDy f false 0 v.neg v.val).1

end Sys2Proof.Machine
end

