-- ==== Sys2Proof/Machine/Rom.lean ====
section
/-!
DEFINITION. The ROM activation tables of the flank and the evaluation of a table (R134 to R136). The functions are
computed in fixed point with 192 fraction bits: R136 says that no exact value lies halfway between two integers, and the
nearest one to a half is off by more than 2^-17, so that the rounding is that of the exact value.
-/

namespace Sys2Proof.Machine

/-- The fixed-point one. -/
def fxOne : Nat := 2 ^ 192

/-- The exponential series of `n / d` up to term number `k`, from term `i` on. -/
def expSeries (n d : Nat) : Nat → Nat → Nat → Nat
  | 0, _, _ => 0
  | k + 1, i, term => term + expSeries n d k (i + 1) (term * n / (d * (i + 1)))

/-- `x` squared `k` times. -/
def fxSquares : Nat → Nat → Nat
  | 0, x => x
  | k + 1, x => fxSquares k (x * x / fxOne)

/-- `e^(-n/d)` for `n / d` from 0 to 32: the argument divided by 64, the series, six squarings, the inverse. -/
def fxExpNeg (n d : Nat) : Nat := fxOne * fxOne / fxSquares 6 (expSeries n (64 * d) 60 0 fxOne)

/-- `tanh(n/d)` for `n / d` ≥ 0. -/
def fxTanh (n d : Nat) : Nat := let e := fxExpNeg (2 * n) d; (fxOne - e) * fxOne / (fxOne + e)

/-- The series x + x^3/3 + x^5/(3·5) + … of the normal distribution. -/
def phiSeries (n d : Nat) : Nat → Nat → Nat → Nat
  | 0, _, _ => 0
  | k + 1, i, term => term + phiSeries n d k (i + 1) (term * n * n / (d * d * (2 * i + 3)))

/-- `1 / √(2π)` in fixed point. -/
def fxInvSqrt2Pi : Nat := 2504201280626952864894549311249338563268063356138482501336

/-- `Φ(n/d)` for `n / d` ≥ 0. -/
def fxPhi (n d : Nat) : Nat :=
  fxOne / 2 + fxInvSqrt2Pi * fxExpNeg (n * n) (2 * d * d) / fxOne * phiSeries n d 400 0 (fxOne * n / d) / fxOne

/-- A fixed-point value times 2^b, rounded to the nearest integer. -/
def fxRound (x b : Nat) : Nat := (x * 2 ^ (b + 1) + fxOne) / (2 * fxOne)

/-- The entry V_i of the ROM table of a function, 3 tanh, 4 sigmoid, 5 GELU, 6 soft clip with knee `p`/16, for i from 0
to 1,024 (R136). -/
def romV (fn p i : Nat) : Int :=
  let neg := decide (i < 512)
  let a := if neg then 512 - i else i - 512
  let cl (v : Nat) : Int := if v > 32767 then 32767 else (v : Int)
  let odd (v : Nat) : Int := if neg then -cl v else cl v
  match fn with
  | 3 => odd (fxRound (fxTanh a 64) 15)
  | 4 =>
    let s := fxOne * fxOne / (fxOne + fxExpNeg a 32)
    cl (fxRound (if neg then fxOne - s else s) 15)
  | 5 =>
    let f := fxPhi a 64
    odd (fxRound ((if neg then fxOne - f else f) * a / 64) 12)
  | _ =>
    if a ≤ 8 * p then odd (a * 64)
    else odd (fxRound ((p * fxOne + (16 - p) * fxTanh (a - 8 * p) (8 * (16 - p))) / 16) 13)

/-- `table` of R135 before its last clamp: the table as its values and deltas, the input, `AEXP` and `AOUT` (from −31
up). -/
def tableEval (v d : Nat → Int) (y aexp aout : Int) : Int :=
  let x : Int := 2 ^ (aexp + 31).toNat
  let f : Int :=
    if y < -x then v 0
    else if y ≥ x then v 1023 + d 1023
    else
      let u := (y + x).toNat
      let sh := (aexp + 22).toNat
      let i := u / 2 ^ sh
      let frac : Nat := (u % 2 ^ sh) * 2 ^ 16 / 2 ^ sh
      v i + roundShift (d i * (frac : Int)) 16 0
  f * (2 ^ (aout + 31).toNat : Int)

/-- The activation of R134 as an exact value before its clamp to S48: `tab` is the loaded table of `ACT_PARAM`. -/
def activation (fn param : Nat) (aexp aout : Int) (tab : List Word) (y : Int) : Int :=
  let rom (fn p : Nat) (aexp aout : Int) := tableEval (romV fn p) (fun i => romV fn p (i + 1) - romV fn p i) y aexp aout
  match fn with
  | 0 => y
  | 1 => max y 0
  | 2 => if y ≥ 0 then y else roundShift (y * (param : Int)) 8 0
  | 3 => rom 3 0 3 (-15)
  | 4 => rom 4 0 4 (-15)
  | 5 => if y < -(2 ^ 34) then 0 else if y ≥ 2 ^ 34 then y else rom 5 0 3 (-12)
  | 6 => rom 6 param 2 (-13)
  | _ => tableEval (fun i => sx 16 (fld (nth 0 tab i) 31 16)) (fun i => sx 16 (fld (nth 0 tab i) 15 0)) y aexp aout

end Sys2Proof.Machine
end

