-- ==== Sys2Proof/Machine/Links.lean ====
section
/-!
DEFINITION. The tether links: routes, flit headers, and the control, time and link flits that an engine sends (R302, R303, R309, R310,
R320, R325, R327).
-/

namespace Sys2Proof.Machine

def State.isCascade (s : State) : Bool := flag s.cfg.fabctl 127
def State.isMooring (s : State) : Bool := flag s.cfg.fabctl 125

def State.tpUp (s : State) (p : Nat) : Bool := (s.port_ p).st == .up

def State.upPorts (s : State) : List Nat := (List.range 8).filter s.tpUp

/-- The port that leads to an address: by the route table, or, in a cascade, up or down the chain (R325). -/
def State.routeTo (s : State) (a : Nat) : Option Nat :=
  if s.isCascade then
    let p := if s.dev < a then 1 else 0
    if a ≠ s.dev ∧ s.tpUp p then some p else none
  else (tfind s.fab.routes a).filter s.tpUp

/-- The address of a neighbour: as it came in the exchange, or, of one that took its address later, as its records give it
(R308 to R310). -/
def State.portAddr (s : State) (p : Nat) : Option Nat :=
  match (s.port_ p).addr with
  | some a => some a
  | none => (s.fab.lsrs.find? fun r => r.uid == (s.port_ p).uid).bind (·.addr)

/-! ### Flits (R302, R303) -/

/-- A flit header of a type (R302) with its CRC. -/
def typedHdr (ftype dst src vc : Nat) (mc first : Bool) (stream seq gen shard : Nat) (last : Bool) (plen : Nat) : BitVec 128 :=
  let w := dst % 4096 * 2 ^ 116 + src % 4096 * 2 ^ 104 + ftype % 16 * 2 ^ 100 + vc * 2 ^ 98 + b2n mc * 2 ^ 97 + b2n first * 2 ^ 96
    + stream * 2 ^ 88 + seq % 65536 * 2 ^ 72 + gen % 65536 * 2 ^ 56 + shard % 65536 * 2 ^ 40 + b2n last * 2 ^ 39
    + plen * 2 ^ 31
  BitVec.ofNat 128 (w + hcrc w)

/-- The header of a DATA flit. -/
def mkHdr (dst src vc : Nat) (mc first : Bool) (stream seq gen shard : Nat) (last : Bool) (plen : Nat) : BitVec 128 :=
  typedHdr 0 dst src vc mc first stream seq gen shard last plen

/-- A stream's number in the tables of sequence numbers. -/
def streamNo (src : Nat) (mc : Bool) (dst stream : Nat) : Nat := ((src * 2 + b2n mc) * 4096 + dst) * 16 + stream

/-- A control, time or link flit for an engine: 236 bytes of content and their CRC-32C, on the stream of `CTRL` (R302, R303). -/
def State.ctrlFlit (s : State) (dst ftype : Nat) (content : List Byte) : Flit × State :=
  let k := streamNo 0 false dst 0
  let q := tget 0 s.fab.txSeq k
  let c := fit 0 236 content
  (⟨typedHdr ftype dst s.dev 0 false true 0 q 0 0 true 240, c ++ leBytes 4 (crc32c c)⟩,
    { s with fab.txSeq := tset 0 s.fab.txSeq k ((q + 1) % 65536) })

/-- One flit that leaves on a port (R327). -/
def State.emitFlit (s : State) (p : Nat) (o : Out) : State := (s.emit o).count (kTether p 3) 1

/-- A control, time or link flit sent on a port, recorded with what it says. -/
def State.emitCtrl (s : State) (p dst ftype : Nat) (content : List Byte) (o : Flit → Out) : State :=
  let (f, s) := s.ctrlFlit dst ftype content
  s.emitFlit p (o f)

/-- The destination of a flit for the neighbour on a port; 0 while its address is not known (log entry 22). -/
def State.nextAddr (s : State) (p : Nat) : Nat := (s.portAddr p).getD 0

/-- A link flit: 0 the version exchange, 1 the neighbour exchange. -/
def State.sendLink (s : State) (p kind : Nat) (body : List Nat) : State :=
  s.emitCtrl p (s.nextAddr p) 3 (Config.content kind body) fun f => .ctrl p f kind body

/-- A control flit sent towards an address, but by an engine whose address conflicts (R310): 2 multicast acknowledgement, 3 prune
notice, 4 resend request or request for the sectors of a replica (R317), 5 re-map or return index, 6 switch ready report, 7 switch
index, 8 ripcord arm. -/
def State.sendCtrl (s : State) (a kind : Nat) (body : List Nat) : State :=
  if s.fab.conflict then s
  else match s.routeTo a with
    | some p => s.emitCtrl p a 1 (Config.content kind body) fun f => .ctrl p f kind body
    | none => s

/-- A record sent on a port (R309). -/
def State.sendLsr (s : State) (p : Nat) (r : Lsr) : State :=
  s.emitCtrl p (s.nextAddr p) 1
    (Config.content 9 ([(r.addr.map (· + 1)).getD 0, r.uid, r.seq, r.quality, b2n r.fixed, r.links.length]
      ++ r.links.flatMap (fun l => [l.1, l.2.1, l.2.2]) ++ r.watch)) fun f => .lsr p f r

/-- Fabric time sent on a port (R319). -/
def State.sendTime (s : State) (p : Nat) (t : TimeFlit) : State :=
  s.emitCtrl p (s.nextAddr p) 2 (Config.content 10 [t.tstamp, t.rate, t.quantum, t.root, t.quality, t.hops, t.delay]) fun f => .time p f t

/-- A heartbeat's payload (R320). -/
def hbBytes (h : Heartbeat) : List Byte :=
  leBytes 8 h.qindex ++ leBytes 1 h.run ++ leBytes 1 (b2n h.notServing + h.quality % 8 * 2) ++ leBytes 4 h.lsrSeq
    ++ (fit 0 8 ((h.servingFor.take 8).map fun a => 2 ^ 31 + a % 4096)).flatMap (leBytes 4)

/-- A heartbeat sent to an engine by a port (R320). -/
def State.sendBeat (s : State) (p a : Nat) (h : Heartbeat) : State :=
  s.emitCtrl p a 1 (hbBytes h) fun f => .heartbeat p f h

end Sys2Proof.Machine
end

