-- ==== Sys2Proof/Machine/Store.lean ====
section
/-!
DEFINITION. The weight store: the page map, reads, programs, erases, spares, relocation and the map's journal
(R352 to R375), and what an unreadable model sector does (R298).
-/

namespace Sys2Proof.Machine

/-! ### Geometry (R352 to R354) -/

/-- The stack of a physical or a logical sector. -/
def stackOf (p : Nat) : Nat := p / 8388608 % 2

/-- The bank of a physical sector. -/
def bankOf (p : Nat) : Nat := 16 * stackOf p + p % 16

/-- Logical sectors that the page map maps: all but the reserve (R353). -/
def mapped (l : Nat) : Bool := decide (l < 8257536) || decide (8388608 ≤ l ∧ l < 16646144)

/-- The physical sector of a logical sector on a store that nothing has remapped: the sectors after the system area, in
order (DESIGN CHOICE, log entry 8). -/
def homePhys (l : Nat) : Nat := stackOf l * 8388608 + 32768 + l % 8388608

/-- The page-map entry of a logical sector (R355). -/
def State.ent (s : State) (l : Nat) : MapEnt :=
  (tfind s.store.map l).getD
    (if s.store.loaded && mapped l then ⟨homePhys l, .erased, false⟩ else ⟨0, .unmapped, false⟩)

def State.setEnt (s : State) (l : Nat) (e : MapEnt) : State := { s with store.map := tput s.store.map l (some e) }

/-- The partitions (R353), numbered as `REFORMAT` numbers them, CONFIG as 0 (R413; log entry 8). -/
def partitionOf (l : Nat) : Option Nat :=
  if l < 256 then some 0
  else if l < 65792 then some 1
  else if l < 82176 then some 2
  else if l < 8257536 ∨ (8388608 ≤ l ∧ l < 16384000) then some 3
  else if 16384000 ≤ l ∧ l < 16646144 then some 4
  else none

/-- The logical sectors of a partition, as first sectors and counts. -/
def partRanges (n : Nat) : List (Nat × Nat) :=
  match n with
  | 0 => [(0, 256)]
  | 1 => [(256, 65536)]
  | 2 => [(65792, 16384)]
  | 3 => [(82176, 8175360), (8388608, 7995392)]
  | 4 => [(16384000, 262144)]
  | _ => []

/-! ### Cells -/

def ones64 : DWord := BitVec.ofNat 64 (2 ^ 64 - 1)

def State.sector (s : State) (p : Nat) : Sector := tget .reset s.nv.sectors p
def State.setSector (s : State) (p : Nat) (x : Sector) : State :=
  { s with nv.sectors := tset .reset s.nv.sectors p x }

def Sector.word (x : Sector) (i : Nat) : DWord := tget ones64 x.words i
def Sector.bytes (x : Sector) : List Byte := (List.range 512).flatMap fun i => leBytes 8 (x.word i).toNat

/-- A codeword of 64 words is closed (R360). -/
def Sector.isClosed (x : Sector) (c : Nat) : Bool := x.closed.testBit c

/-- At least one codeword of the sector is open (R355). -/
def Sector.isOpen (x : Sector) : Bool := decide (x.closed % 256 ≠ 255)

/-- A word programmed: bits are only cleared (R360). -/
def Sector.prog (x : Sector) (i : Nat) (w : DWord) : Sector :=
  { x with words := tset ones64 x.words i (x.word i &&& w), done := x.done ||| 2 ^ i }

/-- Codeword `c` closed where every one of its words has been programmed, or where `force` asks for it. -/
def Sector.close (x : Sector) (c : Nat) (force : Bool) : Sector :=
  if force ∨ x.done / 2 ^ (64 * c) % 2 ^ 64 = 2 ^ 64 - 1 then { x with closed := x.closed ||| 2 ^ c } else x

/-- The sector erased: all ones, and its erase count one higher; its header keeps the logical number and the sequence (R363,
R367). -/
def Sector.erase (x : Sector) : Sector := { Sector.reset with ecount := x.ecount + 1, logical := x.logical, seq := x.seq }

def progAll : Sector → Nat → List DWord → Sector
  | x, _, [] => x
  | x, i, w :: r => progAll (x.prog i w) (i + 1) r

def allOnes : List Byte := (List.range 4096).map fun _ => BitVec.ofNat 8 255

/-! ### Spares and the map (R354, R367, R369) -/

/-- A bank's spare pool when new: the sectors beyond those that mapped sectors take (R354). -/
def newPool (b : Nat) : List Nat :=
  (List.range 6144).map fun i => b / 16 * 8388608 + 8290304 + 16 * i + b % 16

def State.pool (s : State) (b : Nat) : List Nat := (tfind s.nv.pools b).getD (newPool b)
def State.setPool (s : State) (b : Nat) (l : List Nat) : State := { s with nv.pools := tput s.nv.pools b (some l) }

/-- A physical sector returns to its bank's pool. -/
def State.toPool (s : State) (p : Nat) : State := s.setPool (bankOf p) (s.pool (bankOf p) ++ [p])

/-- An erased spare of a bank leaves its pool; which one is the controller's choice, and free (log entry 3). A pool that
falls below 256 says so once (R369). -/
def State.takeSpare (s : State) (b : Nat) : Option Nat × State :=
  match s.pool b with
  | [] => (none, s)
  | x :: r =>
    let (n, s) := s.take
    let l := x :: r
    let p := nth x l (Config.freeChoice n % l.length)
    let s := s.setPool b (l.erase p)
    if l.length - 1 < 256 ∧ ¬ s.store.lowSaid.contains b then
      (some p, { s with store.lowSaid := b :: s.store.lowSaid }.raise evStoreSparesLow [])
    else (some p, s)

def State.journalOf (s : State) (t : Nat) : List JRec := tget [] s.nv.journal t
def State.setJournal (s : State) (t : Nat) (l : List JRec) : State := { s with nv.journal := tset [] s.nv.journal t l }
def State.intentsOf (s : State) (t : Nat) : List Intent := tget [] s.nv.intents t
def State.setIntents (s : State) (t : Nat) (l : List Intent) : State := { s with nv.intents := tset [] s.nv.intents t l }

/-- A change of mapping: the journal record first, then the entry, and the number and sequence in the sector's header
(R367). -/
def State.commit (s : State) (l : Nat) (e : MapEnt) : State :=
  let t := stackOf l
  let q := tget 0 s.nv.jseq t + 1
  let s : State := { s with nv.jseq := tset 0 s.nv.jseq t q }
  let s := s.setJournal t (s.journalOf t ++ [⟨l, e.phys, e.st == .retired, q⟩])
  (if e.st = .retired then s else s.setSector e.phys { s.sector e.phys with logical := l, seq := q }).setEnt l e

/-- A physical sector retired; the logical sector that maps to it takes an erased spare, or goes to RETIRED (R369). -/
def State.retirePhys (s : State) (p : Nat) (l : Option Nat) : State :=
  let s := ({ s with nv.retiredList := s.nv.retiredList ++ [p] }.count (kStack (stackOf p) 7) 1).raise evStoreSectorRetired []
  match l with
  | none => s
  | some l =>
    match s.takeSpare (bankOf p) with
    | (some q, s) => s.commit l ⟨q, .erased, false⟩
    | (none, s) => s.commit l ⟨0, .retired, false⟩

/-- The lowest erase count among a list of physical sectors, and a sector that has it. -/
def State.leastWorn (s : State) : List Nat → Option (Nat × Nat)
  | [] => none
  | p :: r =>
    match State.leastWorn s r with
    | none => some ((s.sector p).ecount, p)
    | some (c, q) => if (s.sector p).ecount ≤ c then some ((s.sector p).ecount, p) else some (c, q)

/-- What follows an erase of physical sector `p` (R363, R369): the counts, the wear warning, retirement at 20,000, and
the swap with a spare less worn by more than 2,000. `l` is the logical sector that maps to it. -/
def State.erased (s : State) (p : Nat) (l : Option Nat) : State :=
  let x := s.sector p
  let s := (s.setSector p x.erase).count (kBank (bankOf p) 3) 1
  let n := x.ecount + 1
  let s := if n = 18000 then s.raise evStoreWearWarn [] else s
  if 20000 ≤ n then s.retirePhys p l
  else
    match l with
    | none => s.toPool p
    | some l =>
      match s.leastWorn (s.pool (bankOf p)) with
      | some (c, q) =>
        if c + 2000 < n then
          ((s.setPool (bankOf p) ((s.pool (bankOf p)).erase q)).toPool p).commit l ⟨q, .erased, false⟩
        else s.setEnt l ⟨p, .erased, false⟩
      | none => s.setEnt l ⟨p, .erased, false⟩

/-! ### Banks and their requests (R352, R360 to R365) -/

/-- The `LOGICAL` field of an erase of a physical sector that no logical one maps to (R365). -/
def noLogical : Nat := 0xFFFFFF

def State.last (s : State) (r : StoreRes) : State := { s with store.last := r }

/-- The check of every word of a program request against the present contents: ST_CW_CLOSED, ST_NOT_ERASED or none
(R360). -/
def progCheck (x : Sector) (allowClear : Bool) (first : Nat) (data : List DWord) : Nat :=
  let ws := (List.range data.length).zip data
  if ws.any fun p => x.isClosed ((first + p.1) / 64) then 3
  else if ws.any fun p => x.word (first + p.1) != ones64
      && !(allowClear && (p.2 &&& x.word (first + p.1)) == p.2) then 2
  else 0

/-- The store takes no new program or erase: a warm reset drains the engine, or a shutdown has drained it (R21, R23). -/
def State.storeDrained (s : State) : Bool := s.run.resetting.isSome || decide (2 ≤ s.run.shut)

def State.answer (s : State) (status : Nat) : State := s.last ⟨status, false, false, false, 0, []⟩

def State.bank (s : State) (b : Nat) : Bank := tget .reset s.store.banks b
def State.setBank (s : State) (b : Nat) (k : Bank) : State := { s with store.banks := tset .reset s.store.banks b k }

/-- An erase begins: its intent record, then the entry in ERASING (R365). -/
def State.beginErase (s : State) (b : Nat) (j : BankJob) (p : Nat) : State :=
  let t := stackOf p
  let q := tget 0 s.nv.iseq t + 1
  let rec_ : Intent := ⟨q, (s.sector p).ecount, p, j.logical, false⟩
  let s : State := { s with nv.iseq := tset 0 s.nv.iseq t q }
  let s := s.setIntents t ((s.intentsOf t).filter (fun r => !r.done) ++ [rec_])
  let s := if j.logical ≠ noLogical then s.setEnt j.logical { s.ent j.logical with st := .erasing } else s
  let k := s.bank b
  (s.setBank b { k with job := some { j with phys := p, intent := q }, serial := k.serial + 1 }).traceBegin (192 + b)
    (2 * 2 ^ 14 + k.serial % 2 ^ 14) j.logical

/-- A program begins: its first step. -/
def State.beginProg (s : State) (b : Nat) (j : BankJob) (p : Nat) : State :=
  let k := s.bank b
  (s.setBank b { k with job := some { j with phys := p }, serial := k.serial + 1 }).traceBegin (192 + b)
    (2 ^ 14 + k.serial % 2 ^ 14) j.logical

/-- The next request of a bank starts, if the bank is idle; one that is refused or has nothing to do ends at once. By the
list of those queued. -/
def State.nextJob (s : State) (b : Nat) : List BankJob → State
  | [] => s.setBank b { s.bank b with queue := [] }
  | j :: r =>
    let s := s.setBank b { s.bank b with queue := r }
    if j.erase then
      if j.logical = noLogical then s.beginErase b j j.phys
      else
        match (s.ent j.logical).st with
        | .erased => State.nextJob (s.answer 0) b r
        | .retired => State.nextJob (s.answer 5) b r
        | .unmapped => State.nextJob (s.answer 8) b r
        | .erasing => State.nextJob s b r
        | _ => s.beginErase b j (s.ent j.logical).phys
    else
      let p := (s.ent j.logical).phys
      if (s.ent j.logical).st = .retired then State.nextJob (s.answer 5) b r
      else
        match progCheck (s.sector p) j.allowClear j.first j.data with
        | 0 => if j.data = [] then State.nextJob (s.answer 0) b r else s.beginProg b j p
        | e => State.nextJob ((s.answer e).count (kStack (stackOf p) 4) 1) b r

/-- An idle bank starts its next request, unless the store drains (R23). -/
def State.startJobs (s : State) (b : Nat) : State :=
  match (s.bank b).job with
  | none => if s.storeDrained then s else s.nextJob b (s.bank b).queue
  | some _ => s

/-- The words of the next step of a program: to the end of the row (R352, R360). -/
def stepLen (j : BankJob) : Nat := min j.data.length (16 - j.first % 16)

/-- A step programs its words, and closes the codewords that are complete or that a SEAL request leaves. -/
def Sector.step (x : Sector) (j : BankJob) : Sector :=
  let n := stepLen j
  let c := j.first / 64
  let x := progAll x j.first (j.data.take n)
  x.close c (j.sealCw && decide (j.data.length = n ∨ (j.first + n) / 64 ≠ c))

/-- The intent record of an erase marked done (R365). -/
def State.intentDone (s : State) (t q : Nat) : State :=
  s.setIntents t ((s.intentsOf t).map fun r => if r.seq = q then { r with done := true } else r)

/-- A bank's program carried to its end, step by step; by fuel. -/
def progSteps : Nat → BankJob → Sector → Sector
  | 0, _, x => x
  | f + 1, j, x =>
    if j.data = [] then x else progSteps f { j with first := j.first + stepLen j, data := j.data.drop (stepLen j) } (x.step j)

/-- The request that a bank works at ends, its verify sound. -/
def State.finishJob (s : State) (b : Nat) : State :=
  match (s.bank b).job with
  | none => s
  | some j =>
    let s := s.setBank b { s.bank b with job := none }
    if j.erase then
      (State.erased (s.intentDone (stackOf j.phys) j.intent) j.phys (if j.logical ≠ noLogical then some j.logical else none)).answer 0
    else
      let s := if (s.ent j.logical).st = .erased then s.setEnt j.logical ⟨j.phys, .written, false⟩ else s
      ((s.setSector j.phys (progSteps 33 j (s.sector j.phys))).count (kBank b 2) j.data.length).answer 0

/-- The requests of a bank carried to their end, by fuel: the control complex, which writes in one step, comes after those that the bank
has accepted (R352, R363; log entry 9). -/
def State.settleF (b : Nat) : Nat → State → State
  | 0, s => s
  | f + 1, s => if (s.bank b).job.isNone && (s.bank b).queue == [] then s else State.settleF b f ((s.finishJob b).startJobs b)

def State.settleBank (s : State) (b : Nat) : State :=
  if s.storeDrained then s else State.settleF b ((s.bank b).queue.length + 1) s

/-- An erase of the control complex: its intent record, the erase with its verify, and the record marked done (R363, R365). -/
def State.eraseNow (s : State) (p l : Nat) : State :=
  let t := stackOf p
  let q := tget 0 s.nv.iseq t + 1
  let s : State := { s with nv.iseq := tset 0 s.nv.iseq t q }
  let s := s.setIntents t ((s.intentsOf t).filter (fun r => !r.done) ++ [⟨q, (s.sector p).ecount, p, l, false⟩])
  ((s.setEnt l { s.ent l with st := .erasing }).erased p (some l)).intentDone t q

/-! ### Writers inside the engine -/

/-- A whole sector written by the control complex: erased where it is not, then programmed and sealed; in one step, after what its
bank was at (log entry 9). -/
def State.writeSector (s : State) (l : Nat) (bytes : List Byte) : State :=
  if (s.ent l).st = .unmapped ∨ (s.ent l).st = .retired then s
  else
    let s := s.settleBank (bankOf (s.ent l).phys)
    let e := s.ent l
    let s := if e.st = .erased ∨ e.st = .retired then s else s.eraseNow e.phys l
    let p := (s.ent l).phys
    if (s.ent l).st = .retired then s
    else
      let x := progAll (s.sector p) 0 (dwords (fit 0 4096 bytes))
      ((s.setSector p { x with closed := 255, logical := l }).setEnt l ⟨p, .written, false⟩).count (kBank (bankOf p) 2) 512

/-- A logical sector freed and erased by the control complex, where it holds anything. -/
def State.eraseLogical (s : State) (l : Nat) : State :=
  let busy := (s.ent l).st ≠ .unmapped ∧ (s.ent l).st ≠ .retired ∧ ((s.bank (bankOf (s.ent l).phys)).job.isSome)
  let s := if busy then s.settleBank (bankOf (s.ent l).phys) else s
  match (s.ent l).st with
  | .written => s.eraseNow (s.ent l).phys l
  | .refresh => s.eraseNow (s.ent l).phys l
  | .poisoned => s.eraseNow (s.ent l).phys l
  | .erasing => s
  | .erased => s
  | .unmapped => s
  | .retired => s

/-- The bytes of a logical sector as a sound read returns them. -/
def State.sectorBytes (s : State) (l : Nat) : List Byte :=
  match (s.ent l).st with
  | .written => (s.sector (s.ent l).phys).bytes
  | .refresh => (s.sector (s.ent l).phys).bytes
  | .poisoned => (s.sector (s.ent l).phys).bytes
  | .erased => allOnes
  | .erasing => allOnes
  | .unmapped => allOnes
  | .retired => allOnes

/-! ### Unreadable model sectors (R298) -/

/-- Directory entries whose layers lie in a logical sector. -/
def State.usersOf (s : State) (l : Nat) : List Nat :=
  (s.nv.dir.filter fun p => p.2.model != 0 && p.2.layers.any fun y => y.spilled == 0 && y.sectors.contains l).map (·.1)

/-- A generation that refers to a sector has a replica peer (R298). -/
def State.hasReplica (s : State) (l : Nat) : Bool :=
  (s.usersOf l).any fun x => match s.dirEnt x with | some d => d.replica.isSome | none => false

/-- The request for a sector of a replica to the peers that hold one (R258, R298, R317). -/
def State.askReplica (s : State) (l : Nat) : State :=
  (s.usersOf l).foldl (fun s x =>
    match s.dirEnt x with
    | some d => (match d.replica with | some a => s.sendCtrl a 4 [0, l] | none => s)
    | none => s) s

/-- A sector that stays unreadable: asked for and rewritten from the replica peer where a generation has one and it answered;
otherwise every generation that refers to it degrades at the next boundary, and the event lists them. -/
def State.unreadable (s : State) (l : Nat) (replica : List Byte) : State :=
  let u := s.usersOf l
  if u = [] then s
  else
  let s := s.askReplica l
  if s.hasReplica l ∧ replica.length = 4096 then s.writeSector l replica
  else
    { s with model.degradeNext := s.model.degradeNext ++ u.filter fun x => !s.model.degradeNext.contains x }.raise
      evModelDegraded (u.flatMap fun x => match s.dirEnt x with | some d => [(4, d.model), (2, d.gen)] | none => [])

/-- A sector whose block is poisoned counts as unreadable (R270). -/
def State.poison (s : State) (l : Nat) : State :=
  if (s.ent l).st = .written ∨ (s.ent l).st = .refresh ∨ (s.ent l).st = .poisoned then
    s.setEnt l { s.ent l with st := .poisoned, preq := true } else s

/-! ### Reads (R357 to R359) -/

/-- The threshold `ECC_WARN` of `SPARAM` (R372). -/
def State.sparam (s : State) : DWord := nth 0 s.cfg.protect 0

/-- A read makes an erase that runs with auto-suspend suspend (R364). -/
def State.suspend (s : State) (b : Nat) : State :=
  let k := tget .reset s.store.banks b
  match k.job with
  | some j =>
    let auto := s.run.st == .run || ((s.run.st == .maintenance || s.run.st == .shutdown) && flag s.sparam 57)
    if j.erase && !j.suspended && auto then
      { s with store.banks := tset .reset s.store.banks b { k with job := some { j with suspended := true } } }.count
        (kBank b 4) 1
    else s
  | none => s

/-- The words of the codewords that are returned as the cells read, errors and all. -/
def rawBytes (n : Nat) (cws : List Nat) (x : Sector) : List Byte :=
  (List.range 512).flatMap fun i =>
    leBytes 8 (if cws.contains (i / 64) then Config.freeRaw n i else x.word i).toNat

/-- A read of a logical sector under the errors its cells show: the answer, and its effects (R358, R359). -/
def State.readSector (s : State) (l : Nat) (env : CellEnv) : StoreRes × State :=
  let e := s.ent l
  match e.st with
  | .unmapped => (⟨8, false, false, false, 0, []⟩, s)
  | .retired => (⟨5, false, false, true, 0, []⟩, s)
  | .erased => (⟨0, false, false, false, 0, allOnes⟩, s)
  | .erasing => (⟨0, false, false, false, 0, allOnes⟩, s)
  | _ =>
    let p := e.phys
    let t := stackOf p
    let x := s.sector p
    let closed := (List.range 8).filter x.isClosed
    let opened := (List.range 8).filter fun c => !x.isClosed c && nth 0 env.errs c != 0
    let errs := closed.map (nth 0 env.errs)
    let bad := closed.any fun c => decide (40 < nth 0 env.errs c)
    let retry := bad || e.st == .poisoned
    let fixed := closed.all fun c => decide (nth 0 env.retryErrs c ≤ 40)
    let ok := if retry then fixed && !e.preq else true
    let corr := (if retry && fixed then closed.map (nth 0 env.retryErrs) else errs).filter fun n => decide (n ≤ 40)
    let raw := if retry && !fixed then opened ++ closed.filter fun c => decide (40 < nth 0 env.retryErrs c) else opened
    let cb := maxN corr
    let serialOf := (tget .reset s.store.banks (bankOf p)).serial
    let s := { s with store.banks := tmod .reset s.store.banks (bankOf p) fun k => { k with serial := k.serial + 1 } }
    let s := (s.suspend (bankOf p)).traceBegin (192 + bankOf p) (serialOf % 2 ^ 14) l
    let s := s.counts [(kBank (bankOf p) 0, 1), (kBank (bankOf p) 1, 4096), (kStack t 0, sumN corr)]
    let s := if bad then (s.setEnt l { e with st := .poisoned }).count (kStack t 2) 1 else s
    let s :=
      if retry then
        if ok then (s.setEnt l { e with st := .refresh }).count (kStack t 3) 1
        else if bad && !fixed then
          let (n, s) := s.take
          s.raise evStoreUncorrectable [(4, l), (1, (partitionOf l).getD (Config.freeChoice n))]
        else s
      else s
    let warn := ok && decide (fld s.sparam 63 58 ≤ cb)
    let s := if warn then (s.raise evStoreEccWarn []).count (kStack t 1) 1 else s
    let s := if warn && (s.ent l).st == .written then s.setEnt l { e with st := .refresh } else s
    let (n, s) := s.take
    let status := if ok then 0 else 1
    let s := s.traceEnd (192 + bankOf p) 1 (serialOf % 2 ^ 14) (status * 2 ^ 26 + Config.freeCycles n % 2 ^ 26)
    (⟨status, x.isOpen, retry && ok, !ok, cb, rawBytes n raw x⟩, s)

/-- A read by a requester: where it stays unreadable, R298 applies. -/
def State.readFor (s : State) (l : Nat) (env : CellEnv) : StoreRes × State :=
  let (r, s) := s.readSector l env
  (r, if r.poison then s.unreadable l env.replica else s)

/-- A read of a sector waits: its bank is in a program step, or in an erase that does not suspend itself for reads (R352, R364). -/
def State.readWaits (s : State) (l : Nat) : Bool :=
  match (s.ent l).st, (s.bank (bankOf (s.ent l).phys)).job with
  | .unmapped, _ => false
  | .retired, _ => false
  | .erased, _ => false
  | .erasing, _ => false
  | _, none => false
  | _, some j =>
    let auto := s.run.st == .run || ((s.run.st == .maintenance || s.run.st == .shutdown) && flag s.sparam 57)
    !j.erase || !(j.suspended || auto)

/-- A read that a requester issued: its answer now, or once its bank is free for it. -/
def State.issueRead (s : State) (l : Nat) (env : CellEnv) : State :=
  if s.readWaits l then
    let b := bankOf (s.ent l).phys
    s.setBank b { s.bank b with reads := (s.bank b).reads ++ [(l, env)] }
  else let (r, s) := s.readFor l env; s.last r

/-- Up to `n` of the reads that wait at a bank are served, in the order received (R364). -/
def State.serveReads (s : State) (b n : Nat) : State :=
  let l := (s.bank b).reads
  (l.take n).foldl (fun s p => let (r, s) := s.readFor p.1 p.2; s.last r) (s.setBank b { s.bank b with reads := l.drop n })

/-- Every read that waits at a bank. -/
def State.serveAll (s : State) (b : Nat) : State :=
  if (s.bank b).reads = [] then s else s.serveReads b (s.bank b).reads.length

/-- Banks that have fallen idle serve the reads that wait. -/
def State.serveIdle (s : State) : State :=
  (s.store.banks.filter fun p => p.2.job.isNone && p.2.reads != []).foldl (fun s p => s.serveAll p.1) s

/-- `STORE_READ` (R352, R358, R359, R364). -/
def execStoreRead (sector : Nat) (env : CellEnv) (s : State) : Res :=
  inUnit sector 16777216 (s.issueRead sector env)

/-- `PATROL_READ` (R370): each WRITTEN sector is read under R358. -/
def execPatrolRead (sector : Nat) (env : CellEnv) (s : State) : Res :=
  inUnit sector 16777216 (
    if (s.ent sector).st = .written then s.issueRead sector env else s)

/-- `POISON_REPORT` (R359). -/
def execPoisonReport (sector : Nat) (s : State) : Res :=
  inUnit sector 16777216 (
    let e := s.ent sector
    if e.st = .written ∨ e.st = .refresh ∨ e.st = .poisoned then s.setEnt sector { e with st := .poisoned, preq := true }
    else s)

/-! ### Programs and erases (R360 to R365) -/

/-- A sector is write-protected (R371). -/
def State.protected_ (s : State) (l : Nat) : Bool := s.store.protect.any fun r => decide (r.1 ≤ l ∧ l < r.1 + r.2)

/-- The refusal that R371 and R373 give before the words are checked, and ST_ABORTED where the store drains (R23). -/
def State.storeRefuse (s : State) (l : Nat) (by_ : Requester) : Nat :=
  match (s.ent l).st with
  | .unmapped => 8
  | .retired => 5
  | _ => if by_ = .outside ∧ s.protected_ l then 4 else if s.storeDrained then 9 else 0

def State.enqueue (s : State) (b : Nat) (j : BankJob) : State :=
  (s.setBank b { s.bank b with queue := (s.bank b).queue ++ [j] }).startJobs b

/-- `STORE_PROGRAM_REQUEST` (R360, R361): checked, refused or queued. -/
def execStoreProgramRequest (sector first : Nat) (data : List DWord) (allowClear sealCw : Bool) (by_ : Requester)
    (s : State) : Res :=
  inUnit sector 16777216 (
    match s.storeRefuse sector by_ with
    | 0 =>
      if 512 < first + data.length ∨ 512 ≤ first then s.answer 8
      else
        s.enqueue (bankOf (s.ent sector).phys) ⟨false, sector, (s.ent sector).phys, first, data, sealCw, allowClear, 0, false⟩
    | 4 => (s.answer 4).count (kStack (stackOf sector) 5) 1
    | e => s.answer e)

/-- `PROGRAM_STEP_COMPLETE` (R23, R357, R360, R364): the step's words stand, or its verify failed and the sector is retired. The bank then
serves up to 8 reads that wait before the next step. While the store drains, no further step of the request starts, and it ends with
ST_ABORTED. -/
def execProgramStepComplete (bank : Nat) (verifyOk : Bool) (s : State) : Res :=
  inUnit bank 32 (
    let k := s.bank bank
    match k.job with
    | none => s
    | some j =>
      if j.erase then s
      else
        let n := stepLen j
        let (m, s) := s.take
        let fin (s : State) (st : Nat) := s.traceEnd (192 + bank) 1 (s.gaugeTag (192 + bank))
          (st * 2 ^ 26 + Config.freeCycles m % 2 ^ 26)
        let s := s.count (kBank bank 2) n
        let s := if (s.ent j.logical).st = .erased then s.setEnt j.logical ⟨j.phys, .written, false⟩ else s
        if !verifyOk then
          let s := ((fin s 6).setBank bank { k with job := none }).answer 6
          ((s.retirePhys j.phys (some j.logical)).serveAll bank).startJobs bank
        else
          let s := fin (s.setSector j.phys ((s.sector j.phys).step j)) 0
          let rest := { j with first := j.first + n, data := j.data.drop n }
          if rest.data = [] then (((s.setBank bank { k with job := none }).answer 0).serveAll bank).startJobs bank
          else if s.storeDrained then ((s.setBank bank { k with job := none }).answer 9).serveAll bank
          else (s.serveReads bank 8).beginProg bank rest j.phys)

/-- `STORE_ERASE_REQUEST` (R363, R365). -/
def execStoreEraseRequest (sector : Nat) (by_ : Requester) (s : State) : Res :=
  inUnit sector 16777216 (
    match s.storeRefuse sector by_ with
    | 0 =>
      match (s.ent sector).st with
      | .erased => s.answer 0
      | .erasing => s
      | _ => s.enqueue (bankOf (s.ent sector).phys) ⟨true, sector, (s.ent sector).phys, 0, [], false, false, 0, false⟩
    | 4 => (s.answer 4).count (kStack (stackOf sector) 5) 1
    | e => s.answer e)

/-- `ERASE_COMPLETE` (R23, R363, R365, R369): the erase verifies and the sector is ERASED, or it fails and is retired. A drain has
suspended the erase for good. -/
def execEraseComplete (bank : Nat) (verifyOk : Bool) (s : State) : Res :=
  inUnit bank 32 (
    let k := s.bank bank
    match k.job with
    | none => s
    | some j =>
      if !j.erase ∨ j.suspended ∨ s.storeDrained then s
      else
        let (m, s) := s.take
        let s := s.setBank bank { k with job := none }
        let s := s.intentDone (stackOf j.phys) j.intent
        let l := if j.logical ≠ noLogical then some j.logical else none
        let st := if verifyOk then 0 else 7
        let s := s.traceEnd (192 + bank) 1 (s.gaugeTag (192 + bank)) (st * 2 ^ 26 + Config.freeCycles m % 2 ^ 26)
        let s := if verifyOk then s.erased j.phys l else s.retirePhys j.phys l
        ((s.answer st).serveAll bank).startJobs bank)

/-- `ERASE_RESUME` (R23, R364): the suspended erase resumes, unless a drain suspended it. -/
def execEraseResume (bank : Nat) (s : State) : Res :=
  inUnit bank 32 (
    let k := s.bank bank
    match k.job with
    | none => s
    | some j =>
      if j.erase ∧ !s.storeDrained then s.setBank bank { k with job := some { j with suspended := false } } else s)

/-! ### Relocation and checkpoints (R367, R370) -/

/-- The highest erase count among physical sectors. -/
def State.mostWorn (s : State) (l : List Nat) : Nat := maxN (l.map fun p => (s.sector p).ecount)

/-- A cold sector: its count lies more than 4,000 below the highest in its bank's pool (R370). -/
def State.cold (s : State) (p : Nat) : Bool :=
  decide ((s.sector p).ecount + 4000 < s.mostWorn (s.pool (bankOf p)))

/-- `RELOCATION` (R23, R352, R361, R370): on an idle bank, a REFRESH or cold sector moves to a spare, the mapping is committed, and the old physical
sector's erase is queued. -/
def execRelocation (sector : Nat) (env : CellEnv) (s : State) : Res :=
  inUnit sector 16777216 (
    let e := s.ent sector
    let k := s.bank (bankOf e.phys)
    if k.job = none ∧ k.queue = [] ∧ !s.storeDrained ∧ ¬ s.isolated (128 + stackOf sector) ∧ (e.st = .refresh ∨ (e.st = .written ∧ s.cold e.phys)) then
      let (r, s) := s.readFor sector env
      let s := s.last r
      if r.poison then s
      else
        match s.takeSpare (bankOf e.phys) with
        | (none, s) => s
        | (some q, s) =>
          let x := s.sector e.phys
          let y := { s.sector q with words := x.words, done := x.done, closed := x.closed }
          let s := (s.setSector q y).count (kBank (bankOf q) 2) (popc 512 x.done)
          let s := (s.commit sector ⟨q, .written, false⟩).count (kStack (stackOf q) 6) 1
          s.enqueue (bankOf e.phys) ⟨true, noLogical, e.phys, 0, [], false, false, 0, false⟩
    else s)

/-- Which of a stack's checkpoints is the newer: 0 A, 1 B; none where neither is written (R367). -/
def State.newerCkpt (s : State) (t : Nat) : Option Nat :=
  match tfind s.nv.ckpt (2 * t), tfind s.nv.ckpt (2 * t + 1) with
  | none, none => none
  | some _, none => some 0
  | none, some _ => some 1
  | some a, some b => some (if a.1 < b.1 then 1 else 0)

/-- The newer checkpoint of a stack. -/
def State.ckptOf (s : State) (t : Nat) : Option (Nat × Tab MapEnt) := (s.newerCkpt t).bind fun i => tfind s.nv.ckpt (2 * t + i)

/-- A stack's half of the page map written to its older checkpoint; the journal that both then contain is done with (R367). -/
def State.checkpoint (s : State) (t : Nat) : State :=
  let i := match s.newerCkpt t with | some 0 => 1 | _ => 0
  let q := tget 0 s.nv.jseq t
  let kept := match s.ckptOf t with | some c => (s.journalOf t).filter fun r => decide (c.1 < r.seq) | none => s.journalOf t
  { s with nv.ckpt := tput s.nv.ckpt (2 * t + i) (some (q, s.store.map.filter fun p => stackOf p.1 == t)) }.setJournal t kept

/-- `CHECKPOINT_WRITE` (R367). -/
def execCheckpointWrite (stack : Nat) (s : State) : Res := inUnit stack 2 (s.checkpoint stack)

end Sys2Proof.Machine
end

