-- ==== Sys2Proof/Machine/Flank.lean ====
section
/-!
DEFINITION. The arrays and their flanks: descriptors, the quantiser, passes, conversion, correction, reduction,
activation, pooling and results (R101 to R139, R171, R176, R235).
-/

namespace Sys2Proof.Machine

/-! ### Layer descriptors (R107, R142 to R146, R167, R175) -/

/-- `QCTL` at the Reset values of R107, which go by the layer. -/
def qctlReset (layer : Nat) : DWord :=
  BitVec.ofNat 64 (2 ^ 31 + b2n (layer == 0) * 2 ^ 30 + 3 * 2 ^ 24 + 2 ^ 22 + b2n (decide (layer ≤ 2)) * 2 ^ 20 + 4 * 2 ^ 8 + 4)
/-- `LGEOM`, `LCONV`, `LENV` and `LREPAIR` at their Reset values (R142, R143, R167, R175). -/
def lgeomReset : DWord := BitVec.ofNat 64 (3 * 2 ^ 55)
def lconvReset : DWord := BitVec.ofNat 64 (4 * 2 ^ 43 + 4 * 2 ^ 40 + 4 * 2 ^ 32 + 2 ^ 31)
def lenvReset : DWord :=
  BitVec.ofNat 64 (2 ^ 63 + 7 * 2 ^ 56 + 4 * 2 ^ 52 + 8 * 2 ^ 47 + 48 * 2 ^ 40 + 8 * 2 ^ 36 + 64 * 2 ^ 28 + 4096)
def lrepairReset : DWord := BitVec.ofNat 64 (2 ^ 63 + 3 * 2 ^ 61 + 16 * 2 ^ 48 + 4 * 2 ^ 44 + 66 * 2 ^ 36)
/-- A layer descriptor where the placement gives none: every word at its Reset values (R141). -/
def descReset : List DWord := [qctlReset 0, lgeomReset, lconvReset, 0, 0, 0, lenvReset, lrepairReset]
def Arr.desc (x : Arr) (d : Nat) : List DWord := tget descReset x.descs d
/-- The placement gives a descriptor of this number. -/
def Arr.hasDesc (x : Arr) (d : Nat) : Bool := (tfind x.descs d).isSome
def ldW (l : List DWord) (i : Nat) : DWord := nth 0 l i
def qcInit (l : List DWord) : Nat := fld (ldW l 0) 63 48
def qcSigned (l : List DWord) : Bool := flag (ldW l 0) 31
def qcExact (l : List DWord) : Bool := flag (ldW l 0) 30
def qcLook (l : List DWord) : Nat := fld (ldW l 0) 29 27
def qcDepth (l : List DWord) : Nat := fld (ldW l 0) 26 24 + 1
/-- The headroom factor as a fraction. -/
def qcHead (l : List DWord) : Nat × Nat :=
  match fld (ldW l 0) 23 22 with | 0 => (1, 1) | 1 => (5, 4) | 2 => (3, 2) | _ => (2, 1)
def qcPolicy (l : List DWord) : Nat := fld (ldW l 0) 21 20
def qcFlatQ (l : List DWord) : Bool := flag (ldW l 0) 19
def qcSatFrac (l : List DWord) : Nat := fld (ldW l 0) 15 8
def qcSatEvt (l : List DWord) : Nat := fld (ldW l 0) 7 0
/-- The zero point and the code limit (R101). -/
def qcZ (l : List DWord) : Nat := if qcSigned l then 128 else 0
def qcN (l : List DWord) : Nat := if qcSigned l then 127 else 255
def lgPlane (l : List DWord) : Nat := fld (ldW l 1) 63 60
def lgFold (l : List DWord) : Nat := 2 ^ fld (ldW l 1) 59 57
def lgWin (l : List DWord) : Nat := 256 * 2 ^ fld (ldW l 1) 56 55
def lgRow (l : List DWord) : Nat := fld (ldW l 1) 54 44
def lgK (l : List DWord) : Nat := fld (ldW l 1) 43 28 + 1
def lgCol (l : List DWord) : Nat := fld (ldW l 1) 27 17
def lgC (l : List DWord) : Nat := fld (ldW l 1) 16 6 + 1
def lcRole (l : List DWord) : Nat := fld (ldW l 2) 63 62
def lcJoin (l : List DWord) : Nat := fld (ldW l 2) 61 56
def lcTiles (l : List DWord) : Nat := fld (ldW l 2) 55 46 + 1
/-- Base range code of a cell type: 0 lo, 1 hi (R128). -/
def lcRange (l : List DWord) (t : Nat) : Nat := if t = 1 then fld (ldW l 2) 45 43 else fld (ldW l 2) 42 40
def lcThr (l : List DWord) : Nat := fld (ldW l 2) 39 32
def lcAuto (l : List DWord) : Bool := flag (ldW l 2) 31
def lcOut (l : List DWord) : Nat := fld (ldW l 2) 29 16
def lcLayer (l : List DWord) : Nat := fld (ldW l 2) 15 4
def lsSw (l : List DWord) : Nat := fld (ldW l 3) 63 48
def lsOutSc (l : List DWord) : Nat := fld (ldW l 3) 47 32
def lsBias (l : List DWord) : Nat := fld (ldW l 3) 31 16
def lsFmt (l : List DWord) : Nat := fld (ldW l 3) 15 14
def lsBiasEn (l : List DWord) : Bool := flag (ldW l 3) 13
def laFn (l : List DWord) : Nat := fld (ldW l 4) 63 60
def laParam (l : List DWord) : Nat := fld (ldW l 4) 59 52
def laExp (l : List DWord) : Int := sx 6 (fld (ldW l 4) 51 46)
def laOut (l : List DWord) : Int := sx 8 (fld (ldW l 4) 45 38)
def laPool (l : List DWord) : Nat := fld (ldW l 4) 37 36
def laMean (l : List DWord) : Bool := flag (ldW l 4) 35
def laP (l : List DWord) : Nat := fld (ldW l 4) 34 32 + 1
def lrDest (l : List DWord) : Nat := fld (ldW l 5) 63 32
def lrSync (l : List DWord) : Nat := fld (ldW l 5) 31 20
def lrSyncEn (l : List DWord) : Bool := flag (ldW l 5) 19
def leEn (l : List DWord) : Bool := flag (ldW l 6) 63
def leMove (l : List DWord) : Bool := flag (ldW l 6) 62
def leN (l : List DWord) : Nat := fld (ldW l 6) 61 56 + 1
def leAlpha (l : List DWord) : Nat := fld (ldW l 6) 55 52
def leBin (l : List DWord) : Nat := fld (ldW l 6) 51 47
def leMean (l : List DWord) : Nat := fld (ldW l 6) 46 40
def leVar (l : List DWord) : Nat := fld (ldW l 6) 39 36
def leHist (l : List DWord) : Nat := fld (ldW l 6) 35 28
def leLearn (l : List DWord) : Nat := fld (ldW l 6) 15 0
def lpAdapt (l : List DWord) : Bool := flag (ldW l 7) 63
def lpMax (l : List DWord) : Nat := nth 0 [0, 4, 8, 16] (fld (ldW l 7) 62 61)
def lpCore (l : List DWord) : Nat := fld (ldW l 7) 60 55
def lpProbe (l : List DWord) : Nat := fld (ldW l 7) 54 48
/-- The learning rate is 2^-(8 + `ADAPT_LR`) (R172). -/
def lpRate (l : List DWord) : Nat := 8 + fld (ldW l 7) 47 44
def lpFlag (l : List DWord) : Nat := fld (ldW l 7) 43 36
def lpStandin (l : List DWord) : Bool := flag (ldW l 7) 35

/-- Fields of a row header (R194). -/
def rhSlot (h : Nat) : Nat := bf h 127 116
def rhTpos (h : Nat) : Nat := bf h 115 100
def rhPrio (h : Nat) : Nat := bf h 99 98
def rhGen (h : Nat) : Nat := bf h 95 80
def rhScale (h : Nat) : Nat := bf h 79 64
/-- A row header with its scale and first column replaced. -/
def rhOut (h scale col0 : Nat) : Nat := bf h 127 80 * 2 ^ 80 + scale % 2 ^ 16 * 2 ^ 64 + col0 % 2 ^ 16 * 2 ^ 48

/-! ### Tiles (R110, R126, R138, R156, R177) -/

/-- An array serves rows (R156). -/
def Arr.serves (x : Arr) : Bool := x.st == .online || x.st == .stale || x.st == .suspect

/-- The model that a descriptor belongs to, as it was loaded (log entry 15). -/
def State.descModel (s : State) (a d : Nat) : Nat := tget 0 (s.arr a).models d

/-- A plane that is being programmed for a generation not yet active serves no tile (R289, R295). -/
def State.planeServes (s : State) (a d : Nat) : Bool := tget 0 s.nv.alloc (16 * a + lgPlane ((s.arr a).desc d)) != 1

/-- The tile can be evaluated: on its stand-in, or on its array, also where the array's tile waits for a stand-in (R156, R177). -/
def State.tileServed (s : State) (p : Nat × Nat) : Bool :=
  (s.arr p.1).onStandin.contains p.2 || ((s.arr p.1).serves && s.planeServes p.1 p.2)

/-- The tiles of the layer whose single or joining descriptor is `d` of array `a`, ascending array, then plane (R93). -/
def State.tiles (s : State) (a d : Nat) : List (Nat × Nat) :=
  let l := (s.arr a).desc d
  if lcRole l ≠ 2 then [(a, d)]
  else
    s.arrs.flatMap fun p =>
      let own := p.2.descs.filter fun e =>
        (p.1 == a && e.1 == d) ||
        (lcRole e.2 == 1 && lcJoin e.2 == a && lcLayer e.2 == lcLayer l && s.descModel p.1 e.1 == s.descModel a d)
      (sortBy (fun e => lgPlane e.2) own).map fun e => (p.1, e.1)

def State.tileDesc (s : State) (p : Nat × Nat) : List DWord := (s.arr p.1).desc p.2

/-- The single or joining descriptor of the layer that a descriptor belongs to (R138). -/
def State.quantDesc (s : State) (a d : Nat) (l : List DWord) : Nat × Nat :=
  if lcRole l = 1 then
    (lcJoin l, (((s.arr (lcJoin l)).descs.find? fun p =>
      lcRole p.2 == 2 && lcLayer p.2 == lcLayer l && s.descModel (lcJoin l) p.1 == s.descModel a d).map (·.1)).getD 0)
  else (a, d)

/-- The first input row of a tile: the rows of the tiles before it that have its output columns (log entry 16). -/
def State.tileOffset (s : State) (ts : List (Nat × Nat)) (p : Nat × Nat) : Nat :=
  sumN (((ts.takeWhile (· != p)).filter fun q => lcOut (s.tileDesc q) == lcOut (s.tileDesc p)).map fun q =>
    lgK (s.tileDesc q))

/-- Input rows of a layer. -/
def State.layerRows (s : State) (ts : List (Nat × Nat)) (p : Nat × Nat) : Nat :=
  sumN ((ts.filter fun q => lcOut (s.tileDesc q) == lcOut (s.tileDesc p)).map fun q => lgK (s.tileDesc q))

/-- The layer's output columns: one beyond the last. -/
def State.layerCols (s : State) (ts : List (Nat × Nat)) : Nat :=
  maxN (ts.map fun q => lcOut (s.tileDesc q) + lgC (s.tileDesc q))

/-! ### Weights of a tile (R77, R176, R278) -/

/-- Layer fields of `LENTRY` and `LSTORE` in a stored layer entry (R278). -/
def lyEfmt (e : List Byte) : Nat := bf (leAt e 0 8) 49 47
def lyExec (e : List Byte) : Nat := bf (leAt e 0 8) 51 50
def lyK (e : List Byte) : Nat := bf (leAt e 0 8) 43 24 + 1
def lyC (e : List Byte) : Nat := bf (leAt e 0 8) 23 4 + 1
def lyWn (e : List Byte) : Nat := bf (leAt e 40 8) 39 24
def lyAn (e : List Byte) : Nat := bf (leAt e 40 8) 23 12

/-- A stored generation of a model. -/
def State.findEnt (s : State) (model gen : Nat) : Option DirEnt :=
  (s.nv.dir.find? fun p => p.2.model == model && p.2.gen == gen).map (·.2)

/-- A block that the control complex decodes, counted (R272). -/
def State.ccBlock (s : State) (w : WpOut) : State :=
  let up (t : Tab Nat) (i : Nat) : Tab Nat := tset 0 t i (min (tget 0 t i + 1) (2 ^ 64 - 1))
  { s with model.wp := if w.bad = 0 then up s.model.wp 0 else up (up s.model.wp 0) w.bad }

/-- The weight sectors of a stored layer. -/
def DirEnt.weightSectors (e : DirEnt) (layer : Nat) : List Nat :=
  match e.layers[layer]? with
  | none => []
  | some r => if r.spilled = 0 then r.sectors.take (lyWn r.entry) else []

/-! ### Blocks that the control complex reads (R258, R270 to R272, R298) -/

/-- Free packed sectors: what a peer or the host returns without a command that tells it (log entry 3). -/
def freeSectors (f n : Nat) : List Byte := (List.range (512 * n)).flatMap fun j => leBytes 8 (Config.freeRaw f j).toNat

/-- What the cells and the replica peer answer to a read of a sector of which no command tells it: free (log entry 75). -/
def State.freeCells (s : State) (f l : Nat) : CellEnv :=
  ⟨(List.range 8).map (Config.freeCount f), (List.range 8).map fun i => Config.freeCount f (8 + i),
    if s.hasReplica l then freeSectors f 1 else []⟩

/-- A generation that lost a block becomes DEGRADED at the next boundary (R298). -/
def State.degradeEnt (s : State) (x : Nat) : State :=
  if s.model.degradeNext.contains x then s
  else
    let s : State := { s with model.degradeNext := s.model.degradeNext ++ [x] }
    match s.dirEnt x with | some d => s.raise evModelDegraded [(4, d.model), (2, d.gen)] | none => s

/-- A poisoned block counts as an uncorrectable read of its sector: the sound block of the replica peer, if it returned one, takes its
place (R258, R270); whether one did. -/
def State.badBlock (s : State) (l : Nat) (replica : List Byte) : Bool × State :=
  let rep := wpDecode replica
  let asked := decide (replica.length = 4096) && s.hasReplica l
  let s := (s.poison l).unreadable l (if rep.bad = 0 then replica else [])
  (asked && rep.bad == 0, if asked then s.ccBlock rep else s)

/-- A sector of weights that the control complex reads and decodes; false where no sound block of it is to be had, and its models then
degrade as R258 and R298 say (R271, R298). -/
def State.checkBlock (s : State) (v : CellEnv) (l : Nat) : Bool × State :=
  let (r, s) := s.readFor l v
  if r.status = 0 then
    let w := wpDecode r.data
    let s := s.ccBlock w
    if w.bad = 0 then (true, s) else s.badBlock l v.replica
  else
    let rep := wpDecode v.replica
    if v.replica.length = 4096 ∧ s.hasReplica l then (rep.bad == 0, s.ccBlock rep) else (false, s)

/-- What a read of a sector meets: as a command tells it, else free. -/
def State.cellsOf (s : State) (env : Option (List (Nat × CellEnv))) (l : Nat) : CellEnv × State :=
  match env with
  | some t => (((t.find? fun p => p.1 == l).map (·.2)).getD ⟨[], [], []⟩, s)
  | none => let (f, s) := s.take; (s.freeCells f l, s)

/-- Sectors of weights in order. -/
def State.checkBlocks (s : State) (env : Option (List (Nat × CellEnv))) (l : List Nat) : Bool × State :=
  l.foldl (fun b n =>
    let (v, t) := b.2.cellsOf env n
    let r := t.checkBlock v n
    (b.1 && r.1, r.2)) (true, s)

/-- Blocks of tier 5 that arrived for entry `x` (R259, R270). -/
def State.checkFar (s : State) (x : Nat) (l : List (List Byte)) : Bool × State :=
  l.foldl (fun b d =>
    let w := wpDecode d
    if w.bad = 0 then (b.1, b.2.ccBlock w) else (false, (b.2.ccBlock w).degradeEnt x)) (true, s)

/-- The weights of a layer of entry `x`, read and decoded. -/
def State.checkLayer (s : State) (env : Option (List (Nat × CellEnv))) (x : Nat) (e : DirEnt) (layer : Nat) : Bool × State :=
  match e.layers[layer]? with
  | none => (true, s)
  | some r =>
    if r.spilled = 0 then s.checkBlocks env (e.weightSectors layer)
    else s.checkFar x ((Config.tier5 r.entry r.digest).take (lyWn r.entry))

/-- The layers whose tiles its descriptors put on plane `src` of an array for a model. -/
def State.planeLayers (s : State) (a src model : Nat) : List Nat :=
  dedupN (((s.arr a).descs.filter fun p => lgPlane p.2 == src && s.descModel a p.1 == model).map fun p => lcLayer p.2)

/-- The weights of a generation for a plane, read and decoded before a program or a reference uses them (R164, R271, R298). -/
def State.checkPlane (s : State) (env : Option (List (Nat × CellEnv))) (a src model gen : Nat) : Bool × State :=
  match s.nv.dir.find? fun p => p.2.model == model && p.2.gen == gen with
  | none => (true, s)
  | some (x, e) => (s.planeLayers a src model).foldl (fun b y =>
      let r := b.2.checkLayer env x e y
      (b.1 && r.1, r.2)) (true, s)

/-- The auxiliary blocks of a layer of entry `x`. -/
def State.checkAux (s : State) (x : Nat) (e : DirEnt) (layer : Nat) : Bool × State :=
  match e.layers[layer]? with
  | none => (true, s)
  | some r =>
    if r.spilled = 0 then
      ((r.sectors.drop (lyWn r.entry)).take (lyAn r.entry)).foldl (fun b l =>
        let w := wpDecode (b.2.sectorBytes l)
        let s := b.2.ccBlock w
        if w.bad = 0 then (b.1, s)
        else
          let (f, s) := s.take
          let r := s.badBlock l (if s.hasReplica l then freeSectors f 1 else [])
          (b.1 && r.1, r.2)) (true, s)
    else s.checkFar x (((Config.tier5 r.entry r.digest).drop (lyWn r.entry)).take (lyAn r.entry))

/-- The unpacked weight bytes of a layer, from its store sectors or from tier 5 (R259, R268, R278). -/
def State.layerBytes (s : State) (e : DirEnt) (layer : Nat) : List Byte :=
  match e.layers[layer]? with
  | none => []
  | some r =>
    (if r.spilled = 0 then (e.weightSectors layer).map s.sectorBytes
     else (Config.tier5 r.entry r.digest).take (lyWn r.entry)).flatMap fun b => (wpDecode b).bytes

/-- The S8 weight at a row and an output column of a layer with `c` columns. -/
def weightAt (bs : List Byte) (c row col : Nat) : Int := sx 8 ((nth 0 bs (row * c + col)).toNat)

/-- The exact sums of a stand-in for a tile, by its output columns (R176). -/
def State.standinSums (s : State) (p : Nat × Nat) (off gen : Nat) (codes : List Nat) (z : Nat) : List (Nat × Int) :=
  let l := s.tileDesc p
  match s.findEnt (s.descModel p.1 p.2) gen with
  | none => (List.range (lgC l)).map fun c => (lcOut l + c, 0)
  | some e =>
    let bs := s.layerBytes e (lcLayer l)
    let cols := match e.layers[lcLayer l]? with | some r => lyC r.entry | none => lgC l
    (List.range (lgC l)).map fun c =>
      (lcOut l + c, sumI ((List.range (lgK l)).map fun i =>
        ((nth 0 codes i : Nat) - (z : Int)) * weightAt bs cols (off + i) (lcOut l + c)))

/-! ### Values and scales (R104, R106, R127) -/

/-- The values of a row piece by its format; none for a format that a flank does not take (R127). A NaN reads as 0 and an
infinity as the largest finite value, uncounted: R82 says so of cores (log entry 64). -/
def rowVals (fmt scale : Nat) (bcA : Bool) (bs : List Byte) : Option (List Dy) :=
  match fmt with
  | 3 => some ((chunks 2 bs).map fun c => ⟨sx 16 (leNat c) * (scMan scale : Int), scExp scale - 8⟩)
  | 5 => some ((chunks 4 bs).map fun c => ⟨a24Get (leNat c), -23⟩)
  | 6 => some ((chunks 4 bs).map fun c => ⟨sx 32 (leNat c), -23⟩)
  | 8 => some ((chunks 2 bs).map fun c => (fpRead bf16 bcA (leNat c)).val)
  | 9 => some ((chunks 2 bs).map fun c => (fpRead fp16 bcA (leNat c)).val)
  | _ => none

/-- The value of an SC16 code. -/
def scDy (c : Nat) : Dy := ⟨(scMan c : Int), scExp c - 8⟩

/-- The position of a model in a slot's chain; of a model that stands in it twice, the first (DESIGN CHOICE, log entry 79). -/
def State.chainPos (s : State) (slot model : Nat) : Nat := (slModels (s.slotRec slot)).idxOf model

/-- The recorded peaks that a model's first layer takes, newest first (R104). -/
def State.inputPeaks (s : State) (slot model : Nat) : List Dy :=
  let c := s.chainPos slot model
  if c = 0 then (s.slot slot).peaks.map fun (p : Nat) => ⟨(p : Int), -23⟩ else tget [] s.model.peaks (8 * slot + c)

/-- History key of a descriptor and slot. -/
def hKey (d slot : Nat) : Nat := d * 4096 + slot

/-- The eight history entries of a key (R105). -/
def Arr.history (x : Arr) (d slot : Nat) : List Nat :=
  tget (List.replicate 8 (qcInit (x.desc d))) x.hist (hKey d slot)

/-- The peak P of a row (R104, R105, R108). -/
def State.rowPeak (s : State) (a d slot : Nat) : Dy :=
  let x := s.arr a
  let l := x.desc d
  let p := if qcExact l then ((s.inputPeaks slot (s.descModel a d)).take (qcLook l + 1)).foldl Dy.max ⟨0, 0⟩
    else scDy (scMaxL ((x.history d slot).take (qcDepth l)))
  match tfind x.deferP (hKey d slot) with
  | some c => p.max (scDy c)
  | none => p

/-- What the quantiser makes of a row: codes and scale of the first evaluation, those of a rerun, flatness. -/
structure RowQ where
  codes : List Nat
  scale : Nat
  again : Option (List Nat × Nat)
  flat : Bool
  /-- Bytes of the row's values as they lie in the FIFO (R127). -/
  bytes : Nat

/-- Counter of a descriptor and channel class (R113, R472). -/
def kClass (a d cls i : Nat) : Nat := kDesc a d (18 + 6 * cls + i)

/-- The quantiser (R101 to R109, R112, R113): the row's values coded, the misfit decision, the counts, and what enters the
history. -/
def State.quantise (s : State) (a d slot cls bytes : Nat) (vals : List Dy) : RowQ × State :=
  let x := s.arr a
  let l := x.desc d
  let key := hKey d slot
  let mx := (vals.map Dy.abs).foldl Dy.max ⟨0, 0⟩
  let mc := mx.sc16 1 1
  let x : Arr := { x with maxq := tset 0x8000 x.maxq key (scMax (tget 0x8000 x.maxq key) mc) }
  let eq := match vals with
    | [] => true
    | v :: r => r.all fun w => (w.add ⟨-v.man, v.exp⟩).man == 0
  if eq && (!qcFlatQ l || mx.man == 0) then
    (⟨vals.map fun _ => qcZ l, 0x8000, none, true, bytes⟩, (s.setArr a x).count (kClass a d cls 5) 1)
  else
    let h := qcHead l
    let sc := (s.rowPeak a d slot).sc16 h.1 (h.2 * qcN l)
    let cs := vals.map fun v => code8 v sc (qcSigned l)
    let n := (cs.filter (·.2)).length
    let misfit := decide (n * 256 > qcSatFrac l * vals.length)
    let under (c : Nat) := decide (0 < mx.man) && mx.lt ⟨(qcN l * scMan c : Nat), scExp c - 12⟩
    let addSat (x : Arr) (k : Nat) : Arr := { x with satQ := tmod 0 x.satQ (4 * d + cls) (· + k) }
    if misfit && qcPolicy l == 1 then
      let sc2 := mx.sc16 1 (qcN l)
      let cs2 := vals.map fun v => code8 v sc2 (qcSigned l)
      let n2 := (cs2.filter (·.2)).length
      (⟨cs.map (·.1), sc, some (cs2.map (·.1), sc2), false, bytes⟩,
        (s.setArr a (addSat x n2)).counts
          [(kClass a d cls 0, n2), (kClass a d cls 1, n), (kClass a d cls 2, 1)])
    else
      let dfr := misfit && qcPolicy l == 2
      let x := if dfr then { x with deferP := tput x.deferP key (some (match tfind x.deferP key with
        | some c => scMax c mc | none => mc)) } else x
      (⟨cs.map (·.1), sc, none, false, bytes⟩,
        (s.setArr a (addSat x n)).counts
          [(kClass a d cls 0, n), (kClass a d cls 3, b2n dfr), (kClass a d cls 4, b2n (under sc))])

/-! ### Stages 6 to 10 (R133 to R139) -/

/-- Data between the flanks of a tiled layer crosses the mesh: `n` bytes from one array's flank to another's (R110, R138, R180,
R213; log entry 13). -/
def State.flankFlits (s : State) (a b n : Nat) : State :=
  s.counts ((meshPath 15 (flankRouter a) (flankRouter b)).map fun r => (kRouter r 0, flitsOf n))

/-- Key of a row at its joining flank. -/
def joinKey (h d : Nat) : Nat := (rhSlot h * 65536 + rhTpos h) * 1024 + d

/-- Partial sums of one tile, by layer output column, at the joining flank (R138). -/
def State.addPartial (s : State) (ja jd h scale : Nat) (cols : List (Nat × Int)) : State :=
  let x := s.arr ja
  let k := joinKey h jd
  let j := (tfind x.joins k).getD ⟨h, scale, [], [], []⟩
  let got := cols.foldl (fun g p => tput g p.1 (some ((tget (0, 0) g p.1).1 + 1, (tget (0, 0) g p.1).2 + p.2))) j.got
  s.setArr ja { x with joins := tput x.joins k (some { j with got := got, scale := scale }) }

/-- Stages 7 and 8 of one column: the activation output, and the clamps (R133 to R135). -/
def stage78 (x : Arr) (l : List DWord) (scale col : Nat) (a : Int) : Int × Nat :=
  let b : Int := if lsBiasEn l then tget 0 x.bias (lsBias l + col) else 0
  let y0 := scaleApply a 0 [scale, lsSw l] (-31) 0
  let y1 := sat y0 48 + b * 128
  let y := sat y1 48
  let z := activation (laFn l) (laParam l) (laExp l) (laOut l) (tget [] x.tables (laParam l)) y
  (sat z 48, b2n (satHit y0 48 || satHit y1 48) + b2n (satHit z 48))

/-- Output requantisation (R139): the code in its message format, its exact value, and whether it clamped. -/
def outReq (bcA : Bool) (l : List DWord) (z : Int) : Nat × Dy × Bool :=
  match lsFmt l with
  | 0 =>
    let t := (Dy.mk z (-31)).quot (lsOutSc l) 0
    (ux 16 (sat t 16), ⟨sat t 16 * (scMan (lsOutSc l) : Int), scExp (lsOutSc l) - 8⟩, satHit t 16)
  | 1 =>
    let c := fpOfDy bf16 bcA 0 false ⟨z, -31⟩
    (c.1, (fpRead bf16 false c.1).val, c.2)
  | _ =>
    let t := roundShift z 8 0
    (a24Put (sat t 24), ⟨sat t 24, -23⟩, satHit t 24)

/-- Message format and size of a flank's output. -/
def outFmt (l : List DWord) : Nat := nth 5 [3, 8, 5] (lsFmt l)
def outSize (l : List DWord) : Nat := nth 4 [2, 2, 4] (lsFmt l)

/-- The peak of a model's output recorded for the model that follows it in the chain (R104). -/
def State.notePeak (s : State) (slot model : Nat) (m : Dy) : State :=
  let k := 8 * slot + s.chainPos slot model + 1
  match tget [] s.model.peaks k with
  | [] => { s with model.peaks := tput s.model.peaks k (some [m]) }
  | p :: r => { s with model.peaks := tput s.model.peaks k (some (p.max m :: r)) }

/-- Whether a layer is the last of its model. -/
def State.lastLayer (s : State) (model layer : Nat) : Bool :=
  match s.findEnt model (tget 0 s.model.captured model) with
  | some e => e.layers.length == layer + 1
  | none => false

/-- A `RESULT` message with the pooled values of adjacent columns (R139, R194): `last` says that it carries the row's last
output column. One whose `DEST` is refused is dropped and counted (R185). -/
def State.sendResult (s : State) (a d h : Nat) (cols : List (Nat × Int)) (last : Bool) : State :=
  let l := (s.arr a).desc d
  let rs := cols.map fun p => outReq s.cfg.bcA l p.2
  let hdr := rhOut h (if lsFmt l = 0 then lsOutSc l else 0) ((cols.head?.map (·.1)).getD 0)
  let body := leBytes 16 hdr ++ rs.flatMap fun r => leBytes (outSize l) r.1
  let msg := mkMsg (lrDest l) (localAddr 1 a 0) 2 (outFmt l) (last && lrSyncEn l) (lrSync l) s.qindex 0 body
  let s := s.count (kDesc a d 1) ((rs.filter (·.2.2)).length)
  let s := if msg.sendable then s.send msg else s.count (kArr a 21) 1
  let m := s.descModel a d
  if s.lastLayer m (lcLayer l) then s.notePeak (rhSlot h) m ((rs.map fun r => r.2.1.abs).foldl Dy.max ⟨0, 0⟩) else s

/-- The column group that an output column of a layer comes from: that of its column in the last fold of the tile that covers it,
with the tile's first output column (R117, R126, R138). A pooled value goes by its window's first column. -/
def State.colGroup (s : State) (a d c : Nat) : Nat × Nat :=
  let covers (l : List DWord) := decide (lcOut l ≤ c ∧ c < lcOut l + lgC l)
  let own := (s.arr a).desc d
  let l := if covers own then own else (((s.tiles a d).map s.tileDesc).find? covers).getD own
  (lcOut l, (lgCol l + (lgFold l - 1) * lgC l + (c - lcOut l)) / 256)

/-- Adjacent columns cut into messages, one for each column group (R194). -/
def State.sendGroups (s : State) (a d h last : Nat) (cols : List (Nat × Int)) : State :=
  let gs := (cols.map fun p => s.colGroup a d p.1).foldl (fun l g => if l.contains g then l else l ++ [g]) []
  gs.foldl (fun t g =>
    let cs := cols.filter fun p => s.colGroup a d p.1 == g
    t.sendResult a d h cs (cs.any fun p => p.1 == last)) s

/-- The pooling window of a column: its first column and the one beyond its last (R137). -/
def poolWin (l : List DWord) (total c : Nat) : Nat × Nat :=
  if laPool l = 1 then
    let b := c / 256 * 256
    let st := b + (c - b) / laP l * laP l
    (st, min (min (st + laP l) (b + 256)) total)
  else (c, c + 1)

/-- The pooled value of a list (R137). -/
def poolOp (l : List DWord) (vs : List Int) : Int :=
  if laMean l then rndDiv 0 (sumI vs) vs.length else (vs.drop 1).foldl max (nth 0 vs 0)

/-- A row takes its place in a time pool, in ascending time position (R137). -/
def poolJoin (h : Nat) : List (Nat × Option (List Int)) → List (Nat × Option (List Int))
  | [] => [(h, none)]
  | e :: r => if rhTpos h < rhTpos e.1 then (h, none) :: e :: r else e :: poolJoin h r

/-- The windows at the head of a time pool whose rows are all there are combined and sent, each under its first row; `fin` says
that no further row comes, so that each window takes the rows that it has (R137; log entry 17). By fuel. -/
def State.flushPool (s : State) (a d slot total : Nat) (fin : Bool) : Nat → State
  | 0 => s
  | f + 1 =>
    let x := s.arr a
    let l := x.desc d
    let w := (tget [] x.pool (hKey d slot)).take (laP l)
    let rows := w.filterMap (·.2)
    let ends := w.any fun e => rhTpos e.1 + 1 == s.q
    if w = [] ∨ ¬ (fin ∨ (rows.length = w.length ∧ (w.length = laP l ∨ ends))) then s
    else
      let s := s.setArr a { x with pool := tset [] x.pool (hKey d slot) ((tget [] x.pool (hKey d slot)).drop (laP l)) }
      let cols := (List.range total).map fun c => (c, poolOp l (rows.map fun r => nth 0 r c))
      let s := if rows = [] then s else s.sendGroups a d ((w.head?.map (·.1)).getD 0) (total - 1) cols
      s.flushPool a d slot total fin f

/-- A row of a channel has been finished at its quantising flank (R105). -/
def State.rowDone (s : State) (a d slot : Nat) : State :=
  let x := s.arr a
  s.setArr a { x with doneQ := tmod 0 x.doneQ (hKey d slot) (· + 1) }

/-- Rows of a layer for one channel in one quantum: one for each time position, through the time pools of the layers before it
(R137, R278; log entry 67). -/
def State.layerRowsQ (s : State) (model layer : Nat) : Nat :=
  match s.findEnt model (tget 0 s.model.captured model) with
  | none => s.q
  | some e => (e.layers.take layer).foldl (fun n y =>
      if bf (leAt y.entry 24 8) 37 36 = 2 then cdiv n (bf (leAt y.entry 24 8) 34 32 + 1) else n) s.q

/-- The columns of a row whose sums are complete pass stages 7 to 10 (R138, R139). -/
def State.reduce (s : State) (a k : Nat) : State :=
  let x := s.arr a
  let d := k % 1024
  let l := x.desc d
  match tfind x.joins k with
  | none => s
  | some j =>
    let ts := s.tiles a d
    let total := s.layerCols ts
    let need := if lcRole l = 2 then lcTiles l else 1
    let ready := j.got.filter fun p => need ≤ p.2.1 && (tfind j.z p.1).isNone
    let zs := ready.map fun p => (p.1, stage78 x l j.scale p.1 p.2.2)
    let s := s.count (kDesc a d 1) (sumN (zs.map fun p => p.2.2))
    let z := zs.foldl (fun t p => tput t p.1 (some p.2.1)) j.z
    let all := j.got.all fun p => (tfind z p.1).isSome
    let slot := rhSlot j.hdr
    if laPool l = 2 then
      if all && j.got.length == total then
        let row := z.map (·.2)
        let p := (tget [] x.pool (hKey d slot)).map fun e => if rhTpos e.1 = rhTpos j.hdr then (e.1, some row) else e
        let s := s.setArr a { x with joins := tdel x.joins k, pool := tset [] x.pool (hKey d slot) p }
        (s.flushPool a d slot total false (p.length + 1)).rowDone a d slot
      else s.setArr a { x with joins := tput x.joins k (some { j with z := z }) }
    else
      let starts := dedupN (z.map fun p => (poolWin l total p.1).1)
      let can := starts.filter fun st => !j.sent.contains st
        && (List.range ((poolWin l total st).2 - st)).all fun i => (tfind z (st + i)).isSome
      let cols := can.map fun st =>
        (st, poolOp l ((List.range ((poolWin l total st).2 - st)).map fun i => tget 0 z (st + i)))
      let last := (poolWin l total (total - 1)).1
      let sent := j.sent ++ can
      let fin := sent.contains last && all && starts.all sent.contains
      let s := s.setArr a { x with joins := if fin then tdel x.joins k
                                            else tput x.joins k (some { j with z := z, sent := sent }) }
      let s := s.sendGroups a d j.hdr last cols
      if fin then s.rowDone a d slot else s

/-- A row position's complete columns go on, unless the flank is held at its message unit: they then wait for `JOIN_REDUCE` (R183). -/
def State.tryReduce (s : State) (a k : Nat) : State := if s.holds (localAddr 1 a 0) then s else s.reduce a k

/-- Values of a tile on array `a` reach stage 6: at a single layer they go on at once; at a joining flank, to which another array's
flank sends them in S32 over the mesh, they wait for `JOIN_REDUCE` (R138). -/
def State.toStage6 (s : State) (a ja jd h scale : Nat) (cols : List (Nat × Int)) : State :=
  let s := if a = ja then s else s.flankFlits a ja (4 * cols.length)
  let s := s.addPartial ja jd h scale cols
  if lcRole ((s.arr ja).desc jd) = 2 then s else s.tryReduce ja (joinKey h jd)

/-! ### Flat rows and stand-ins -/

/-- The flat rows at the head of a FIFO leave it: acc is 0 for every column, no MVM is issued (R112); by fuel. -/
def State.drainFlat (s : State) (a : Nat) : Nat → State
  | 0 => s
  | f + 1 =>
    let x := s.arr a
    match x.fifo with
    | [] => s
    | jb :: r =>
      if jb.flat then
        let s := s.setArr a { x with fifo := r }
        let ts := s.tiles jb.jArr jb.jDesc
        let s := ts.foldl (fun s p =>
          let l := s.tileDesc p
          s.addPartial jb.jArr jb.jDesc jb.hdr jb.scale ((List.range (lgC l)).map fun c => (lcOut l + c, 0))) s
        (s.tryReduce jb.jArr (joinKey jb.hdr jb.jDesc)).drainFlat a f
      else s

/-- One tile's part of a quantised row: a job in its array's FIFO, where it preempts a calibration slice, or the exact sums of its
stand-in (R110, R165, R176). The row's own values lie in the quantising flank's FIFO alone (R127). -/
def State.giveTile (s : State) (ts : List (Nat × Nat)) (ja jd h : Nat) (q : RowQ) (p : Nat × Nat) : State :=
  let l := s.tileDesc p
  let off := s.tileOffset ts p
  let seg (c : List Nat) := (c.drop off).take (lgK l)
  let x := s.arr p.1
  if x.onStandin.contains p.2 then
    let kept := q.again.getD (q.codes, q.scale)
    let cols := s.standinSums p off (rhGen h) (seg kept.1) (qcZ ((s.arr ja).desc jd))
    (s.count (kDesc p.1 p.2 17) 1).toStage6 p.1 ja jd h kept.2 cols
  else
    let jb : RowJob := {
      RowJob.reset with desc := p.2, hdr := h, jArr := ja, jDesc := jd, codes := seg q.codes, scale := q.scale,
                        again := q.again.map (fun c => (seg c.1, c.2)), bytes := if p.1 = ja then q.bytes else 0 }
    let s := if p.1 = ja then s else s.flankFlits ja p.1 (lgK l)
    let s := if x.sliceOn ∧ x.fifo = [] then
      (s.setArr p.1 { x with sliceOn := false }).count (kArr p.1 25) 1 else s
    s.setArr p.1 { s.arr p.1 with fifo := (s.arr p.1).fifo ++ [jb] }

/-- A quantised row starts at every tile of its layer (R110); a flat row waits its turn at its own flank alone. It has no pass, and
preempts no calibration slice (DESIGN CHOICE, log entry 79). -/
def State.startRow (s : State) (a d h : Nat) (q : RowQ) : State :=
  let x := s.arr a
  let s := if laPool (x.desc d) = 2 then
    s.setArr a { x with pool := tmod [] x.pool (hKey d (rhSlot h)) (poolJoin h) } else s
  if q.flat then
    let x := s.arr a
    let jb : RowJob := {
      RowJob.reset with desc := d, hdr := h, jArr := a, jDesc := d, scale := q.scale, flat := true, bytes := q.bytes }
    (s.setArr a { x with fifo := x.fifo ++ [jb] }).drainFlat a (x.fifo.length + 1)
  else
    let ts := s.tiles a d
    ts.foldl (fun s p => s.giveTile ts a d h q p) s

/-! ### Passes (R119, R124, R126) -/

def lgRpf (l : List DWord) : Nat := cdiv (lgK l) (lgFold l)
/-- Passes of a fold, and of a row. -/
def lgWpf (l : List DWord) : Nat := cdiv (lgRpf l) (lgWin l)
def lgPasses (l : List DWord) : Nat := lgFold l * lgWpf l
/-- The fold of a pass, and its input rows from the first to one beyond the last. -/
def passRows (l : List DWord) (i : Nat) : Nat × Nat × Nat :=
  let j := i / lgWpf l
  let lo := j * lgRpf l + i % lgWpf l * lgWin l
  (j, lo, min (min (lgK l) ((j + 1) * lgRpf l)) (lo + lgWin l))

/-- The codes a pass drives, with their plane rows. -/
def passCodes (l : List DWord) (codes : List Nat) (i : Nat) : List (Nat × Nat) :=
  let (j, lo, hi) := passRows l i
  (List.range (hi - lo)).map fun n => (lgRow l + (lo + n - j * lgRpf l), nth 0 codes (lo + n))

/-- The first element of a list that meets `p`, changed by `f`. -/
def updFirst {α : Type} (p : α → Bool) (f : α → α) : List α → List α
  | [] => []
  | x :: r => if p x then f x :: r else x :: updFirst p f r

/-- Passes in flight at an array, those that drain among them. -/
def Arr.flying (x : Arr) : Nat := sumN ((x.drain ++ x.fifo).map fun j => j.passes - j.donePasses)

/-- The job whose pass comes next (R124): the first with passes still to issue; none while a row ahead of it owes its second
evaluation. -/
def nextJob (x : Arr) : List RowJob → Option RowJob
  | [] => none
  | j :: r =>
    if j.flat then none
    else if j.passes < lgPasses (x.desc j.desc) then some j
    else if j.again.isSome then none
    else nextJob x r

/-- One pass of a job is latched (R119, R124, R125): the plane is selected, the pass counted and traced. -/
def State.latch (s : State) (a delay : Nat) (j : RowJob) : State :=
  let x := s.arr a
  let l := x.desc j.desc
  let sel := lgPlane l
  let fifo := updFirst (· == j) (fun y => { y with passes := y.passes + 1 }) x.fifo
  let s := s.setArr a { x with fifo := fifo, sel := sel, passes16 := x.passes16 + 1 }
  let s := s.counts [(kArr a 0, 1), (kArr a 1, b2n (sel != x.sel)), (kArr a 20, if s.sup.stretch = 0 then 0 else delay)]
  s.traceBegin (128 + a) (j.passes % 64 * 1024 + j.desc)
    (rhSlot j.hdr * 2 ^ 22 + rhTpos j.hdr * 2 ^ 6 + b2n j.rerun * 32 + lgPlane l)

/-- An array may latch a pass: it serves, nothing drains at it, and the engine does not refuse new work (R23, R33, R124, R479). -/
def State.mayPass (s : State) (a : Nat) : Bool := (s.arr a).serves && !s.obs.halting && (s.arr a).drain.isEmpty && !s.draining

/-- `PASS_ISSUE` (R124, R125): with room for the pass's codes, the array latches the next pass. -/
def execPassIssue (arr delayNs : Nat) (s : State) : Res :=
  inUnit arr 48 (
    let x := s.arr arr
    if !s.mayPass arr || decide (2 ≤ x.flying) then s
    else
      match nextJob x x.fifo with
      | some j => s.latch arr delayNs j
      | none => s)

/-- `RERUN_PASS` (R109, R171): a misfitting row whose first evaluation is complete is coded again, and its first pass is latched.
An adapter's terms for the first evaluation go with it. -/
def execRerunPass (arr : Nat) (s : State) : Res :=
  inUnit arr 48 (
    let x := s.arr arr
    match x.fifo with
    | [] => s
    | j :: r =>
      match j.again with
      | none => s
      | some (codes, scale) =>
        if !s.mayPass arr || decide (j.donePasses < lgPasses (x.desc j.desc)) then s
        else
          let j' : RowJob := { j with codes := codes, scale := scale, again := none, rerun := true, passes := 0, group := 0,
                                      donePasses := 0, conv := [], terms := none, wait := [] }
          (s.setArr arr { x with fifo := j' :: r }).latch arr 0 j')

/-! ### Integration and conversion (R118 to R120, R149, R158) -/

/-- The number of a cell pair: plane weight column `col` of a row (R116). -/
def cellKey (a plane row col : Nat) : Nat := ((16 * a + plane) * 2048 + row) * 2128 + col

/-- Levels of the hi and the lo cell of a plane weight column in a row: as programmed, or the pattern of a reference column, which
nothing erases (R77, R117, R149, R158). -/
def State.levels (s : State) (a plane row col : Nat) : Nat × Nat :=
  let pat := row % 16 == 0
  if col % 266 = 264 then (if pat then (15, 0) else (8, 8))
  else if col % 266 = 265 then (8, if pat then row / 16 % 16 else 8)
  else
    let u := tget 0 s.nv.cells (cellKey a plane row col)
    (u / 16 % 16, u % 16)

/-- The integrated charge of the cell column that converter `k` converts in slot `g`: the sum of code times level over the driven
rows (R118, R119). -/
def State.charge (s : State) (a plane g k : Nat) (rows : List (Nat × Nat)) : Nat :=
  sumN (rows.map fun r =>
    let n := s.levels a plane r.1 (266 * g + k / 2)
    r.2 * (if k % 2 = 1 then n.1 else n.2))

/-- A conversion: the difference of the charge and that of 8 × rowsum, in LSBs of the range code, with the analog departure of this
conversion; the 12-bit code, and whether the difference lay beyond the converter's range (R120; log entry 67). -/
def convert (charge rowsum r : Nat) (dev : Int) : Int × Bool :=
  let c := roundShift ((charge : Int) - 8 * (rowsum : Int)) r 0 + dev
  (sat c 12, satHit c 12)

/-! ### Correction (R111, R121, R122, R129, R132, R148, R159) -/

/-- The linearised value of a code (R121). -/
def cellValue (c : Int) (curve : List Int) (r : Nat) : Int :=
  let k := ((c + 2048) / 64).toNat
  let ck : Int := -2048 + 64 * (k : Int)
  let d := nth 0 curve k + roundShift ((nth 0 curve (k + 1) - nth 0 curve k) * (c - ck)) 6 0
  roundShift ((16 * c + d) * ((2 ^ r : Nat) : Int)) 4 0

/-- The live range code of a descriptor and cell type (R128). -/
def Arr.range (x : Arr) (d t : Nat) : Nat := (tfind x.live (2 * d + t)).getD (lcRange (x.desc d) t)

/-- The spare that replaces a logical column of a plane (R148). -/
def Arr.spareOf (x : Arr) (plane c : Nat) : Option Nat := ((tget [] x.colmap plane).find? fun p => p.2 == c).map (·.1)

/-- The number of a column's entry in the calibration record: logical columns, then spares (R160). -/
def Arr.entryOf (x : Arr) (plane c : Nat) : Nat := match x.spareOf plane c with | some k => 2048 + k | none => c

/-- A column entry at its Reset value (R161). -/
def colReset : BitVec 64 := BitVec.ofNat 64 (0x8000 <<< 48)

/-- The calibration entry of a logical column of a plane. -/
def Arr.colEntry (x : Arr) (plane c : Nat) : BitVec 64 :=
  tget colReset (tget .reset x.recs plane).cols (x.entryOf plane c)

/-- The position of a logical column within its group (R117). -/
def Arr.colPos (x : Arr) (plane c : Nat) : Nat := match x.spareOf plane c with | some k => 256 + k % 8 | none => c % 256

/-- The combined value of a hi and a lo code under the curves of nonlinearity index `n` and the two range codes (R121, R122). -/
def Arr.combine (x : Arr) (n rHi rLo rowsum : Nat) (hi lo : Int) : Int :=
  16 * cellValue hi (tget [] x.curves (2 * n + 1)) rHi + cellValue lo (tget [] x.curves (2 * n)) rLo + 136 * (rowsum : Int)

/-- One column's contribution in a pass, v, from the converter codes of its group (R121, R122). -/
def Arr.column (x : Arr) (d plane c rowsum : Nat) (codes : List Int) : Int :=
  let p := x.colPos plane c
  x.combine (fld (x.colEntry plane c) 7 3) (x.range d 1) (x.range d 0) rowsum (nth 0 codes (2 * p + 1)) (nth 0 codes (2 * p))

/-- Stage 4 and stage 5 of an output column of a tile (R111, R132): acc_corr, and whether it clamped. A folded tile's column
takes the gain and offset of its column in fold 0 (log entry 18). -/
def Arr.correct (x : Arr) (d : Nat) (j : RowJob) (colsum c : Nat) : Int × Bool :=
  let l := x.desc d
  let pl := lgPlane l
  let z := (qcZ l : Int)
  let acc := tget 0 j.conv c - z * (colsum : Int) - 128 * (sumN j.codes : Int) + (lgK l : Int) * z * 128
  let e := x.colEntry pl (lgCol l + c)
  let g := pl * 8 + (lgCol l + c) / 256
  let gain := roundShift ((fld e 63 48 : Int) * ((tget 32768 x.gLive g : Nat) : Int)) 15 0
  let a := acc - (lgPasses l : Int) * (sx 16 (fld e 47 32) + tget 0 x.oLive g)
  let r := roundShift (a * gain) 15 0
  (sat r 32, satHit r 32)

/-- The histogram bin of a value (R166). -/
def envBin (l : List DWord) (v : Int) : Nat := if v = 0 then 0 else min 15 (Nat.log2 v.natAbs - leBin l)

/-- One value into the statistics of the quantum (R166). -/
def envAdd (l : List DWord) (m : EnvMon) (v : Int) : EnvMon :=
  let h := fit 0 16 m.hist
  { m with n := m.n + 1, sum := m.sum + v, sq := m.sq + v.natAbs ^ 2, hist := put h (envBin l v) (nth 0 h (envBin l v) + 1) }

/-- The intended level u of a cell pair: what the tiles on the plane give it, 0 where none uses it (R77, R149); `src` is the
plane that the tiles' descriptors name. -/
def State.intended (s : State) (a src model gen row c : Nat) : Nat :=
  let x := s.arr a
  let here := x.descs.filter fun p => lgPlane p.2 == src && s.descModel a p.1 == model && lcRole p.2 != 3
  match here.find? fun p =>
      decide (lgRow p.2 ≤ row ∧ row < lgRow p.2 + cdiv (lgK p.2) (lgFold p.2)
        ∧ lgCol p.2 ≤ c ∧ c < lgCol p.2 + lgFold p.2 * lgC p.2) with
  | none => 0
  | some (d, l) =>
    let rpf := cdiv (lgK l) (lgFold l)
    let i := (c - lgCol l) / lgC l * rpf + (row - lgRow l)
    if lgK l ≤ i then 0
    else
      match s.findEnt model gen with
      | none => 0
      | some e =>
        let jq := s.quantDesc a d l
        let off := s.tileOffset (s.tiles jq.1 jq.2) (a, d)
        let cols := match e.layers[lcLayer l]? with | some r => lyC r.entry | none => lgC l
        (weightAt (s.layerBytes e (lcLayer l)) cols (off + i) (lcOut l + (c - lgCol l) % lgC l) + 128).toNat

/-- The sum of a column's intended levels over some plane rows (R111). -/
def State.levelSum (s : State) (a src model gen c lo n : Nat) : Nat :=
  sumN ((List.range n).map fun i => s.intended a src model gen (lo + i) c)

/-- Descriptors of other tiles on the plane of `d` that use a logical column. -/
def Arr.sharers (x : Arr) (d c : Nat) : List Nat :=
  (x.descs.filter fun p => p.1 != d && lgPlane p.2 == lgPlane (x.desc d)
    && decide (lgCol p.2 ≤ c ∧ c < lgCol p.2 + lgFold p.2 * lgC p.2)).map (·.1)

/-- colsum of an output column of a tile, over its folds: `COLSUM` of the calibration record, and where tiles of several
descriptors lie above one another on the column, the sum of the tile's own rows (R111, R126; log entry 68). -/
def State.colsumOf (s : State) (a d c : Nat) : Nat :=
  let x := s.arr a
  let l := x.desc d
  let pl := lgPlane l
  sumN ((List.range (lgFold l)).map fun f =>
    let col := lgCol l + f * lgC l + c
    if x.sharers d col = [] then fld (x.colEntry pl col) 31 8
    else
      match tfind s.nv.holds (16 * a + pl) with
      | some h => s.levelSum a pl h.1 h.2.1 col (lgRow l) (cdiv (lgK l) (lgFold l))
      | none => fld (x.colEntry pl col) 31 8)

/-- R17 and the ramp sum of a pass, which the row-sum unit forms over the pattern rows (R158). -/
def patSum (rows : List (Nat × Nat)) : Nat := sumN ((rows.filter fun p => p.1 % 16 == 0).map (·.2))
def rampSum (rows : List (Nat × Nat)) : Int :=
  sumI ((rows.filter fun p => p.1 % 16 == 0).map fun p => (p.2 : Int) * ((p.1 / 16 % 16 : Nat) - 8 : Int))

/-- The reference columns of a group in a pass, into the sums of R159 (R158): range code 7, no curve (log entry 19). The ramp
serves calibration alone. -/
def Arr.refs (x : Arr) (plane g : Nat) (rows : List (Nat × Nat)) (codes : List Int) : Arr :=
  let v (i : Nat) := cellValue (nth 0 codes i) [] 7
  let k := plane * 8 + g
  let r17 := patSum rows
  { x with sumA := tmod 0 x.sumA k (· + (v 529 - v 528)), sumB := tmod 0 x.sumB k (· + 15 * (r17 : Int)),
           sumM := tmod 0 x.sumM k (· + v 531), npQ := tmod 0 x.npQ k (· + 1) }

/-- Corrected values of a kept result with the adapter's terms, as stage 6 takes them (R171). -/
def State.adapted (s : State) (a : Nat) (j : RowJob) (cols : List (Nat × Int)) (terms : Option (List Int)) : State :=
  let l := (s.arr a).desc j.desc
  let adj := cols.map fun p =>
    let v := match terms with | some t => p.2 + nth 0 t p.1 | none => p.2
    (lcOut l + p.1, sat v 32, satHit v 32)
  (s.count (kDesc a j.desc 0) ((adj.filter (·.2.2)).length)).toStage6 a j.jArr j.jDesc j.hdr j.scale
    (adj.map fun p => (p.1, p.2.1))

/-- The tile has a correction adapter in use. -/
def Arr.adapting (x : Arr) (d : Nat) : Bool := (tget .reset x.adapters d).rank != 0

/-- One FP32 dot product, ascending: exact products added one at a time to +0, each addition rounded with RNE (R88, R93); and what
its operands and its additions raised (R82). -/
def fpDot (bcA : Bool) (l : List (FpV × FpV)) : FpV × Lane :=
  l.foldl (fun acc p =>
    let r := fpAdd fp32 bcA 0 acc.1 (fpMulX p.1 p.2)
    (fpSelf fp32 r.1, acc.2.add (.fp [p.1, p.2] r))) (⟨false, ⟨0, 0⟩, false, false⟩, .pure 0)

/-- The terms t = B × (A × x) of an adapter of rank `r` on a tile's codes, one for each of `n` output columns: x is q - z, the sums
are formed in FP32, and each term is rounded to S32 with saturation; and what the arithmetic raised on the adapter core (R81 to R84,
R171; log entry 69). -/
def adapterTerms (bcA : Bool) (z r n : Nat) (a b codes : List Nat) : List Int × Lane :=
  let k := codes.length
  let x : List FpV := codes.map fun q => ⟨decide (q < z), ⟨(q : Int) - (z : Int), 0⟩, false, false⟩
  let y := (List.range r).map fun i => fpDot bcA (((a.drop (i * k)).take k).map (fpRead bf16 bcA) |>.zip x)
  let t := (List.range n).map fun c =>
    let p := fpDot bcA ((List.range r).map fun i =>
      (fpRead bf16 bcA (nth 0 b (i * n + c)), (nth (⟨false, ⟨0, 0⟩, false, false⟩, .pure 0) y i).1))
    let v := p.1.val.toInt 0 0
    (sat v 32, p.2.add ⟨0, b2n (satHit v 32), 0, 0, 0⟩)
  (t.map (·.1), ((y.map (·.2)) ++ t.map (·.2)).foldl Lane.add (.pure 0))

/-- What arithmetic of core `k` outside its program raised: counted, with the sticky flags (R82, R83). -/
def State.raisedOn (s : State) (k : Nat) (l : Lane) : State :=
  let f := (Fx.sats ⟨s.core k, []⟩ l.sat).fp l.nan l.inf l.ovf
  if f.n = [] then s else (s.setCore k f.c).counts (f.n.map fun p => (kCore k p.1, p.2))

/-- What the adapter in use gives a row (R171, R173). -/
def State.termsOf (s : State) (a : Nat) (j : RowJob) : List Int × Lane :=
  let l := (s.arr a).desc j.desc
  let ad := tget .reset (s.arr a).adapters j.desc
  adapterTerms s.cfg.bcA (qcZ l) ad.rank (lgC l) ad.a ad.b j.codes

/-- The 532 converter codes of a group of a pass, and which of them lay beyond the converter's range: the reference cells take range
code 7, the others those of the descriptor (R118, R120, R158). -/
def State.groupCodes (s : State) (a d group : Nat) (rows : List (Nat × Nat)) (dev : List Int) : List (Int × Bool) :=
  let x := s.arr a
  let rs := sumN (rows.map (·.2))
  (List.range 532).map fun k =>
    convert (s.charge a (lgPlane (x.desc d)) group k rows) rs (if 528 ≤ k then 7 else x.range d (k % 2)) (nth 0 dev k)

/-- Conversions of a group of one cell type, 0 lo and 1 hi, that meet `p` among the first `n` converters. -/
def cellsOf (t n : Nat) (p : Int × Bool → Bool) (codes : List (Int × Bool)) : Nat :=
  ((List.range n).filter fun k => k % 2 == t && p (nth (0, false) codes k)).length

/-- Range control's view of a group's conversions: the clips of each cell type, and the types with a code of 512 or more (R129,
R130). -/
def Arr.watch (x : Arr) (d : Nat) (conv : List (Int × Bool)) : Arr :=
  let loud (t : Nat) := if cellsOf t 528 (fun c => decide (512 ≤ c.1.natAbs)) conv = 0 then [] else [2 * d + t]
  { x with loud := x.loud ++ loud 0 ++ loud 1,
           clipQ := tmod 0 (tmod 0 x.clipQ (2 * d) (· + cellsOf 0 532 (·.2) conv)) (2 * d + 1) (· + cellsOf 1 532 (·.2) conv) }

/-- `CONV_CLIP_LO` and `CONV_CLIP_HI` of a group's conversions (R120, R154). -/
def clipCounts (a group : Nat) (conv : List (Int × Bool)) : List (Nat × Nat) :=
  [(kArr a (3 + 2 * group), cellsOf 0 532 (·.2) conv), (kArr a (4 + 2 * group), cellsOf 1 532 (·.2) conv)]

/-- The output columns of a descriptor whose last fold's column lies in a group. -/
def groupCols (l : List DWord) (fold group : Nat) : List Nat :=
  (List.range (lgC l)).filter fun c => (lgCol l + fold * lgC l + c) / 256 == group

/-- A group of a pass that drains: it is converted and counted, and its results are discarded; those of a row's last pass would have
completed the group's columns, and count in LATE_RESULT (R32, R33). -/
def State.drainGroup (s : State) (a group : Nat) (j : RowJob) (codes : List (Int × Bool)) : State :=
  let x := s.arr a
  let rows := passCodes (x.desc j.desc) j.codes j.donePasses
  let now (y : RowJob) := decide (y.donePasses < y.passes)
  let j' : RowJob := { j with group := (group + 1) % 8, donePasses := if group = 7 then j.donePasses + 1 else j.donePasses }
  let l := x.desc j.desc
  let whole := decide (j.donePasses + 1 = lgPasses l) && j.again.isNone && groupCols l (passRows l j.donePasses).1 group != []
  let x := (x.refs (lgPlane l) group rows (codes.map (·.1))).watch j.desc codes
  (s.setArr a { x with drain := (updFirst now (fun _ => j') x.drain).filter now }).counts
    ((kEngine 0, b2n whole) :: clipCounts a group codes)

/-- `FLANK_GROUP_OUT` (R119 to R122, R131, R132): a column group's conversions of the oldest pass in flight, each with its
departure from the nominal difference in LSBs, go through the flank. After the last pass the group's output columns leave
stage 5. Every conversion of the group counts (R120, R129, R130; log entry 67). -/
def execFlankGroupOut (arr group : Nat) (dev : List Int) (s : State) : Res :=
  inUnit arr 48 (
    let x := s.arr arr
    let now (j : RowJob) := decide (j.donePasses < j.passes)
    match (x.drain ++ x.fifo).find? now with
    | none => s
    | some j =>
      let l := x.desc j.desc
      let rows := passCodes l j.codes j.donePasses
      let conv := s.groupCodes arr j.desc group rows dev
      if j.group ≠ group ∨ s.holds (localAddr 1 arr 0) then s
      else if x.drain.any now then s.drainGroup arr group j conv
      else
        let d := j.desc
        let pl := lgPlane l
        let codes := conv.map (·.1)
        let rs := sumN (rows.map (·.2))
        let base (f : Nat) := lgCol l + f * lgC l
        let fold := (passRows l j.donePasses).1
        let used := groupCols l fold group
        let sums := used.foldl (fun t c => tput t c (some (tget 0 t c + x.column d pl (base fold + c) rs codes))) j.conv
        let last := decide (j.donePasses + 1 = lgPasses l)
        let kept := last && j.again.isNone
        let j0 : RowJob := { j with conv := sums }
        let outs := if kept then used.map fun c => (c, x.correct d j0 (s.colsumOf arr d c) c) else []
        let cols := outs.map fun p => (p.1, p.2.1)
        let corr := cols.foldl (fun t p => tput t p.1 (some p.2)) j.corr
        let j1 : RowJob := { j0 with corr := corr, group := (group + 1) % 8,
                                     donePasses := if group = 7 then j.donePasses + 1 else j.donePasses }
        let env := outs.foldl (fun t p => tmod .reset t (8 * d + group) fun m => envAdd l m p.2.1) x.env
        let hold := x.adapting d && j.terms.isNone
        let j2 : RowJob := if hold then { j1 with wait := cols.foldl (fun t p => tput t p.1 (some p.2)) j1.wait } else j1
        let fin := kept && group == 7
        let x' : Arr := { (x.refs pl group rows codes).watch d conv with
          env := env,
          fifo := if fin then x.fifo.eraseP now else updFirst now (fun _ => j2) x.fifo,
          late := if fin && hold then x.late ++ [j2] else x.late,
          lastRow := if fin then tput x.lastRow d (some (j.codes, corr.map (·.2))) else x.lastRow }
        let s := (s.setArr arr x').counts (clipCounts arr group conv ++ [(kDesc arr d 0, (outs.filter (·.2.2)).length)])
        let s := if group = 7 then s.traceCyc (128 + arr) 1 (j.donePasses % 64 * 1024 + d) else s
        let s := if cols = [] ∨ hold then s else s.adapted arr j cols j.terms
        s.drainFlat arr (x.fifo.length + 1))

/-- `JOIN_REDUCE` (R138, R183): the columns of a row position whose partial sums are all present pass stages 7 to 10, where the flank is
not held. -/
def execJoinReduce (arr slot tpos : Nat) (s : State) : Res :=
  inUnit arr 48 (
    ((s.arr arr).joins.filter fun p => p.1 / 1024 == slot * 65536 + tpos).foldl (fun s p => s.tryReduce arr p.1) s)

/-- The terms of a row come from the core that `ADAPT_CORE` names, 4 bytes a column over the mesh (R171, R180). -/
def State.termFlits (s : State) (a : Nat) (l : List DWord) : State :=
  s.counts ((meshPath 15 (lpCore l) (flankRouter a)).map fun r => (kRouter r 0, flitsOf (4 * lgC l)))

/-- `ADAPTER_TERM_RECEIVE` (R171): the terms that the adapter core has formed for a row reach the flank; values that wait for them
go on. A row that is evaluated again takes new terms. -/
def execAdapterTermReceive (arr slot tpos : Nat) (s : State) : Res :=
  inUnit arr 48 (
    let x := s.arr arr
    let mine (j : RowJob) := !j.flat && x.adapting j.desc && j.terms.isNone && rhSlot j.hdr == slot && rhTpos j.hdr == tpos
    match x.late.find? mine with
    | some j =>
      ((((s.setArr arr { x with late := x.late.eraseP mine }).raisedOn (lpCore (x.desc j.desc)) (s.termsOf arr j).2).termFlits arr
        (x.desc j.desc)).adapted arr j j.wait (some (s.termsOf arr j).1))
    | none =>
      match x.fifo.find? mine with
      | none => s
      | some j =>
        let (terms, did) := s.termsOf arr j
        let s := (s.setArr arr { x with fifo := updFirst mine (fun y => { y with terms := some terms, wait := [] }) x.fifo }).raisedOn
          (lpCore (x.desc j.desc)) did
        let s := s.termFlits arr (x.desc j.desc)
        if j.wait = [] then s else s.adapted arr j j.wait (some terms))

/-! ### Rows (R127, R194, R196, R235, R428) -/

/-- A row piece accepted by its flank: it begins a row or continues one; a whole row is quantised and starts, and values of it that
come later are discarded (R235). -/
def State.rowPiece (s : State) (a : Nat) (m : Msg) (vals : List Dy) : State :=
  let x := s.arr a
  let d := m.arg
  let h := leAt m.payload 0 16
  let same (r : RowAsm) := r.desc == d && rhSlot r.hdr == rhSlot h && rhTpos r.hdr == rhTpos h
  let (asm, bad) := match x.asm with
    | some r => if same r then (r, 0) else (⟨d, h, [], 0, false⟩, b2n !r.whole)
    | none => (⟨d, h, [], 0, false⟩, 0)
  let n := s.layerRows (s.tiles a d) (a, d)
  let all := asm.vals ++ vals
  let bad := bad + b2n (asm.whole || decide (n < all.length))
  let s := s.count (kArr a 21) bad
  if asm.whole then s
  else if all.length < n then
    s.setArr a { x with asm := some { asm with vals := all, bytes := asm.bytes + (m.payload.length - 16) } }
  else
    let s := s.setArr a { x with asm := some ⟨d, asm.hdr, [], 0, true⟩ }
    let (q, s) := s.quantise a d (rhSlot h) (rhPrio h) (asm.bytes + (m.payload.length - 16)) (all.take n)
    s.startRow a d asm.hdr q

/-- A ROW message is one that can come about: the channel stage sends rows to the first layer of `CHAIN0` alone, and in A32 they
carry samples of the slot's input channels: a stretch of one, or a row that reaches back from them (R60, R104; log entry 65). -/
def State.rowFits (s : State) (m : Msg) : Bool :=
  let h := leAt m.payload 0 16
  let vals := (chunks 4 (m.payload.drop 16)).map fun c => sx 32 (leNat c)
  let laps (a b : List Int) := (List.range a.length).any fun i => (a.drop i).isPrefixOf b || b.isPrefixOf (a.drop i)
  flag m.src 31 || fld m.src 18 16 != 3
    || (s.chainPos (rhSlot h) (s.descModel m.unit m.arg) == 0 && lcLayer ((s.arr m.unit).desc m.arg) == 0
      && (m.fmt != 6 || (s.slotInput (rhSlot h)).any fun c => laps vals c || laps c vals))

/-- `ROW_RECEIVE` (R60, R127, R185, R194, R196, R197, R235, R428): a flank takes a row piece, or discards it with its count, or
refuses it while its FIFO is full. -/
def execRowReceive (m : Msg) (s : State) : Res :=
  .next (
    if m.type ≠ 1 ∨ !m.toUnit 1 ∨ !s.ready m ∨ !s.rowFits m then s
    else
      let a := m.unit
      let x := s.arr a
      let l := x.desc m.arg
      let h := leAt m.payload 0 16
      let t := s.arrive m
      if m.qtag ≠ s.qindex % 4 then t.count (kArr a 22) 1
      else if s.sup.shed.contains (rhPrio h) then t.count (kArr a 23) 1
      else if !x.hasDesc m.arg ∨ lcRole l = 1 then t.count (kArr a 21) 1
      else if rhGen h ≠ tget 0 s.model.captured (s.descModel a m.arg) then t.count (kArr a 22) 1
      else if x.flankOut ∨ s.servedElsewhere 1 a ∨ !s.tileServed (a, m.arg) then t.count (kArr a 21) 1
      else if 131072 < x.fifoBytes + (m.payload.length - 16) then
        let (n, s) := s.take
        let s := if s.grid.mesh.contains m then s else s.send m
        s.count (kArr a 19) (Config.freeCycles n)
      else
        match rowVals m.fmt (rhScale h) s.cfg.bcA (m.payload.drop 16) with
        | none => t.count (kArr a 21) 1
        | some vals => (t.rowPiece a m vals).syncAction m)

end Sys2Proof.Machine
end

