-- ==== Sys2Proof/Machine/Calib.lean ====
section
/-!
DEFINITION. Keeping the arrays true: array states, live references, range codes, the history push, envelopes,
calibration, column repair, adapters and stand-ins (R105, R114, R128 to R130, R156 to R178).
-/

namespace Sys2Proof.Machine

/-! ### Array states and stand-ins (R156, R157, R177) -/

/-- The array in another state; each change raises `ARRAY_STATE` (R178). -/
def State.setArrState (s : State) (a : Nat) (st : ArrState) : State :=
  if (s.arr a).st = st then s else (s.setArr a { s.arr a with st := st }).raise (evArrayState (st == .failed)) []

/-- Descriptors whose tiles have a stand-in. -/
def Arr.standins (x : Arr) : List Nat := (x.descs.filter fun p => lpStandin p.2).map (·.1)

/-- The array stops serving: its tiles with a stand-in run there, from now on at a boundary (`now`), else from the next one; a
calibration in progress starts again afterwards, and the recalibrations that a breach asked for count afresh (R157, R165, R176,
R177). -/
def State.offline (s : State) (a : Nat) (st : ArrState) (now : Bool) : State :=
  let x := s.arr a
  let x : Arr := { x with fromStandin := [], calDone := 0, sliceOn := false, fifo := [], late := [], drain := [],
                           breachCal := 0, cleanRun := 0 }
  let x : Arr := if now then { x with onStandin := dedupN (x.onStandin ++ x.standins) }
    else { x with toStandin := x.standins ++ x.toStandin }
  (s.setArr a x).setArrState a st

/-- The array serves again; its tiles leave their stand-ins at the next boundary (R177). -/
def State.online (s : State) (a : Nat) : State :=
  let x := s.arr a
  ((s.setArr a { x with prog := none, fromStandin := (x.onStandin ++ x.waitStandin).filter (s.planeServes a) }).setArrState a
    .online).startSlice

/-- The array fails (R157, R177): `flank` says that its flank is out of service with it. -/
def State.failArray (s : State) (a : Nat) (flank now : Bool) : State :=
  let s := s.offline a .failed now
  s.setArr a { s.arr a with prog := none, flankOut := (s.arr a).flankOut || flank }

/-- Planes of an array that hold tiles of an active generation (R163, R289). -/
def State.activePlanes (s : State) (a : Nat) : List Nat :=
  let used := dedupN ((s.arr a).descs.map fun p => lgPlane p.2)
  used.filter fun p => tget 0 s.nv.alloc (16 * a + p) == 2

/-- The cores that the placement reserves for a stand-in, as a mask (R177, R389). -/
def State.standinMask (s : State) (p : Nat × Nat) : Nat :=
  (((s.placement.standins).find? fun x => x.1 == p.1 && x.2.1 == p.2).map (·.2.2)).getD 0

/-- The priority class that a tile serves: the most protected of those of its model's slots, 4 where it has none (R177). -/
def State.tileClass (s : State) (p : Nat × Nat) : Nat :=
  let m := s.descModel p.1 p.2
  (s.cfg.slots.filter fun q => slEn q.2 && (slModels q.2).contains m).foldl (fun c q => min c (slPrio q.2)) 4

/-- Reserved cores that are shared go to the tiles of the higher priority class first, then of the lower array, then of the lower
plane; what they cannot carry waits (R177). How much shared cores carry is free (log entry 70). -/
def State.shareStandins (s : State) : State :=
  let all := s.arrs.flatMap fun p => (dedupN (p.2.onStandin ++ p.2.waitStandin)).map fun d => (p.1, d)
  let key (p : Nat × Nat) := ((s.tileClass p * 64 + p.1) * 16 + lgPlane (s.tileDesc p)) * 1024 + p.2
  let run := (sortBy key all).foldl (fun t p =>
    if t.all (fun q => s.standinMask p &&& s.standinMask q == 0) || Config.standinFits (t ++ [p]) then t ++ [p] else t) []
  if all = [] then s
  else (dedupN (all.map (·.1))).foldl (fun s a =>
    let x := s.arr a
    let need := dedupN (x.onStandin ++ x.waitStandin)
    s.setArr a { x with onStandin := need.filter fun d => run.contains (a, d),
                        waitStandin := need.filter fun d => !run.contains (a, d) }) s

/-! ### The live reference (R159) -/

/-- The baseline of a group in a record. -/
def CalRec.baseOf (r : CalRec) (g : Nat) : Nat × Int := (r.base[g]?).getD (32768, 0)

/-- The gain estimate of a group from its sums A and B (R159). -/
def gainEst (refGain : Nat) (a : Int) (b : Int) : Int := min (rndDiv 0 ((refGain : Int) * b) a.toNat) 131071

/-- How far a group's gain estimate departs from 32,768, where its window forms one or counts as forming one (R159). -/
def gainOff (refGain : Nat) (a b : Int) : Option Nat :=
  if b < 2 ^ 20 then none else some (if a > 0 then (gainEst refGain a b - 32768).natAbs else 32768)

/-- One group's estimates into its live values, the offsets held to S16 (R83, R159); and how far the gain estimate departs, where
there is one. -/
def liveStep (x : Arr) (k : Nat) : Arr × Option Nat :=
  let b := (tget .reset x.recs (k / 8)).baseOf (k % 8)
  let sa := tget 0 x.sumA k
  let sb := tget 0 x.sumB k
  let np := tget 0 x.npQ k
  let gl : Int := (tget 32768 x.gLive k : Nat)
  let ol := tget 0 x.oLive k
  let x := if sb ≥ 2 ^ 20 ∧ sa > 0 then
      { x with gLive := tset 32768 x.gLive k (min (gl + roundShift (gainEst b.1 sa sb - gl) 2 0) 65535).toNat } else x
  let oe := sat (rndDiv 0 (17 * tget 0 x.sumM k) np - b.2) 16
  let x : Arr := if np > 0 then { x with oLive := tset 0 x.oLive k (sat (ol + roundShift (oe - ol) 2 0) 16) } else x
  (x, gainOff b.1 sa sb)

/-- The live references of an array at the boundary that ends a window (R159): the bounds judged, the sums cleared. -/
def State.liveRefs (s : State) (a : Nat) : State :=
  let r := ((s.arr a).npQ.map (·.1)).foldl (fun (p : Arr × List Nat) k =>
    let q := liveStep p.1 k
    (q.1, match q.2 with | some d => d :: p.2 | none => p.2)) (s.arr a, [])
  let x := r.1
  let devs := r.2
  let soft := devs.any fun d => decide (2048 < d)
  let hard := devs.any fun d => decide (8192 < d)
  let run := if devs = [] then x.hardRun else if hard then x.hardRun + 1 else 0
  let s := s.setArr a { x with sumA := [], sumB := [], sumM := [], npQ := [], hardRun := run,
                               refBad := if devs = [] then x.refBad else soft }
  if x.st = .failed then s
  else
    let s := if soft then s.raise evLiveRefBound [] else s
    let s := if soft ∧ (x.st = .online ∨ x.st = .stale) then s.setArrState a .suspect else s
    if 4 ≤ run ∧ hard then s.failArray a false true else s

/-! ### Range codes (R128 to R130) -/

/-- One descriptor and cell type judged at the end of a quantum. The run of quiet quanta starts afresh after each narrowing (log entry
49). -/
def State.rangeStep (s : State) (a : Nat) (k : Nat) : State :=
  let x := s.arr a
  let l := x.desc (k / 2)
  let t := k % 2
  let n := tget 0 x.clipQ k
  let live := x.range (k / 2) t
  let clip := decide (lcThr l ≠ 0 ∧ 16 * lcThr l ≤ n)
  let s := if clip then s.raise evConvClip [(1, a), (2, lcLayer l), (1, t), (4, n)] else s
  if clip && lcAuto l && decide (live < 7) then
    (s.setArr a { s.arr a with live := tput x.live k (some (live + 1)), quiet := tset 0 x.quiet k 0 }).count
      (kDesc a (k / 2) (2 + t)) 1
  else
    let s := if clip && live == 7 && !x.limited.contains k then
      (s.setArr a { s.arr a with limited := k :: x.limited }).raise evConvRangeLimit [] else s
    if lcAuto l && decide (lcRange l t < live) then
      let q := if x.loud.contains k then 0 else tget 0 x.quiet k + 1
      if 256 ≤ q then
        (s.setArr a { s.arr a with live := tput x.live k (some (live - 1)), quiet := tset 0 x.quiet k 0,
                                   limited := x.limited.filter (· != k) }).count (kDesc a (k / 2) (4 + t)) 1
      else s.setArr a { s.arr a with quiet := tset 0 x.quiet k q }
    else s

/-- The range codes of an array at a boundary. -/
def State.ranges (s : State) (a : Nat) : State :=
  let keys := (s.arr a).descs.flatMap fun p => [2 * p.1, 2 * p.1 + 1]
  let s := keys.foldl (fun s k => s.rangeStep a k) s
  s.setArr a { s.arr a with clipQ := [], loud := [] }

/-! ### The history push and the saturation event (R105, R114) -/

/-- The layer of a history key completed for its channel in the quantum: all its rows are done, or its model's slot delivered its
whole wet output (R105; log entry 67). -/
def State.layerDone (s : State) (a k : Nat) : Bool :=
  let d := k / 4096
  let m := s.descModel a d
  decide (s.layerRowsQ m (lcLayer ((s.arr a).desc d)) ≤ tget 0 (s.arr a).doneQ k)
    || ((slModels (s.slotRec (k % 4096))).contains m && s.wetDone (k % 4096))

/-- The push of the quantum that ends: its row maximum, or `HIST_INIT` where the layer did not complete. -/
def State.historyPush (s : State) (a : Nat) : State :=
  let x := s.arr a
  let keys := dedupN (x.hist.map (·.1) ++ x.doneQ.map (·.1) ++ x.maxq.map (·.1))
  let hist := keys.foldl (fun h k =>
    let i := qcInit (x.desc (k / 4096))
    let d := List.replicate 8 i
    let v := if s.layerDone a k then tget 0x8000 x.maxq k else i
    tset d h k ((v :: tget d h k).take 8)) x.hist
  s.setArr a { x with hist := hist, doneQ := [], maxq := [], deferP := [] }

/-- `SAT_EVENT` for each layer and class over its threshold in the quantum `n`. -/
def State.satEvents (s : State) (a n : Nat) : State :=
  let x := s.arr a
  let s := x.satQ.foldl (fun s p =>
    let l := x.desc (p.1 / 4)
    if qcSatEvt l ≠ 0 ∧ 16 * qcSatEvt l ≤ p.2 then
      s.raise evSat [(1, a), (2, lcLayer l), (1, p.1 % 4), (8, n), (4, p.2)] else s) s
  s.setArr a { s.arr a with satQ := [] }

/-! ### Envelopes (R166 to R168); statistics in fixed point with 64 fraction bits (log entry 20) -/

/-- A fraction in the monitor's fixed point. -/
def envFx (n : Int) (d : Nat) : Int := rndDiv 0 (n * (2 ^ 64 : Nat)) d

/-- Smoothing of one statistic; the first judged quantum sets it. -/
def envSmooth (alpha : Nat) (first : Bool) (old new : Int) : Int :=
  if first then new else old + roundShift (new - old) alpha 0

/-- The monitor after a judged quantum: statistics smoothed; while learning, the envelope follows them. -/
def envFold (l : List DWord) (m : EnvMon) : EnvMon :=
  let mu := envFx m.sum m.n
  let var := envFx ((m.sq : Int) * (m.n : Int) - m.sum * m.sum) (m.n * m.n)
  let hs := (fit 0 16 m.hist).map fun (c : Nat) => envFx c m.n
  let first := m.learned == 0 && m.h == []
  let f := envSmooth (leAlpha l) first
  let mu' := f m.mu mu
  let var' := f m.var var
  let h' := ((fit 0 16 m.h).zip hs).map fun p => f p.1 p.2
  let m := { m with mu := mu', var := var', h := h' }
  if m.learned < leLearn l then { m with muE := mu', varE := var', hE := h', learned := m.learned + 1 } else m

/-- The failed tests of a judged quantum as bits: 0 mean, 1 variance, 2 histogram. -/
def envTests (l : List DWord) (m : EnvMon) : Nat :=
  let dm := (m.mu - m.muE).natAbs
  let vE := m.varE.toNat
  let v := m.var.toNat
  let t0 := decide (256 * dm ^ 2 > leMean l ^ 2 * vE * 2 ^ 64)
  let t1 := decide (v ^ 4 > 2 ^ leVar l * vE ^ 4 ∨ v ^ 4 * 2 ^ leVar l < vE ^ 4)
  let t2 := decide (256 * sumN (((fit 0 16 m.h).zip (fit 0 16 m.hE)).map fun p => (p.1 - p.2).natAbs) > leHist l * 2 ^ 64)
  b2n t0 + 2 * b2n t1 + 4 * b2n t2

/-- A calibration of the planes with active tiles joins the queue of an array (R165); `breach` says that a breach asked for it. -/
def State.queueCal (s : State) (a : Nat) (planes : List Nat) (cmd : Option Cmd) (breach : Bool) : State :=
  s.setArr a { s.arr a with calQ := (s.arr a).calQ ++ [⟨planes, cmd, breach⟩] }

/-- One descriptor and group judged at the end of a quantum (R168): the state, whether it was judged, whether it breached. -/
def State.envJudge (s : State) (a k : Nat) : State × Bool × Bool :=
  let x := s.arr a
  let d := k / 8
  let l := x.desc d
  let m := tget .reset x.env k
  if m.n < 256 ∨ ¬ leEn l then
    (s.setArr a { x with env := tset .reset x.env k { m with n := 0, sum := 0, sq := 0, hist := [] } }, false, false)
  else
    let learning := decide (m.learned < leLearn l)
    let m := { envFold l m with n := 0, sum := 0, sq := 0, hist := [] }
    let tests := if learning then 0 else envTests l m
    let br := tests ≠ 0
    let cnt := if br then m.breaches + 1 else 0
    let hit := decide (leN l ≤ cnt)
    let m := { m with breaches := if hit then 0 else cnt }
    let nv := if learning && leLearn l == m.learned then tput s.nv.envs ((a * 1024 + d) * 8 + k % 8) (some m) else s.nv.envs
    let s : State := { s.setArr a { x with env := tset .reset x.env k m } with nv.envs := nv }
    let s := if br then s.count (kDesc a d (6 + k % 8)) 1 else s
    if hit then
      let s := s.raise evEnvelopeBreach [(1, a), (2, d), (1, k % 8), (1, tests)]
      let s := if 2 ≤ x.breachCal then s.raise evEnvelopePersistent [] else s
      let s := if x.st = .online ∨ x.st = .stale then s.setArrState a .suspect else s
      let y := s.arr a
      let y := { y with toStandin := if leMove l && lpStandin l then d :: y.toStandin else y.toStandin }
      ((s.setArr a y).queueCal a (s.activePlanes a) none true, !learning, br)
    else (s, !learning, br)

/-- The envelopes of an array judged one after another (R166 to R168), and whether one of them was judged at all and
whether one was breached. -/
def State.envAll (s : State) (a : Nat) : List Nat → State × Bool × Bool
  | [] => (s, false, false)
  | k :: r =>
    let q := s.envJudge a k
    let t := State.envAll q.1 a r
    (t.1, q.2.1 || t.2.1, q.2.2 || t.2.2)

/-- The envelopes of an array at a boundary, and its way back from SUSPECT (R157). N is the largest `ENV_N` of the array's
descriptors; its quanta count from the end of the recalibration that a breach scheduled. Where the live reference alone made the
array SUSPECT, no recalibration stands in the way (log entry 71). -/
def State.envelopes (s : State) (a : Nat) : State :=
  let r := s.envAll a ((s.arr a).env.map (·.1))
  let s := r.1
  let x := s.arr a
  let owed := x.calQ.any (·.breach)
  let run := if r.2.2 || owed then 0 else if r.2.1 then x.cleanRun + 1 else x.cleanRun
  let need := maxN (x.descs.map fun p => leN p.2)
  let s := s.setArr a { x with cleanRun := if x.st = .suspect then run else 0 }
  if x.st = .suspect ∧ ¬ owed ∧ need ≤ run ∧ ¬ x.refBad then
    let s := s.online a
    s.setArr a { s.arr a with breachCal := 0, cleanRun := 0 }
  else s

/-! ### Calibration records (R160 to R163) -/

/-- Key of a stored record and of a plane's cycle counts. -/
def recKey (a plane point : Nat) : Nat := (16 * a + plane) * 4 + point
def cycKey (a plane entry : Nat) : Nat := (16 * a + plane) * 2112 + entry

/-- Plane weight column of an entry: a logical column's primary, or a spare (R117). -/
def physCol (e : Nat) : Nat :=
  if e < 2048 then 266 * (e / 256) + e % 256 else 266 * ((e - 2048) / 8) + 256 + (e - 2048) % 8

/-- The baseline words and column entries of a record as its bytes, the header above them, `CRC` as given (R160). -/
def CalRec.bytes (r : CalRec) (a crc : Nat) : List Byte :=
  leBytes 8 (a * 2 ^ 58 + r.plane * 2 ^ 54 + r.point * 2 ^ 52 + ux 12 r.temp * 2 ^ 40 + r.act * 2 ^ 32 + r.gen * 2 ^ 16
      + r.kind * 2 ^ 14)
    ++ leBytes 8 (r.seq % 2 ^ 32 * 2 ^ 32 + crc)
    ++ (List.range 8).flatMap (fun g => leBytes 8 ((r.baseOf g).1 * 2 ^ 48 + ux 16 (r.baseOf g).2 * 2 ^ 32))
    ++ (List.range 2112).flatMap fun e => leBytes 8 (tget colReset r.cols e).toNat

/-- The record with the CRC of its contents. -/
def CalRec.seal_ (r : CalRec) (a : Nat) : CalRec := { r with crc := crc32c (r.bytes a 0) }

/-- The record's `CRC` holds (R162). -/
def CalRec.sound (r : CalRec) (a : Nat) : Bool := r.crc == crc32c (r.bytes a 0)

/-- The records of a plane in the store, with their points. -/
def State.points (s : State) (a plane : Nat) : List (Nat × CalRec) :=
  (List.range 4).filterMap fun p => (tfind s.nv.calRecs (recKey a plane p)).map fun r => (p, r)

/-- The slots of 16 processing windows times the sample rate (R163). -/
def State.slots16 (s : State) : Nat := 16 * (s.q - 2) * 12500000

/-- The conditions' distance d of R163 as a numerator over `calDen`: the temperature, and the passes of 16 windows. -/
def State.calDist (s : State) (t : Int) (passes : Nat) (r : CalRec) : Nat :=
  let tb := fld s.cfg.plctl 44 39
  let ab := fld s.cfg.plctl 38 32
  let n := s.slots16
  let d1 := (t - r.temp).natAbs * (255 * n * ab)
  let d2 := ((255 * passes * rateHz s.time.rate : Int) - ((r.act * n : Nat) : Int)).natAbs * (100 * 16 * tb)
  max d1 d2

def State.calDen (s : State) : Nat := 16 * fld s.cfg.plctl 44 39 * (255 * s.slots16 * fld s.cfg.plctl 38 32)

/-- The nearest record: the smallest distance, ties to the higher sequence. -/
def State.nearest (s : State) (t : Int) (passes : Nat) : List (Nat × CalRec) → Option CalRec
  | [] => none
  | (_, r) :: l =>
    match s.nearest t passes l with
    | none => some r
    | some q =>
      let a := s.calDist t passes r
      let b := s.calDist t passes q
      if a < b ∨ (a = b ∧ q.seq < r.seq) then some r else some q

/-- A record whose `CRC` fails at load is discarded (R162). -/
def State.dropRec (s : State) (a : Nat) (r : CalRec) : State :=
  ({ s with nv.calRecs := s.nv.calRecs.filter fun p => !(p.1 / 4 == 16 * a + r.plane && p.2.seq == r.seq) } : State).raise
    evCalRecordBad []

/-- A record chosen for a plane: loaded into the idle bank for a swap at the next boundary, or into the staged bank; one that is not
sound is discarded (R162). -/
def State.chooseRec (s : State) (a : Nat) (r : CalRec) : State :=
  if r.sound a then
    let x := s.arr a
    s.setArr a { x with idle := tput x.idle r.plane (some r), swap := if x.staged then x.swap else r.plane :: x.swap }
  else s.dropRec a r

/-- A record written: it takes the next sequence number and its CRC (R160). -/
def State.writeRec (s : State) (a : Nat) (r : CalRec) : CalRec × State :=
  let r := CalRec.seal_ { r with seq := s.nv.calSeq + 1 } a
  (r, { s with nv.calSeq := s.nv.calSeq + 1, nv.calRecs := tput s.nv.calRecs (recKey a r.plane r.point) (some r) })

/-- Every record of a plane changed by `f` and written again, point by point. The one that is in use, or is to come into use, is
loaded anew, and comes into use by a swap of banks at a boundary (R160, R162, R170). -/
def State.rewriteRecs (s : State) (a plane : Nat) (f : CalRec → CalRec) : State :=
  (s.points a plane).foldl (fun s p =>
    let (r, s) := s.writeRec a (f p.2)
    let x := s.arr a
    let next := if x.staged || x.swap.contains plane then tfind x.idle plane else tfind x.recs plane
    if next.any fun u => u.point == p.1 then s.chooseRec a r else s) s

/-- A column's entry changed in every record of its plane (R161). -/
def State.setColEntry (s : State) (a plane entry : Nat) (f : BitVec 64 → BitVec 64) : State :=
  s.rewriteRecs a plane fun r => { r with cols := tset colReset r.cols entry (f (tget colReset r.cols entry)) }

/-- An entry with another `CSTATE` (R161). -/
def withCstate (st : Nat) (e : BitVec 64) : BitVec 64 := BitVec.ofNat 64 (e.toNat / 8 * 8 + st)

/-- An entry with its `COLSUM`. -/
def withColsum (v : Nat) (e : BitVec 64) : BitVec 64 :=
  BitVec.ofNat 64 (fld e 63 32 * 2 ^ 32 + v % 2 ^ 24 * 2 ^ 8 + fld e 7 0)

/-- The evaluation of one plane (R163): the record in use changes where the rule says so; and whether it is out of bounds. -/
def State.calPlane (s : State) (a plane : Nat) (t : Int) (passes : Nat) : State × Bool :=
  match s.nearest t passes (s.points a plane) with
  | none => (s, true)
  | some r =>
    let d := s.calDist t passes r
    let den := s.calDen
    let use := tfind (s.arr a).recs plane
    let du := match use with | some u => s.calDist t passes u | none => den + 1
    let s := if use ≠ some r ∧ (den ≤ 4 * (du - d) ∧ d < du ∨ den < du) then s.chooseRec a r else s
    (s, decide (den < d) || ((s.arr a).staged && decide (den < du)))

/-- `CAL_CONDITION_CHECK` (R163): the temperature and activity of the last 16 windows choose the records; an array out of
bounds becomes STALE and asks for a calibration, one within them becomes ONLINE again. -/
def execCalConditionCheck (arr : Nat) (temp : Int) (s : State) : Res :=
  inUnit arr 48 (
    let x := s.arr arr
    let n := x.passes16
    let s := s.setArr arr { x with temp := temp, passes16 := 0 }
    let act := s.activePlanes arr
    let r := (List.range 16).foldl (fun (p : State × Bool) pl =>
      let q := p.1.calPlane arr pl temp n
      (q.1, p.2 || (q.2 && act.contains pl))) (s, false)
    let s := r.1
    if r.2 then
      if x.st = .online then
        ((s.setArrState arr .stale).raise evCalStale []).queueCal arr act none false
      else s
    else if x.st = .stale then s.setArrState arr .online
    else s)

/-! ### Calibration (R158, R159, R164, R165) -/

/-- The stimulus code of a plane row in a calibration pass: uniform over 1 to 255, from the plane's generator (R164). -/
def stimCode (plane pass row : Nat) : Nat := 1 + Config.stimulus plane pass row % 255

/-- The driven rows of a calibration pass, with their codes. -/
def stimRows (plane pass : Nat) : List (Nat × Nat) := (List.range 2048).map fun i => (i, stimCode plane pass i)

/-- R17 of a calibration pass. -/
def stimPat (plane pass : Nat) : Nat := sumN ((List.range 128).map fun i => stimCode plane pass (16 * i))

/-- Calibration passes `lo` to below `hi` of a plane enter the live-reference sums: the sum of 15 × R17 exactly, and what the
reference columns return, which departs from the expected values by a free amount (R158, R159; log entry 3). -/
def Arr.calRefs (x : Arr) (f plane lo hi : Nat) : Arr :=
  let b : Nat := sumN ((List.range (hi - lo)).map fun i => 15 * stimPat plane (lo + i))
  (List.range 8).foldl (fun x g =>
    let k := plane * 8 + g
    { x with sumA := tmod 0 x.sumA k (· + ((b : Int) + Config.freeRef f (16 * plane + 2 * g))), sumB := tmod 0 x.sumB k (· + (b : Int)),
             sumM := tmod 0 x.sumM k (· + Config.freeRef f (16 * plane + 2 * g + 1)), npQ := tmod 0 x.npQ k (· + (hi - lo)) }) x

/-- The parts of passes `lo` to below `hi` of a calibration that fall on its planes, 64 on each: plane, first and end pass. -/
def calParts (planes : List Nat) (lo hi : Nat) : List (Nat × Nat × Nat) :=
  ((List.range planes.length).map fun i =>
    (nth 0 planes i, max lo (64 * i) - 64 * i, min hi (64 * i + 64) - 64 * i)).filter fun p => p.2.1 < p.2.2

/-- `CONV_CLIP` of `n` passes of a calibration, by group and cell type: up to 266 conversions of each in a pass are beyond the
converter's range, how many is free (R120, R154; log entry 3). -/
def calClips (a f n : Nat) : List (Nat × Nat) :=
  (List.range 16).map fun i => (kArr a (3 + i), Config.freeCount f (16 + i) % (266 * n + 1))

/-- The 64 passes of the capture after a program: they count, enter the live-reference sums and select the plane (R149, R154, R159,
R164). -/
def State.capturePasses (s : State) (a plane : Nat) : State :=
  let x := s.arr a
  let (f, s) := s.take
  (s.setArr a { x.calRefs f plane 0 64 with passes16 := x.passes16 + 64, sel := plane }).counts
    ([(kArr a 0, 64), (kArr a 1, b2n (x.sel != plane))] ++ calClips a f 64)

/-- `CAL_SLICE` (R165): a slice of the calibration at the head of the queue runs on from the pass that it reached, while the FIFO is
empty; its passes select the planes one after another and enter the live-reference sums. A slice that has not run to its limit can
be preempted; the one that goes on after a row counts again, with a limit of its own (log entry 71). -/
def execCalSlice (arr passes : Nat) (s : State) : Res :=
  inUnit arr 48 (
    let x := s.arr arr
    match x.calQ with
    | [] => s
    | q :: _ =>
      let left := 64 * q.planes.length - x.calDone
      if !s.mayPass arr || x.fifo != [] || x.asm.any (!·.whole) || s.ballast 1 || s.isolated (64 + arr) || left == 0 then s
      else
        let n := min passes (min 250 left)
        let (f, s) := s.take
        let parts := calParts q.planes x.calDone (x.calDone + n)
        let sel := parts.foldl (fun (t : Nat × Nat) p => (p.1, t.2 + b2n (p.1 != t.1))) (x.sel, 0)
        let x := parts.foldl (fun (x : Arr) p => x.calRefs f p.1 p.2.1 p.2.2) x
        let x := { x with calDone := x.calDone + n, sliceOn := decide (n < min 250 left), passes16 := x.passes16 + n, sel := sel.1 }
        (s.setArr arr x).counts ([(kArr arr 24, 1), (kArr arr 0, n), (kArr arr 1, sel.2)] ++ calClips arr f n))

/-- The least-squares fit of G × (acc - o) to r over the pairs (acc, r): `GAIN` and `OFFSET`, rounded with RNE and held to U16 and
S16; the Reset values where the pairs fix no line (R164; log entry 72). -/
def fitLine (ps : List (Int × Int)) : Nat × Int :=
  let n := ps.length
  let sx := sumI (ps.map (·.1))
  let sy := sumI (ps.map (·.2))
  let den := (n : Int) * sumI (ps.map fun p => p.1 * p.1) - sx * sx
  let num := (n : Int) * sumI (ps.map fun p => p.1 * p.2) - sx * sy
  if den ≤ 0 ∨ num ≤ 0 then (0x8000, 0)
  else ((min 65535 (rndDiv 0 (num * 32768) den.toNat)).toNat, sat (rndDiv 0 (num * sx - den * sy) (n * num.toNat)) 16)

/-- Stage 5 of one calibration pass with the live values at rest (R132, R159). -/
def fitValue (gain : Nat) (ofs acc : Int) : Int := sat (roundShift ((acc - ofs) * (gain : Int)) 15 0) 32

/-- The sum of the squared residuals of a fit: pairs (acc, r), with the adapter's terms. -/
def fitRest (gain : Nat) (ofs : Int) (ps : List (Int × Int)) (terms : List Int) : Nat :=
  sumN (((List.range ps.length).zip ps).map fun p => (fitValue gain ofs p.2.1 + nth 0 terms p.1 - p.2.2).natAbs ^ 2)

/-- The tile that uses a logical column of a plane. -/
def Arr.tileAt (x : Arr) (plane c : Nat) : Option (Nat × List DWord) :=
  x.descs.find? fun p => lgPlane p.2 == plane && decide (lgCol p.2 ≤ c ∧ c < lgCol p.2 + lgFold p.2 * lgC p.2)

/-- What the adapter of the tile adds to column `c` in a calibration pass: the codes of the column's fold, the others at zero (R169,
R171). -/
def State.calTerm (s : State) (a src c pass : Nat) : Int :=
  match (s.arr a).tileAt src c with
  | none => 0
  | some (d, l) =>
    let ad := tget .reset (s.arr a).adapters d
    let rpf := cdiv (lgK l) (lgFold l)
    let f := (c - lgCol l) / lgC l
    let codes := (List.range (lgK l)).map fun i => if i / rpf = f then stimCode src pass (lgRow l + i % rpf) else qcZ l
    if ad.rank = 0 then 0 else nth 0 (adapterTerms s.cfg.bcA (qcZ l) ad.rank (lgC l) ad.a ad.b codes).1 ((c - lgCol l) % lgC l)

/-- E_col lies above the bound of -`bound` dB, from the sums of squares of the references and of the residuals (R164, R169). -/
def overBound (ref rest bound : Nat) : Bool := decide (ref ^ 10 < rest ^ 10 * 10 ^ bound)

/-- A column's fit (R164): from the codes of the 64 passes, the exact reference r and the exact sums of R111 over the plane's 2,048
rows, the `NLI` whose curves leave the least residual, `GAIN` and `OFFSET`; and whether E_col lies above the column's bound, with
the adapter's terms (R169). `src` is the plane that the descriptors name; the range codes are those of the tile that uses the
column (log entry 72). -/
def State.fitColumn (s : State) (a src model gen c : Nat) (codes : List (Int × Int)) : (Nat × Nat × Int) × Bool :=
  let x := s.arr a
  let us := (List.range 2048).map fun row => s.intended a src model gen row c
  let tile := x.tileAt src c
  let rng (t : Nat) : Nat := match tile with | some (d, _) => x.range d t | none => 4
  let bound : Nat := match tile with | some (_, l) => lpFlag l | none => 66
  let n := codes.length
  let q (i : Nat) := (stimRows src i).map (·.2)
  let rs := (List.range n).map fun i => sumN (q i)
  let r : List Int := (List.range n).map fun i => sumI (((q i).zip us).map fun p => ((p.1 : Int) - 128) * ((p.2 : Int) - 128))
  let acc (nli i : Nat) := x.combine nli (rng 1) (rng 0) (nth 0 rs i) (nth (0, 0) codes i).1 (nth (0, 0) codes i).2
    - 128 * (sumN us : Int) - 128 * ((nth 0 rs i : Nat) : Int) + 2048 * 128 * 128
  let pairs (nli : Nat) := (List.range n).map fun i => (acc nli i, nth 0 r i)
  let fits := (List.range 32).map fun nli =>
    let g := fitLine (pairs nli)
    (nli, g.1, g.2, fitRest g.1 g.2 (pairs nli) [])
  let best := (fits.drop 1).foldl (fun (b : Nat × Nat × Int × Nat) f => if f.2.2.2 < b.2.2.2 then f else b)
    (nth (0, 0x8000, 0, 0) fits 0)
  let rest : Nat := fitRest best.2.1 best.2.2.1 (pairs best.1) ((List.range n).map fun i => s.calTerm a src c i)
  ((best.1, best.2.1, best.2.2.1), overBound (sumN (r.map fun v => v.natAbs ^ 2)) rest bound)

/-- A column entry with its fit; the sum of intended weights and the state are kept (R161, R164). -/
def fitEntry (old : BitVec 64) (f : Nat × Nat × Int) : BitVec 64 :=
  BitVec.ofNat 64 (f.2.1 % 2 ^ 16 * 2 ^ 48 + ux 16 f.2.2 * 2 ^ 32 + fld old 31 8 * 2 ^ 8 + f.1 % 32 * 8 + fld old 2 0)

/-- The entries of a record with every fit at its Reset value. -/
def bareCols (cols : Tab (BitVec 64)) : Tab (BitVec 64) :=
  cols.map fun p => (p.1, BitVec.ofNat 64 (0x8000 * 2 ^ 48 + fld p.2 31 8 * 2 ^ 8 + fld p.2 2 0))

/-- The logical column of an entry: a primary's own, or the one that the spare carries or is to carry (R148, R174). -/
def Arr.entryCol (x : Arr) (plane e : Nat) : Nat :=
  if e < 2048 then e
  else
    match x.prog with
    | some p => if p.spare = some (e - 2048) then nth 0 p.cols 0 else tget 0 (tget [] x.colmap plane) (e - 2048)
    | none => tget 0 (tget [] x.colmap plane) (e - 2048)

/-- The fits of the columns of a plane that a capture measured: entry, logical column, fit, and whether the column is over its
bound. -/
def State.fitAll (s : State) (a src : Nat) (m : CalMeas) : List (Nat × Nat × (Nat × Nat × Int) × Bool) :=
  let hold := (tfind s.nv.holds (16 * a + m.plane)).getD (0, 0, 0)
  m.cols.map fun c =>
    let col := (s.arr a).entryCol m.plane c.entry
    let f := s.fitColumn a src hold.1 hold.2.1 col c.codes
    (c.entry, col, f.1, f.2)

/-- Column entries changed by the fits. -/
def fitCols (cols : Tab (BitVec 64)) (fs : List (Nat × Nat × (Nat × Nat × Int) × Bool)) : Tab (BitVec 64) :=
  fs.foldl (fun t f => tset colReset t f.1 (fitEntry (tget colReset t f.1) f.2.2.1)) cols

/-- The adapter of a tile has reached the largest rank that it may take, or level 2 is not allowed (R169, R171, R174, R175). -/
def Arr.levelTwoDone (x : Arr) (d : Nat) (l : List DWord) : Bool :=
  !lpAdapt l || decide (lpMax l ≤ (tget .reset x.adapters d).rank)

/-- The tiles that use a logical column of a plane. -/
def Arr.tilesAt (x : Arr) (plane c : Nat) : List (Nat × List DWord) :=
  x.descs.filter fun p => lgPlane p.2 == plane && decide (lgCol p.2 ≤ c ∧ c < lgCol p.2 + lgFold p.2 * lgC p.2)

/-- Measured columns over their bound are flagged, the others are no longer; a column keeps its level while it stays flagged; one
that is over its bound after its column program, with the adapters of its tiles at their largest rank in use, is left to level 3
(R169, R174). -/
def State.flagCols (s : State) (a plane : Nat) (fs : List (Nat × Nat × (Nat × Nat × Int) × Bool)) : State :=
  let x := s.arr a
  let seen := fs.map (·.2.1)
  let bad := (fs.filter (·.2.2.2)).map (·.2.1)
  let s := bad.foldl (fun s _ => s.raise evColumnFlagged []) s
  let fl := (tget [] x.flagged plane).filter (!seen.contains ·) ++ bad
  let tried := (tget [] x.tried plane).filter fl.contains
  let spent := (tget [] x.spent plane).filter (fun c => fl.contains c && !bad.contains c)
    ++ bad.filter fun c => tried.contains c && (x.tilesAt plane c).all fun p => x.levelTwoDone p.1 p.2
  s.setArr a { s.arr a with flagged := tset [] x.flagged plane fl, tried := tset [] x.tried plane tried,
                            spent := tset [] x.spent plane spent }

/-- The group baselines of a capture (R160, R164): `REF_GAIN` the measured reference gain, the sum of D_full - D_zero by 15 × R17, in
units of 2^-15; `REF_OFS` the offset estimate of R159 over its 64 passes. -/
def baselines (m : CalMeas) : List (Nat × Int) :=
  let b : Nat := sumN ((List.range 64).map fun i => 15 * stimPat m.plane i)
  (fit (0, 0) 8 m.refs).map fun p =>
    ((max 0 (min 65535 (rndDiv 0 (32768 * p.1) b))).toNat, sat (rndDiv 0 (17 * p.2) 64) 16)

/-- The distance d between the conditions of two records, in units of one part of 16 × 255 × T_B × 100 a_B (R163). -/
def State.recDist (s : State) (r q : CalRec) : Nat :=
  max ((r.temp - q.temp).natAbs * 255 * fld s.cfg.plctl 38 32)
    (((r.act : Int) - (q.act : Int)).natAbs * 100 * 16 * fld s.cfg.plctl 44 39)

/-- A new record of a plane as a new point (R164): a free point, or that of the record nearest in d, the older on a tie. -/
def State.addPoint (s : State) (a : Nat) (r : CalRec) : State :=
  let ps := s.points a r.plane
  let free := (List.range 4).find? fun p => !(ps.map (·.1)).contains p
  let far (p : Nat × CalRec) := s.recDist r p.2
  let worst := ps.foldl (fun (b : Option (Nat × CalRec)) p =>
    match b with
    | none => some p
    | some q => if far p < far q ∨ (far p = far q ∧ p.2.seq < q.2.seq) then some p else some q) none
  let pt := match free with | some p => p | none => (worst.map (·.1)).getD 0
  let w := s.writeRec a { r with point := pt }
  w.2.chooseRec a w.1

/-- The generation of a plane's weights. -/
def State.planeGen (s : State) (a plane : Nat) : Nat := ((tfind s.nv.holds (16 * a + plane)).map (·.2.1)).getD 0

/-- The weights that a plane of an array holds, read from the store and decoded (R164, R271, R298). -/
def State.checkHeld (s : State) (a plane : Nat) : Bool × State :=
  match tfind s.nv.holds (16 * a + plane) with
  | none => (true, s)
  | some h => s.checkPlane none a plane h.1 h.2.1

/-- A capture of a plane as a record, not yet written: the header fields in their widths, the baselines, and column entries with the
fits (R160, R161, R164). -/
def State.capture_ (s : State) (a kind : Nat) (m : CalMeas) (cols : Tab (BitVec 64))
    (fs : List (Nat × Nat × (Nat × Nat × Int) × Bool)) : CalRec :=
  { CalRec.reset with plane := m.plane, temp := sat m.temp 12, act := m.act % 256, gen := s.planeGen a m.plane % 65536, kind := kind,
                      base := baselines m, cols := fitCols cols fs }

/-- A measurement of every logical column of a plane, on its primary or on its spare: what the converters return for a column that
the operand does not list is free (R164; log entry 3). -/
def State.fullMeas (s : State) (a f : Nat) (m : CalMeas) : CalMeas :=
  let free (c i : Nat) : Int × Int :=
    (sat (Config.freeRef f (64 + (c * 64 + i) * 2)) 12, sat (Config.freeRef f (65 + (c * 64 + i) * 2)) 12)
  let one (c : Nat) : ColMeas :=
    let e := (s.arr a).entryOf m.plane c
    (m.cols.find? fun p => p.entry == e).getD (ColMeas.mk e ((List.range 64).map (free c)))
  { m with cols := (List.range 2048).map one }

/-- One plane's calibration becomes a record (R160, R164); where its reference does not read, the plane keeps its records (R298). -/
def State.fitPlane (s : State) (a kind : Nat) (m : CalMeas) : State :=
  let (f, s) := s.take
  let m := s.fullMeas a f m
  let (ok, s) := s.checkHeld a m.plane
  let fs := s.fitAll a m.plane m
  if !ok then s
  else (s.flagCols a m.plane fs).addPoint a (s.capture_ a kind m (bareCols (tget .reset (s.arr a).recs m.plane).cols) fs)

/-- A host's calibration has ended on an array: the command completes once no array is left (R413). -/
def State.calEnded (s : State) (a : Nat) (c : Cmd) : State :=
  match s.host.cals.find? fun p => p.1 == c with
  | none => s
  | some (_, left, done) =>
    let left := left.filter (· != a)
    let done := a :: done
    let rest := s.host.cals.filter fun p => p.1 != c
    if left = [] then
      let m := sumN (done.map fun i => 2 ^ i)
      { s with host.cals := rest }.finish c 0 (m % 2 ^ 32) (m / 2 ^ 32) []
    else { s with host.cals := rest ++ [(c, left, done)] }

/-- `CALIBRATION_COMPLETE` (R164, R165): once every pass has run, new records are fitted for every plane and loaded; one in
MAINTENANCE also refreshes the curves. One that a breach scheduled opens the way back from SUSPECT (R157). -/
def execCalibrationComplete (arr : Nat) (meas : List CalMeas) (curves : List (List Int)) (s : State) : Res :=
  inUnit arr 48 (
    let x := s.arr arr
    match x.calQ with
    | [] => s
    | q :: rest =>
      if x.calDone < 64 * q.planes.length ∨ !x.serves then s
      else
        let maint := s.run.st == .maintenance
        let cur := if maint && curves.length == 64 then (List.range 64).zip curves else x.curves
        let s := s.setArr arr { x with calQ := rest, calDone := 0, sliceOn := false, curves := cur,
                                       breachCal := x.breachCal + b2n q.breach, cleanRun := if q.breach then 0 else x.cleanRun }
        let s : State := { s with nv.calCurves := cur.foldl (fun t p => tput t (64 * arr + p.1) (some p.2)) s.nv.calCurves }
        let s := q.planes.foldl (fun s pl =>
          s.fitPlane arr (if maint then 2 else 1) ((meas.find? fun m => m.plane == pl).getD ⟨pl, x.temp, 0, [], []⟩)) s
        let s := if x.st = .stale ∧ ¬ maint then s.setArrState arr .online else s
        match q.cmd with
        | some c => s.calEnded arr c
        | none => s)

/-! ### Column programs (R149 to R152, R170, R174) -/

/-- The programmed level of a cell pair with a stuck cell (R170), and whether its partner had to compensate. -/
def compLevel (u : Nat) (st : Option StuckCell) : Nat :=
  match st with
  | none => u
  | some k =>
    if k.hiCell then 16 * k.level + (min 15 (u - 16 * k.level))
    else
      let h := rndDiv 0 ((u : Int) - (k.level : Int)) 16
      16 * (if h < 0 then 0 else if h > 15 then 15 else h.toNat) + k.level

/-- The highest of the cycle counts of some entries of a plane. -/
def State.cycles (s : State) (a plane : Nat) (es : List Nat) : Nat := maxN (es.map fun e => tget 0 s.nv.cycles (cycKey a plane e))

/-- One cycle counted on each entry; `PLANE_WEAR_WARN` for the plane where one of its columns passes 2,700 (R151). -/
def State.cycle (s : State) (a plane : Nat) (es : List Nat) : State :=
  let pass := es.any fun e => tget 0 s.nv.cycles (cycKey a plane e) == 2700
  let s : State := { s with nv.cycles := es.foldl (fun t e => tmod 0 t (cycKey a plane e) (· + 1)) s.nv.cycles }
  if pass then s.raise evPlaneWearWarn [(1, a), (1, plane)] else s

/-- An array may start to program: it serves, no array of its die programs, and no ballast stage is in force (R152, R295). -/
def State.mayProgram (s : State) (a : Nat) : Bool :=
  (s.arr a).serves && s.sup.stage == 0 && !s.isolated (64 + a) && !s.draining
    && (List.range 12).all fun i => (s.arr (a / 12 * 12 + i)).st != .programming

/-- A request for a program joins those that wait, once (R152). -/
def State.queueProg (s : State) (r : ProgReq) : State :=
  if s.model.progs.contains r then s else { s with model.progs := s.model.progs ++ [r] }

/-- Columns of a plane erased and programmed to their intended levels, given by entry with the logical column they carry;
`src` is the plane that the descriptors name (R149, R170). A cell of `off` stays at its level, and its partner is recomputed. -/
def State.programCols (s : State) (a plane src : Nat) (cols : List (Nat × Nat)) (off : List StuckCell) : State :=
  let hold := (tfind s.nv.holds (16 * a + plane)).getD (0, 0, 0)
  let s := s.cycle a plane (cols.map (·.1))
  cols.foldl (fun s p =>
    (List.range 2048).foldl (fun s row =>
      let u := s.intended a src hold.1 hold.2.1 row p.2
      let st := off.find? fun k => k.row == row && k.col == p.2
      let s : State := { s with nv.cells := tset 0 s.nv.cells (cellKey a plane row (physCol p.1)) (compLevel u st) }
      if st.isSome then s.count (kArr a 26) 1 else s) s) s

/-- `COLUMN_PROGRAM` (R149 to R152, R169, R170): level 1 of repair: up to eight flagged columns of a plane wait for their program,
which starts at a boundary. -/
def execColumnProgram (arr plane : Nat) (cols : List Nat) (stuck : List StuckCell) (s : State) : Res :=
  inUnit (max arr (3 * plane)) 48 (
    let cs := (cols.filter (tget [] (s.arr arr).flagged plane).contains).take 8
    if cs = [] ∨ s.draining then s else s.queueProg ⟨arr, plane, false, cs, stuck, none⟩)

/-- A column program starts at a boundary: it is refused where its weights do not read (R271), and beyond 3,000 cycles, and the plane is WORN; the read-back's cells are kept
for the capture (R151, R170, R174). -/
def State.startCols (s : State) (r : ProgReq) : State :=
  let x := s.arr r.arr
  let es := match r.spare with
    | some k => r.cols.map fun c => (2048 + k, c)
    | none => r.cols.map fun c => (x.entryOf r.plane c, c)
  let (ok, s) := s.checkHeld r.arr r.plane
  if !ok then s
  else if 3000 ≤ s.cycles r.arr r.plane (es.map (·.1)) then { s with nv.alloc := tput s.nv.alloc (16 * r.arr + r.plane) (some 3) }
  else
    let s := s.offline r.arr .programming true
    let y := s.arr r.arr
    let keep := (tget [] y.offCells r.plane).filter fun k => !r.cols.contains k.col
    (s.setArr r.arr { y with
      prog := some ⟨r.plane, r.cols, false, r.spare, false⟩,
      offCells := tset [] y.offCells r.plane (keep ++ r.stuck.filter fun k => r.cols.contains k.col),
      tried := tmod [] y.tried r.plane fun t => dedupN (t ++ r.cols) }).programCols r.arr r.plane r.plane es r.stuck

/-- What the capture after a column program writes into each record of the plane (R170, R174): the fit and `COLSUM` of each column,
and `CSTATE` 1 where a weight is compensated. -/
def State.captureCols (s : State) (a : Nat) (p : ProgJob) (fs : List (Nat × Nat × (Nat × Nat × Int) × Bool)) (r : CalRec) :
    CalRec :=
  let x := s.arr a
  let hold := (tfind s.nv.holds (16 * a + p.plane)).getD (0, 0, 0)
  let off := tget [] x.offCells p.plane
  let es := match p.spare with
    | some k => p.cols.map fun c => (2048 + k, c)
    | none => p.cols.map fun c => (x.entryOf p.plane c, c)
  let upd (e : Nat × Nat) (w : BitVec 64) : BitVec 64 :=
    withCstate (b2n (off.any fun k => k.col == e.2)) (withColsum (s.levelSum a p.plane hold.1 hold.2.1 e.2 0 2048) w)
  let cols := es.foldl (fun t e => tset colReset t e.1 (upd e (tget colReset t e.1))) r.cols
  { r with cols := fitCols cols fs }

/-- `COLUMN_PROGRAM_DONE` (R157, R160, R170, R174): the columns' entries take the captured values in every point of the plane, each
a record written anew, and the array leaves PROGRAMMING at the next boundary. -/
def execColumnProgramDone (arr : Nat) (meas : CalMeas) (s : State) : Res :=
  inUnit arr 48 (
    match (s.arr arr).prog with
    | none => s
    | some p =>
      if p.whole || p.done then s
      else
        let mine (e : Nat) := p.cols.contains ((s.arr arr).entryCol p.plane e)
        let fs := s.fitAll arr p.plane { meas with plane := p.plane, cols := meas.cols.filter fun c => mine c.entry }
        let s := ((s.capturePasses arr p.plane).rewriteRecs arr p.plane (s.captureCols arr p fs)).flagCols arr p.plane fs
        let x := s.arr arr
        s.setArr arr { x with
          prog := some { p with done := true },
          mapNext := match p.spare with | some k => (p.plane, k, nth 0 p.cols 0) :: x.mapNext | none => x.mapNext })

/-- `SPARE_REMAP` (R148, R150, R169, R174): level 3, for a column over its bound after level 1 with its tiles' adapters at their largest
rank: the program of a free spare of its group waits for its turn, with the cells that its read-back finds off, and the map changes
once it is done; without a spare the column is unrepairable, and its tiles move to their stand-ins. A column that lies on a spare
goes to another one in the same way; a spare that a column has left is not free. -/
def execSpareRemap (arr plane col : Nat) (stuck : List StuckCell) (s : State) : Res :=
  inUnit (max arr (3 * plane)) 48 (
    let x := s.arr arr
    let tiles := x.tilesAt plane col
    let entry := x.entryOf plane col
    let state (e : Nat) := fld (tget colReset (tget .reset x.recs plane).cols e) 2 0
    if !(tget [] x.flagged plane).contains col || !(tget [] x.spent plane).contains col || s.draining || state entry == 3 then s
    else
      let asked := (s.model.progs.filter fun r => r.arr == arr && r.plane == plane).filterMap (·.spare)
      let running := match x.prog with | some p => p.spare.toList | none => []
      let used := (tget [] x.colmap plane).map (·.1) ++ ((x.mapNext.filter fun p => p.1 == plane).map fun p => p.2.1)
        ++ asked ++ running ++ (List.range 64).filter fun k => decide (2 ≤ state (2048 + k))
      match (List.range 8).find? fun i => !used.contains (8 * (col / 256) + i) with
      | some i =>
        if (s.model.progs.any fun r => r.arr == arr && r.plane == plane && r.spare.isSome && r.cols == [col])
            || (match x.prog with | some p => p.spare.isSome && p.plane == plane && p.cols == [col] | none => false) then s
        else s.queueProg ⟨arr, plane, false, [col], stuck, some (8 * (col / 256) + i)⟩
      | none =>
        let s := (s.setColEntry arr plane entry (withCstate 3)).raise evColumnUnrepairable []
        let mv := (tiles.filter fun p => lpStandin p.2).map (·.1)
        s.setArr arr { s.arr arr with toStandin := mv ++ (s.arr arr).toStandin })

/-! ### What takes effect at a boundary (R162, R173, R174, R177) -/

/-- The live values of a plane start again (R159). -/
def liveReset (x : Arr) (p : Nat) : Arr :=
  { x with gLive := x.gLive.filter fun e => e.1 / 8 != p, oLive := x.oLive.filter fun e => e.1 / 8 != p }

/-- A swap of the calibration banks for a plane (R162). -/
def bankSwap (x : Arr) (p : Nat) : Arr :=
  match tfind x.idle p with
  | some r => liveReset { x with recs := tput x.recs p (some r), idle := tdel x.idle p } p
  | none => x

/-- An accepted adapter comes into use (R173). -/
def adapterIn (ad : Adapter) : Adapter :=
  match ad.next with
  | some (r, a, b) => { ad with rank := r, a := a, b := b, next := none }
  | none => ad

/-- A column goes to its spare: the map entry is set, and that of a spare which it leaves is cleared; the old column is marked as
replaced and no longer flagged, and `SPARE_REMAPPED` is raised (R148, R174). -/
def State.remapCol (s : State) (a : Nat) (p : Nat × Nat × Nat) : State :=
  let x := s.arr a
  let old := x.entryOf p.1 p.2.2
  let put (m : Tab (Tab Nat)) (k : Nat) :=
    tput m k (some (tput ((tget [] m k).filter fun e => e.2 != p.2.2) p.2.1 (some p.2.2)))
  let s := s.setArr a { x with colmap := put x.colmap p.1,
                               flagged := tmod [] x.flagged p.1 fun l => l.filter (· != p.2.2),
                               tried := tmod [] x.tried p.1 fun l => l.filter (· != p.2.2),
                               spent := tmod [] x.spent p.1 fun l => l.filter (· != p.2.2) }
  let s : State := { s with nv.colmap := put s.nv.colmap (16 * a + p.1) }
  (s.setColEntry a p.1 old (withCstate 2)).raise evSpareRemapped []

/-- Swaps, adapters, column maps and stand-in moves of an array take effect; the tiles `off` leave their stand-ins, those of an array
that has come back at this boundary at the next one (R177). -/
def State.arrEffects (s : State) (a : Nat) (off : List Nat) : State :=
  let maps := (s.arr a).mapNext.reverse
  let s := maps.foldl (fun s p => s.remapCol a p) (s.setArr a { s.arr a with mapNext := [] })
  let x := s.arr a
  let x := if x.staged then x else { x.swap.foldl bankSwap x with swap := [] }
  let on := dedupN ((x.onStandin.filter fun d => !off.contains d) ++ x.toStandin)
  s.setArr a { x with adapters := x.adapters.map fun p => (p.1, adapterIn p.2), onStandin := on,
                      waitStandin := x.waitStandin.filter fun d => !off.contains d,
                      toStandin := [], fromStandin := x.fromStandin.filter fun d => !off.contains d }

/-- An array at the boundary that ends the window of quantum `n`; one that still drains counts in `LATE_START` (R33). -/
def State.arrBoundary (s : State) (n a : Nat) : State :=
  let s := s.count (kEngine 1) (b2n ((s.arr a).drain != []))
  let off := (s.arr a).fromStandin
  (((((s.liveRefs a).ranges a).satEvents a n).historyPush a).envelopes a).arrEffects a off

/-- What a deadline leaves at an array: rows in work are dropped, their layers did not complete, and passes in flight run to their
end (R23, R32, R33, R105). -/
def State.arrDeadline (s : State) (a : Nat) : State :=
  let s := (s.arr a).pool.foldl (fun s p =>
    s.flushPool a (p.1 / 4096) (p.1 % 4096) (s.layerCols (s.tiles a (p.1 / 4096))) true (p.2.length + 1)) s
  let x := s.arr a
  let fly := x.fifo.filter fun j => j.donePasses < j.passes
  let s := fly.foldl (fun s _ => s.traceCyc (128 + a) 2 (s.gaugeTag (128 + a))) s
  let cut := (x.joins.map fun p => hKey (p.1 % 1024) (p.1 / 1024 / 65536))
    ++ (x.fifo ++ x.late).map fun j => hKey j.jDesc (rhSlot j.hdr)
  s.setArr a { x with fifo := [], late := [], joins := [], asm := none, pool := [], drain := x.drain ++ fly,
                      doneQ := x.doneQ.filter fun p => !cut.contains p.1 }

/-! ### Adapters (R171 to R173) -/

/-- `PROBE_SAVE` (R172): every `PROBE_INT` quanta the last row of the tile, with its codes and acc_corr, enters the tile's ring of
256, in the loft over what others wrote there (R246); ballast stage B2 pauses it. -/
def execProbeSave (arr desc : Nat) (s : State) : Res :=
  inUnit arr 48 (
    let x := s.arr arr
    let l := x.desc desc
    let due := match tfind x.probeAt desc with | some q => decide (q + lpProbe l ≤ s.qindex) | none => true
    match tfind x.lastRow desc with
    | none => s
    | some (codes, acc) =>
      if lpAdapt l && due && !s.ballast 2 then
        let ring := tget [] x.probe desc ++ [(codes, acc)]
        let own (a : Nat) := s.loft.regions.any fun w => rgKind w == 4 && inRegion a w
        State.setArr { s with loft.wrote := s.loft.wrote.filter fun p => !own p.1 } arr
          { x with probe := tset [] x.probe desc (ring.drop (ring.length - 256)), probeAt := tput x.probeAt desc (some s.qindex) }
      else s)

/-- The probe rows held out from training: the 64 oldest of the ring (R172; log entry 69). -/
def Arr.heldOut (x : Arr) (d : Nat) : List (List Nat × List Int) := (tget [] x.probe d).take 64

/-- One master copy after a step: less the gradient times the learning rate, rounded to FP32; and what that raised (R82, R172). -/
def sgdStep (bcA : Bool) (rate m g : Nat) : Lane :=
  let x := rd32 bcA m
  let v := fpRead bf16 bcA g
  .fp [x, v] (fpAdd fp32 bcA 0 x { v with neg := !v.neg, val := ⟨-v.val.man, v.val.exp - rate⟩ })

/-- The master copies after a step on all their elements; elements that a copy does not have yet are zero (R172). -/
def sgdAll (bcA : Bool) (rate : Nat) (ms gs : List Nat) : List Lane :=
  (List.range (max ms.length gs.length)).map fun i => sgdStep bcA rate (nth 0 ms i) (nth 0 gs i)

/-- What a list of operations raised. -/
def raisedBy (l : List Lane) : Lane := l.foldl Lane.add (.pure 0)

/-- A master copy as BF16: rounded with RNE, a clamp counted (R81, R172). -/
def bf16Of (bcA : Bool) (m : Nat) : Lane :=
  let x := rd32 bcA m
  .fp [x] (fpOfDy bf16 bcA 0 x.neg x.val)

/-- The exact product of two dyadic values. -/
def Dy.times (a b : Dy) : Dy := ⟨a.man * b.man, a.exp + b.exp⟩

/-- The exact sum of dyadic values. -/
def sumDy (l : List Dy) : Dy := l.foldl Dy.add ⟨0, 0⟩

/-- The BF16 gradients of ‖e - B A x‖² over some probe rows, each given as x and e, with respect to A and to B: the exact sum over
the rows, rounded once (R172; DESIGN CHOICE, log entry 69). -/
def gradients (bcA : Bool) (k n : Nat) (a b : List Nat) (rows : List (List Int × List Int)) : List Lane × List Lane :=
  let r := a.length / k
  let v (l : List Nat) (i : Nat) : Dy := (fpRead bf16 bcA (nth 0 l i)).val
  let parts := rows.map fun p =>
    let y := (List.range r).map fun i => sumDy ((List.range k).map fun j => (v a (i * k + j)).times ⟨nth 0 p.1 j, 0⟩)
    let rest := (List.range n).map fun c =>
      Dy.add ⟨nth 0 p.2 c, 0⟩ (Dy.times ⟨-1, 0⟩ (sumDy ((List.range r).map fun i => (v b (i * n + c)).times (nth ⟨0, 0⟩ y i))))
    (p.1, y, rest)
  let out (d : Dy) : Lane := .fp [] (fpOfDy bf16 bcA 0 false d)
  let ga := (List.range (r * k)).map fun q => out (Dy.times ⟨-2, 0⟩ (sumDy (parts.map fun p =>
    (sumDy ((List.range n).map fun c => (v b (q / k * n + c)).times (nth ⟨0, 0⟩ p.2.2 c))).times ⟨nth 0 p.1 (q % k), 0⟩)))
  let gb := (List.range (r * n)).map fun q => out (Dy.times ⟨-2, 0⟩ (sumDy (parts.map fun p =>
    (nth ⟨0, 0⟩ p.2.2 (q % n)).times (nth ⟨0, 0⟩ p.2.1 (q / n)))))
  (ga, gb)

/-- BF16 values as FP32 codes. -/
def toMasters (l : List Nat) : List Nat := l.map (· * 65536)

/-- Columns of a plane's list that a tile uses, as its output columns (R126). -/
def outCols (l : List DWord) (cols : Tab (List Nat)) : List Nat :=
  let n := lgFold l * lgC l
  dedupN (((tget [] cols (lgPlane l)).filter fun c => decide (lgCol l ≤ c ∧ c < lgCol l + n)).map fun c => (c - lgCol l) % lgC l)

/-- Flagged columns of a tile that have had level 1 (R169). -/
def Arr.toLearn (x : Arr) (l : List DWord) : List Nat := outCols l x.tried

/-- The exact reference acc_ref of a probe row, from the store copy, by output column (R172). -/
def State.probeRef (s : State) (a d : Nat) (codes : List Nat) : List Int :=
  let l := (s.arr a).desc d
  let jq := s.quantDesc a d l
  (s.standinSums (a, d) (s.tileOffset (s.tiles jq.1 jq.2) (a, d)) (tget 0 s.model.captured (s.descModel a d)) codes (qcZ l)).map
    (·.2)

/-- The weights of a tile's layer, read as a reference for its adapter (R172, R298). -/
def State.checkRef (s : State) (a d : Nat) : Bool × State :=
  let m := s.descModel a d
  match s.nv.dir.find? fun p => p.2.model == m && p.2.gen == tget 0 s.model.captured m with
  | none => (true, s)
  | some (x, e) => s.checkLayer none x e (lcLayer ((s.arr a).desc d))

/-- The 32 probe rows of a training step, by their places in the ring beyond those held out. -/
def Arr.trainRows (x : Arr) (d : Nat) (rows : List Nat) : Bool :=
  rows.length == 32 && decide rows.Nodup && rows.all fun i => decide (64 ≤ i ∧ i < (tget [] x.probe d).length)

/-- `ADAPTER_TRAIN_STEP` (R82, R172, R173): a step on 32 probe rows beside those held out, with BF16 gradients on the FP32 master
copies; the first one takes over the adapter in use and its serial and generation. Level 2 follows level 1 (R169). Ballast stage B2
pauses training. Adapters start from zero, where the gradient of the squared error is zero: there the step takes the operand's
gradients (DESIGN CHOICE, log entry 69). -/
def execAdapterTrainStep (arr desc : Nat) (rows ga gb : List Nat) (s : State) : Res :=
  inUnit arr 48 (
    let x := s.arr arr
    let l := x.desc desc
    let ad := tget .reset x.adapters desc
    if lpAdapt l && x.trainRows desc rows && x.toLearn l != [] && !s.ballast 2 then
      let (ok, s) := s.checkRef arr desc
      if !ok then s
      else
      let ad : Adapter := if ad.steps = 0 then
        { ad with ofSerial := ad.serial, ofGen := tget 0 s.model.captured (s.descModel arr desc),
                  ma := toMasters ad.a, mb := toMasters ad.b } else ad
      let a := ad.ma.map (bf16Of s.cfg.bcA)
      let b := ad.mb.map (bf16Of s.cfg.bcA)
      let seen := rows.map fun i =>
        let p := nth ([], []) (tget [] x.probe desc) i
        (p.1.map fun (q : Nat) => (q : Int) - (qcZ l : Int),
          ((s.probeRef arr desc p.1).zip p.2).map fun e => e.1 - e.2)
      let zero := (ad.ma ++ ad.mb).all fun m => m % 2 ^ 31 == 0
      let g := if zero then (ga.map Lane.pure, gb.map Lane.pure)
        else gradients s.cfg.bcA (lgK l) (lgC l) (a.map (·.val)) (b.map (·.val)) seen
      let na := sgdAll s.cfg.bcA (lpRate l) ad.ma (g.1.map (·.val))
      let nb := sgdAll s.cfg.bcA (lpRate l) ad.mb (g.2.map (·.val))
      let ad := { ad with steps := ad.steps + 1, ma := na.map (·.val), mb := nb.map (·.val) }
      ((s.setArr arr { x with adapters := tset .reset x.adapters desc ad }).raisedOn (lpCore l)
        (raisedBy (a ++ b ++ g.1 ++ g.2 ++ na ++ nb))).count (kDesc arr desc 14) 1
    else s)

/-- The probe rows held out with the terms of an adapter of rank `r`: reference, acc_corr and term by output column; and what the
arithmetic raised (R172). -/
def State.probeTerms (s : State) (a d r : Nat) (ma mb : List Nat) : List (List Int × List Int × List Int) × Lane :=
  let l := (s.arr a).desc d
  let t := ((s.arr a).heldOut d).map fun p =>
    let q := adapterTerms s.cfg.bcA (qcZ l) r (lgC l) ma mb p.1
    ((s.probeRef a d p.1, p.2, q.1), q.2)
  (t.map (·.1), raisedBy (t.map (·.2)))

/-- The squared error of an output column over the rows held out. -/
def probeError (rows : List (List Int × List Int × List Int)) (c : Nat) : Nat :=
  sumN (rows.map fun p => (nth 0 p.1 c - sat (nth 0 p.2.1 c + nth 0 p.2.2 c) 32).natAbs ^ 2)

/-- The rank of a candidate is the one in use, or one step above it, and within `ADAPT_MAX` (R171). -/
def rankOk (l : List DWord) (have_ rank : Nat) : Bool :=
  decide (rank ≤ lpMax l) && (rank == 4 || rank == 8 || rank == 16)
    && (rank == have_ || rank == 2 * have_ || (have_ == 0 && rank == 4))

/-- `ADAPTER_CANDIDATE_EVAL` (R171 to R173): after each 64 steps; a candidate computed against a serial or generation that is no
longer current is discarded, one with which the error of every flagged column of the tile falls on the rows held out is accepted with a new
serial. -/
def execAdapterCandidateEval (arr desc rank : Nat) (s : State) : Res :=
  inUnit arr 48 (
    let x := s.arr arr
    let l := x.desc desc
    let ad := tget .reset x.adapters desc
    let gen := tget 0 s.model.captured (s.descModel arr desc)
    let a := ad.ma.map (bf16Of s.cfg.bcA)
    let b := ad.mb.map (bf16Of s.cfg.bcA)
    let judged := outCols l x.flagged
    let keep (s : State) (ad : Adapter) := s.setArr arr { x with adapters := tset .reset x.adapters desc ad }
    if ad.steps = 0 ∨ ad.steps % 64 ≠ 0 ∨ ¬ lpAdapt l then s
    else if ad.ofGen ≠ gen ∨ ad.ofSerial ≠ ad.serial then (keep s { ad with steps := 0 }).count (kDesc arr desc 16) 1
    else if !rankOk l ad.rank rank then s
    else
      let (ok, s) := s.checkRef arr desc
      let new := s.probeTerms arr desc rank (a.map (·.val)) (b.map (·.val))
      let old := s.probeTerms arr desc ad.rank ad.a ad.b
      let did := raisedBy (a ++ b ++ [new.2, old.2])
      if !ok then s
      else if judged != [] && judged.all (fun c => decide (probeError new.1 c < probeError old.1 c)) then
        let serial := (ad.serial + 1) % 65536
        ((keep s { ad with next := some (rank, a.map (·.val), b.map (·.val)), serial := serial, ofSerial := serial, gen := gen }).raisedOn
          (lpCore l) did).count (kDesc arr desc 15) 1
      else s.raisedOn (lpCore l) did)

/-- At a start, a tile whose adapter belongs to another generation than the active one has rank 0 (R173). -/
def State.bootAdapters (s : State) : State :=
  let fresh (a d : Nat) (ad : Adapter) : Adapter :=
    match s.nv.dir.find? fun p => p.2.model == s.descModel a d && p.2.active with
    | some p => if ad.gen = p.2.gen then ad else { Adapter.reset with serial := ad.serial, gen := p.2.gen }
    | none => ad
  s.arrs.foldl (fun t p => t.setArr p.1 { t.arr p.1 with adapters := p.2.adapters.map fun e => (e.1, fresh p.1 e.1 e.2) }) s

/-- Every adapter written to the HEALTH partition (R172). -/
def State.saveAdapters (s : State) : State :=
  { s with nv.adapters := s.arrs.flatMap fun p => p.2.adapters.map fun e => (p.1 * 1024 + e.1, e.2) }

/-- `ADAPTER_WRITEBACK` (R172): at most once every 65,536 quanta. -/
def execAdapterWriteback (s : State) : Res :=
  .next (
    let due := match s.nv.adapterQ with | some q => decide (q + 65536 ≤ s.qindex) | none => true
    if due then { s.saveAdapters with nv.adapterQ := some s.qindex } else s)

/-- The calibration data of an array as boot step 10 loads it: for each plane its sound record of the highest sequence, the column
maps, curves, envelopes and adapters; records whose `CRC` fails are discarded (R162). -/
def State.loadArr (s : State) (a : Nat) : State :=
  let mine := (List.range 16).flatMap fun pl => (s.points a pl).map (·.2)
  let s := (mine.filter fun r => !r.sound a).foldl (fun s r => s.dropRec a r) s
  let x := s.arr a
  let newest (pl : Nat) := (s.points a pl).foldl (fun (b : Option CalRec) p =>
    match b with | none => some p.2 | some q => if q.seq < p.2.seq then some p.2 else some q) none
  let recs := (List.range 16).filterMap fun pl => (newest pl).map fun r => (pl, r)
  let pick {α : Type} (t : Tab α) (n : Nat) : Tab α := (t.filter fun p => p.1 / n == a).map fun p => (p.1 % n, p.2)
  s.setArr a { x with recs := recs, curves := pick s.nv.calCurves 64, colmap := pick s.nv.colmap 16,
                      env := pick s.nv.envs 8192, adapters := pick s.nv.adapters 1024, gLive := [], oLive := [] }

end Sys2Proof.Machine
end

