-- ==== Sys2Proof/Machine/Fabric.lean ====
section
/-!
DEFINITION. The fabric: link states, records and routes, flits and messages, multicast, shards and bulk transfers, fabric
time, heartbeats and failures (R300 to R327).
-/

namespace Sys2Proof.Machine

/-! ### Identity and the configured fabric (R310, R318, R325, R326) -/

/-- A word of the OTP row by its byte offset (R374). -/
def State.otp (s : State) (off : Nat) : DWord := tget 0 s.nv.otp (off / 8)

/-- The device UID (R374). -/
def State.uid (s : State) : Nat := (s.otp 0).toNat

/-- The ports that may light: `PORT_EN`, or the default for the mode (R326). -/
def State.portEn (s : State) : Nat :=
  let e := fld s.cfg.fabctl 107 100
  if e ≠ 0 then e else if s.isCascade then 3 else 255

/-- A port may be lit: enabled, lasers on, and kept by ballast stage B5 (R306). -/
def State.tpOn (s : State) (p : Nat) : Bool :=
  s.port.lit && s.run.cfgOk && s.portEn.testBit p && decide (p < 8)
    && (!s.ballast 5 || (fld s.cfg.fabctl 99 92).testBit p) && !nth false s.port.dark (if p < 4 then 1 else 2 + (p - 4) / 2)
    && !s.excl (137 + p)

/-- Time quality (R318). -/
def State.quality (s : State) : Nat :=
  match s.time.st with
  | .locked => if s.time.src = 7 then 0 else 3
  | .lockedOffset => if s.time.src = 7 then 0 else 3
  | .holdover => 2
  | .freeRun => 1
  | .acquiring => if s.time.src = 7 then 0 else 1

/-- The watch list (R320): the peers that the placement names, and the engines that the re-map plan names. -/
def State.watch (s : State) : List Nat :=
  let l := s.modelList.flatMap mlPeers ++ (s.cfg.remap.filter rmValid).flatMap fun e => [rmFailed e, rmStandby e]
  (dedupN (l.filter (· != s.dev))).take 64

/-! ### Link-state records and routes (R309) -/

/-- This engine's record; 4,096 stands for the address of a neighbour that has none yet. -/
def State.ownLsr (s : State) : Lsr :=
  { addr := s.fab.addr, uid := s.uid, seq := s.fab.lsrSeq,
    links := s.upPorts.map fun p => (p, (s.portAddr p).getD 4096, (s.port_ p).version),
    quality := s.quality, watch := s.watch, fixed := flag s.cfg.fabctl 126 }

/-- All records, this engine's first. -/
def State.lsrAll (s : State) : List Lsr := s.ownLsr :: s.fab.lsrs

/-- The links of the engine at an address. -/
def linksOf (l : List Lsr) (a : Nat) : List (Nat × Nat × Nat) :=
  match l.find? fun r => r.addr == some a with | some r => r.links | none => []

/-- The hop count to `b` by breadth: the engines seen, those of the present distance, and the distance; by fuel. -/
def hopsF (l : List Lsr) (b : Nat) : Nat → List Nat → List Nat → Nat → Option Nat
  | 0, _, _, _ => none
  | f + 1, seen, front, d =>
    if front.contains b then some d
    else
      let nxt := dedupN ((front.flatMap fun x => (linksOf l x).map (·.2.1)).filter fun y => !seen.contains y)
      if nxt = [] then none else hopsF l b f (seen ++ nxt) nxt (d + 1)

/-- The hop count from `a` to `b` over the records. -/
def hops (l : List Lsr) (a b : Nat) : Option Nat := hopsF l b (l.length + 2) [a] [a] 0

/-- The better of two candidate links: fewer hops, then the lower port. -/
def betterLink (x y : Nat × Nat × Nat × Nat) : Nat × Nat × Nat × Nat :=
  if y.1 < x.1 ∨ (y.1 = x.1 ∧ y.2.1 < x.2.1) then y else x

/-- The next hop towards `b` by some links: the lowest-numbered port on a shortest path, its neighbour and its version. -/
def hopBy (l : List Lsr) (links : List (Nat × Nat × Nat)) (b : Nat) : Option (Nat × Nat × Nat) :=
  let c := links.filterMap fun k => (hops l k.2.1 b).map fun h => (h, k)
  match c with
  | [] => none
  | x :: r => some (r.foldl betterLink x).2

/-- The next hop from `a` towards `b`. -/
def nextHop (l : List Lsr) (a b : Nat) : Option (Nat × Nat × Nat) := hopBy l (linksOf l a) b

/-- The path from `a` to `b`: each engine on it with the port it uses and the link's version; by fuel. -/
def pathF (l : List Lsr) (b : Nat) : Nat → Nat → List (Nat × Nat × Nat)
  | 0, _ => []
  | f + 1, a =>
    if a = b then []
    else match nextHop l a b with
      | some (p, n, v) => (a, p, v) :: pathF l b f n
      | none => []

def pathTo (l : List Lsr) (a b : Nat) : List (Nat × Nat × Nat) := pathF l b (l.length + 1) a

/-- The route table from the records, from this engine's own links on. -/
def State.computeRoutes (s : State) : Tab Nat :=
  let l := s.lsrAll
  (l.filterMap (·.addr)).foldl (fun t a =>
    if some a = s.fab.addr then t else match hopBy l s.ownLsr.links a with | some (p, _, _) => tput t a (some p) | none => t) []

/-- The lowest link version along the route between this engine and another, by the routes in force (R307, R309); in a cascade, that of
the link it leaves by and, beyond the neighbour, of links that no message tells of (log entry 56). -/
def State.pathVersion (s : State) (a b : Nat) : Nat :=
  if s.isCascade then
    let o := if a = s.dev then b else a
    match s.routeTo o with
    | some p =>
      if o = s.dev + 1 ∨ o + 1 = s.dev then (s.port_ p).version
      else min (s.port_ p).version (nth 0x30 [0x20, 0x21, 0x30] (Config.farVersion a b % 3))
    | none => 0x30
  else ((pathTo s.fab.routeLsrs a b).map (·.2.2)).foldl min 0x30

/-- Every other engine that this one knows. -/
def State.peersAll (s : State) : List Nat :=
  if s.isCascade then (List.range 8).filter (· != s.dev) else s.fab.lsrs.filterMap (·.addr)

/-- The record flooded on every port that is up (R309). -/
def State.floodOwn (s : State) : State :=
  if s.isCascade then s
  else
    let s : State := { s with fab.lsrSeq := (s.fab.lsrSeq + 1) % 2 ^ 32 }
    s.upPorts.foldl (fun s p => s.sendLsr p s.ownLsr) s

/-- The time root among the records (R318), or the mooring device (R325). -/
def State.findRoot (s : State) : Option Nat :=
  if s.isCascade then some 0
  else
    let c := s.lsrAll.filterMap fun r => if 1 ≤ r.quality then r.addr.map fun a => (r.quality, a) else none
    match c with
    | [] => none
    | x :: r => some (r.foldl (fun (b y : Nat × Nat) => if b.1 < y.1 ∨ (b.1 = y.1 ∧ y.2 < b.2) then y else b) x).2

/-- A change of root raises its event, and an engine on fabric time acquires afresh (R318). -/
def State.rootCheck (s : State) : State :=
  let r := s.findRoot
  if r = s.fab.root then s
  else
    let was := s.fab.root
    let s : State := { s with fab.root := r }
    let s := if was.isSome then s.raise evFabTimeRoot [(2, r.getD 0)] else s
    if s.time.src = 7 ∧ (s.time.st = .locked ∨ s.time.st = .lockedOffset ∨ s.time.st = .acquiring) then
      { s with time.st := .acquiring, time.hadLocked := false, time.slewing := false }
    else s

/-- New routes computed; they take effect at the next boundary (R309). -/
def State.reroute (s : State) : State :=
  (if s.isCascade then s else { s with fab.nextRoutes := some (s.computeRoutes, s.lsrAll) }).rootCheck

/-! ### Links (R306 to R308) -/

/-- What this engine sends in the neighbour exchange (R308). -/
def State.ownExchange (s : State) : List Nat :=
  [s.uid, (s.fab.addr.map (· + 1)).getD 0, b2n s.isCascade, b2n s.isMooring, s.time.rate, s.time.quantum, b2n s.cfg.bcA]

/-- The neighbour exchange sent again on the ports that have had it, after this engine took its address (R308, R325; log entry 56). -/
def State.exchangeAgain (s : State) : State :=
  ((List.range 8).filter fun p => (s.port_ p).st == .up || (s.port_ p).st == .exchanging).foldl
    (fun s p => s.sendLink p 1 s.ownExchange) s

/-- A port in another link state: the event names the port and the neighbour, and the record is flooded (R306, R309). -/
def State.setLink (s : State) (p : Nat) (st : Link) : State :=
  let x := s.port_ p
  if x.st = st then s
  else
    let s := (s.setPort p { x with st := st, held := false, uncorr := 0 }).raise evTpLinkState [(1, p), (2, x.addr.getD 0)]
    s.floodOwn.reroute

/-- A link goes back to training, or dark where its port may not be lit (R306). -/
def State.linkDown (s : State) (p : Nat) : State := s.setLink p (if s.tpOn p then .training else .dark)

/-- `FEC_UNCORR_LIMIT` (R301): more than `TP_UNCORR_MAX` uncorrectable codewords have arrived since the port came up; that they
came within 1 ms is the command's own. -/
def execFecUncorrLimit (port : Nat) (s : State) : Res :=
  inUnit port 8 (if s.tpUp port && decide (fld s.cfg.fabctl 91 84 < (s.port_ port).uncorr) then (s.raise evTpLinkDegraded [(1, port)]).linkDown port else s)

/-- `LINK_LOSS_OF_SIGNAL` (R306). -/
def execLinkLossOfSignal (port : Nat) (s : State) : Res :=
  inUnit port 8 (if (s.port_ port).st = .dark ∨ (s.port_ port).st = .training then s else s.linkDown port)

/-- `LINK_TRAINED` (R306, R307): the version exchange begins. -/
def execLinkTrained (port : Nat) (s : State) : Res :=
  inUnit port 8 (
    if (s.port_ port).st = .training ∧ s.tpOn port then
      (s.setLink port .negotiating).sendLink port 0 [0x20, 0x30]
    else s)

/-- `TRAINING_TIMEOUT` (R306): the attempt repeats; the port stays in TRAINING. -/
def execTrainingTimeout (port : Nat) (s : State) : Res := inUnit port 8 s

/-- `VERSION_EXCHANGE` (R307): the highest version that both ends support. -/
def execVersionExchange (port lo hi : Nat) (s : State) : Res :=
  inUnit port 8 (
    let x := s.port_ port
    if x.st ≠ .negotiating then s
    else
      match [0x30, 0x21, 0x20].find? fun v => decide (lo ≤ v ∧ v ≤ hi) with
      | some v =>
        ((s.setPort port { x with version := v, verFail := false }).setLink port .exchanging).sendLink port 1
          s.ownExchange
      | none => if x.verFail then s else (s.setPort port { x with verFail := true }).raise evTpVersionFail [(1, port)])

/-- `VERSION_RETRY` (R307): the exchange repeats. -/
def execVersionRetry (port : Nat) (s : State) : Res :=
  inUnit port 8 (if (s.port_ port).st = .negotiating then s.sendLink port 0 [0x20, 0x30] else s)

/-- An engine of a cascade takes its position from its upstream neighbour (R325). -/
def State.takePosition (s : State) (port : Nat) (n : Neighbour) : State :=
  if !s.isCascade || port != 0 || s.isMooring then s
  else
    match n.addr with
    | none => s
    | some a =>
      if 7 ≤ a then
        if s.fab.tooLong then s
        else { s with fab.tooLong := true, fab.addr := none, run.cause := 6 }.raise evFabCascadeLong []
      else if s.fab.addr = some (a + 1) then s
      else State.exchangeAgain { s with fab.addr := some (a + 1), fab.position := a + 1, fab.tooLong := false }

/-- `NEIGHBOUR_EXCHANGE` (R306, R308, R325): the link comes up, or is held where the ends differ; so is an upstream neighbour's at the
mooring device, which must have none (DESIGN CHOICE, log entry 56). -/
def execNeighbourExchange (port : Nat) (n : Neighbour) (s : State) : Res :=
  inUnit port 8 (
    let x := s.port_ port
    let bad := n.cascade != s.isCascade || n.rate != s.time.rate || n.quantum != s.time.quantum
      || (s.isCascade && s.isMooring && port == 0)
    let y : Port := { x with uid := n.uid, addr := n.addr, cascade := n.cascade, bcA := n.bcA }
    if x.st = .exchanging then
      if bad then
        let t := s.setPort port { y with held := true }
        if x.held then t else t.raise evFabNeighbourMismatch [(1, port)]
      else ((s.setPort port y).setLink port .up).takePosition port n
    else if x.st = .up then
      if bad then ((s.setPort port y).raise evFabNeighbourMismatch [(1, port)]).linkDown port
      else ((s.setPort port y).takePosition port n).floodOwn.reroute
    else s)

/-! ### Records received (R309, R310) -/

/-- Two STATIC engines that claim one address: the lower UID keeps it (R310). -/
def State.conflictCheck (s : State) (r : Lsr) : State :=
  if flag s.cfg.fabctl 126 && r.fixed && decide (r.addr = s.fab.addr) && s.fab.addr.isSome && decide (r.uid < s.uid)
      && !s.fab.conflict then
    { s with fab.conflict := true, run.cause := 5 }.raise evFabAddrConflict [(2, s.dev)]
  else s

/-- `LSR_RECEIVE` (R309, R310, R318): a newer record is taken and flooded on, and the routes are computed again. -/
def execLsrReceive (port : Nat) (r : Lsr) (s : State) : Res :=
  inUnit port 8 (
    let old := s.fab.lsrs.find? fun x => x.uid == r.uid
    let newer := match old with | some x => decide (x.seq < r.seq) | none => true
    if s.isCascade || !s.tpUp port || !newer || r.uid == s.uid then s
    else
      let s : State := { s with fab.lsrs := r :: s.fab.lsrs.filter fun x => x.uid != r.uid }
      let s := (s.upPorts.filter (· != port)).foldl (fun s p => s.sendLsr p r) s
      (s.conflictCheck r).reroute)

/-- `LSR_PERIODIC` (R309). -/
def execLsrPeriodic (s : State) : Res := .next s.floodOwn

/-- `LSR_EXPIRY` (R309). -/
def execLsrExpiry (uid : Nat) (s : State) : Res :=
  .next (
    if s.fab.lsrs.any fun x => x.uid == uid then
      State.reroute { s with fab.lsrs := s.fab.lsrs.filter fun x => x.uid != uid }
    else s)

/-- `LINK_DELAY_MEASURE` (R319). -/
def execLinkDelayMeasure (port delay : Nat) (s : State) : Res :=
  inUnit port 8 (if s.tpUp port then s.setPort port { s.port_ port with delay := delay } else s)

/-- The address that the configuration gives: a STATIC one, or the mooring device's position (R310, R325). -/
def State.presetAddress (s : State) : State :=
  if !s.run.cfgOk then s
  else if s.isCascade then if s.isMooring then { s with fab.addr := some 0, fab.position := 0 } else s
  else if flag s.cfg.fabctl 126 then { s with fab.addr := some (fld s.cfg.fabctl 119 108) }
  else s

/-- AUTO engines without an address take the lowest free ones in ascending UID; the neighbours are told, and the routes follow
(R308 to R310). -/
def State.takeAddress (s : State) : State :=
  if s.isCascade ∨ s.fab.addr.isSome then s.fab.lsrs.foldl State.conflictCheck s
  else
    let used := s.fab.lsrs.filterMap (·.addr)
    let before := (s.fab.lsrs.filter fun r => r.addr.isNone && decide (r.uid < s.uid)).length
    let free := (List.range 4096).filter fun a => !used.contains a
    { s with fab.addr := free[before]? }.exchangeAgain.floodOwn.reroute

/-! ### Flits (R302, R303) -/

/-- A message's bytes as they travel (R193, R304). -/
def msgBytes (m : Msg) : List Byte :=
  leBytes 4 m.src.toNat ++ leBytes 4 m.dest.toNat ++ leBytes 8 m.w1.toNat ++ m.payload

def msgOf (bs : List Byte) : Msg :=
  ⟨BitVec.ofNat 32 (leAt bs 4 4), BitVec.ofNat 32 (leAt bs 0 4), BitVec.ofNat 64 (leAt bs 8 8), bs.drop 16⟩

/-- A message's flits on one stream, from a first SEQ on (R304). -/
def flitsOn (dst src vc : Nat) (mc : Bool) (stream gen shard : Nat) (seq : Nat) (bs : List Byte) : List Flit :=
  let ps := chunks 240 bs
  ((List.range ps.length).zip ps).map fun p =>
    ⟨mkHdr dst src vc mc (p.1 == 0) stream (seq + p.1) gen shard (p.1 + 1 == ps.length) p.2.length, p.2⟩

/-- Flits sent on a port (R327), traced as one message (R480). -/
def State.putFlits (s : State) (p : Nat) (fs : List Flit) : State :=
  match fs with
  | [] => s
  | f :: _ =>
    let s := s.traceBegin (224 + p) f.seq (f.dst * 2 ^ 22 + f.stream * 2 ^ 14)
    let s := (fs.foldl (fun s f => s.emit (.flit p f)) s).count (kTether p 3) fs.length
    s.traceEnd (224 + p) 1 f.seq fs.length

/-! ### Sending (R263, R265, R304, R307, R312 to R314, R323) -/

/-- The destination's engine after the re-maps in force (R323). A sync object counts as the unit of its home router (log
entry 21). -/
def State.remapDev (s : State) (m : Msg) : Nat :=
  let u := if m.kind = 7 then m.sync / 64 else m.unit
  match s.fab.applied.find? fun e => rmFailed e == m.dev && rmKind e == m.kind && decide (rmLo e ≤ u ∧ u ≤ rmHi e) with
  | some e => rmStandby e
  | none => m.dev

/-- The message with another destination engine. -/
def msgToDev (m : Msg) (d : Nat) : Msg := { m with dest := BitVec.ofNat 32 (remoteAddr d m.kind m.unit m.sub) }

/-- The message with another format and payload. -/
def msgBody (m : Msg) (fmt : Nat) (bs : List Byte) : Msg :=
  { m with w1 := mkW1 m.type fmt bs.length m.syncEn m.sync m.qtag m.arg, payload := bs }

/-- Bytes of row header that a message's payload begins with (R194). -/
def msgHead (m : Msg) : Nat := if m.type = 1 ∨ m.type = 2 then 16 else 0

/-- The values of a message coded as EC blocks, and what the encoder counted (R263, R265). -/
def ecMsg (m : Msg) : Msg × EcCnt :=
  let f := if m.fmt = 9 then fp16 else bf16
  let vs := (chunks 2 (m.payload.drop (msgHead m))).map leNat
  let bl := (chunks 32 vs).map (ecEncode f)
  (msgBody m (m.fmt + 3) (m.payload.take (msgHead m) ++ bl.flatMap (·.1)), (bl.map (·.2)).foldl EcCnt.add ⟨0, 0, 0⟩)

/-- A message with plain BF16 or FP16 values. -/
def msgPlain (m : Msg) : Bool := m.fmt == 8 || m.fmt == 9

def State.ecCounts (s : State) (c : EcCnt) : State :=
  s.counts [(kSwitch 10, c.flush), (kSwitch 11, c.nudge), (kSwitch 12, c.special)]

/-- The encoder on a message that leaves over a path: coded on a path of version 3.0 under BC-B; none where it is refused
(R265, R307). -/
def State.encodeOut (s : State) (m : Msg) (ver : Nat) : Option Msg × State :=
  if msgPlain m && !s.cfg.bcA && decide (0x30 ≤ ver) then
    if m.payload.length % 2 = 1 then
      let s := if m.src.toNat.testBit 31 ∨ fld m.src 18 16 ≠ 0 then s else
        let k := fld m.src 15 8
        (s.setCore k { s.core k with flags := (s.core k).flags ||| 4 }).count (kCore k 8) 1
      (none, s)
    else
      let (m, c) := ecMsg m
      (some m, s.ecCounts c)
  else (some m, s)

/-- The model generation in a message's row header, for the flit header (R302). -/
def msgGen (m : Msg) : Nat := if m.type = 1 ∨ m.type = 2 then bf (leAt m.payload 0 16) 95 80 else 0

/-- The shard tag of a message (R315); which set and index it has the spec leaves to the source (log entry 3). -/
def msgShard (m : Msg) (ver : Nat) : Nat :=
  if 0x30 ≤ ver ∧ m.type ≤ 2 then m.qtag * 2 ^ 13 + Config.shardOf m.dest.toNat m.w1.toNat % 2 ^ 13 else 0

/-- The flits of a message for a destination, and the stream's next SEQ. -/
def State.cutFlits (s : State) (dst : Nat) (mc : Bool) (ver : Nat) (m : Msg) : List Flit × State :=
  let k := streamNo 0 mc dst m.vc
  let q := tget 0 s.fab.txSeq k
  let fs := flitsOn dst s.dev m.vc mc m.vc (msgGen m) (msgShard m ver) q (msgBytes m)
  (fs, { s with fab.txSeq := tset 0 s.fab.txSeq k ((q + fs.length) % 65536) })

/-- A piece of the row that a ROW message belongs to (R235). -/
def sameRow (m x : Msg) : Bool :=
  x.type == 1 && x.toUnit 1 && x.unit == m.unit && x.arg == m.arg && x.qtag == m.qtag
    && rhGen (leAt x.payload 0 16) == rhGen (leAt m.payload 0 16)
    && rhSlot (leAt x.payload 0 16) == rhSlot (leAt m.payload 0 16) && rhTpos (leAt x.payload 0 16) == rhTpos (leAt m.payload 0 16)

/-- The bytes of values that a coded row piece brings to its flank: what is beyond a plain message's room, or beyond the layer's row
after the pieces that came before, is padding (R193, R235, R265, R266). -/
def State.rowLen (s : State) (m : Msg) : Nat :=
  let x := s.arr m.unit
  let h := leAt m.payload 0 16
  let got := match x.asm with
    | some r => if r.desc = m.arg ∧ rhSlot r.hdr = rhSlot h ∧ rhTpos r.hdr = rhTpos h then r.vals.length else 0
    | none => 0
  let coming := sumN ((s.grid.mesh.filter (sameRow m)).map fun y => (y.payload.length - 16) / 2)
  2 * min 4088 (s.layerRows (s.tiles m.unit m.arg) (m.unit, m.arg) - got - coming)

/-- A coded message opened for a flank (R264, R266). -/
def State.decodeIn (s : State) (m : Msg) : Msg × State :=
  if (m.fmt = 11 ∨ m.fmt = 12) ∧ m.kind = 1 then
    let f := if m.fmt = 12 then fp16 else bf16
    let bl := (chunks (ecSize f) (m.payload.drop (msgHead m))).map (ecDecode f)
    let bs := (bl.flatMap (·.1)).flatMap (leBytes 2)
    let bs := if m.type = 1 then bs.take (s.rowLen m) else bs
    (msgBody m (m.fmt - 3) (m.payload.take (msgHead m) ++ bs), s.count (kSwitch 13) (sumN (bl.map (·.2))))
  else (m, s)

/-- A plain message from a path below 3.0 coded at the destination (R307). -/
def State.encodeAtDest (s : State) (m : Msg) (ver : Nat) : Msg × State :=
  if msgPlain m && !s.cfg.bcA && decide (ver < 0x30) && m.kind != 1 && decide (m.payload.length % 2 = 0) then
    let (m, c) := ecMsg m
    (m, (s.ecCounts c).count (kSwitch 3) 1)
  else (m, s)

/-- A complete message enters this engine's mesh as if its source had sent it there (R304): its destination is named as an
endpoint of this engine, and its source as one of engine `src` (log entry 21). A SYNC_OP of a peer that is reserved or one that only
cores of the object's engine may ask for is misuse, and dropped (R198, R204). -/
def State.fabDeliver (s : State) (src ver : Nat) (m : Msg) : State :=
  let (m, s) := s.decodeIn m
  let (m, s) := s.encodeAtDest m ver
  if m.type = 3 ∧ 3 < m.arg % 16 then s.misuse m.sync
  else
    s.send { m with dest := BitVec.ofNat 32 (localAddr m.kind m.unit m.sub),
                    src := BitVec.ofNat 32 (2 ^ 31 + src % 4096 * 2 ^ 19 + m.src.toNat % 2 ^ 19) }

/-- A message sent to one engine. -/
def State.unicast (s : State) (m : Msg) : State :=
  if m.dev = s.dev ∧ s.fab.addr.isSome then
    match s.encodeOut m 0x30 with
    | (some m, s) => s.fabDeliver s.dev 0x30 m
    | (none, s) => s
  else
    match s.routeTo m.dev with
    | none => s.count (kSwitch 9) 1
    | some p =>
      if s.fab.remapped.contains m.dev then s.count (kSwitch 9) 1
      else
        let v := s.pathVersion s.dev m.dev
        match s.encodeOut m v with
        | (none, s) => s
        | (some m, s) =>
          let (fs, s) := s.cutFlits m.dev false v m
          s.putFlits p fs

/-- A group's definition (R312, R386): word and members. -/
def State.groupDef (s : State) (g : Nat) : Option (DWord × List Nat) := s.cfg.groups.find? fun d => fld d.1 63 56 == g

/-- A group's delivery endpoint on this engine. -/
def groupAddr (w : DWord) : Nat := localAddr (fld w 55 53) (fld w 52 45) (fld w 44 37)

/-- The ports of this engine that lead towards members. -/
def State.branches (s : State) (ms : List Nat) : List Nat := dedupN (ms.filterMap s.routeTo)

/-- Flits of a multicast message on the branch of a port: where the branch's buffer overflows, they are lost and counted. It cannot before
64 KiB have been copied to it; after that it depends on how long the branch is held, which is timing and free (R312; log entry 3). -/
def State.branchFlits (s : State) (src g p : Nat) (fs : List Flit) : State :=
  let k := 8 * (256 * src + g) + p
  let b := tget 0 s.fab.mcBytes k + 256 * fs.length
  let s : State := { s with fab.mcBytes := tset 0 s.fab.mcBytes k b }
  if b ≤ 65536 then s.putFlits p fs
  else
    let (n, s) := s.take
    if Config.freeChoice n % 2 = 1 then s.count (kSwitch 4) fs.length else s.putFlits p fs

/-- The window of a multicast (R313): the flits of the message on the group's stream, sent to the members `win` at the
lowest of their versions `v`; the last one's SEQ is kept for the quantum. -/
def State.mcSend (s : State) (g v : Nat) (win : List Nat) (m : Msg) : State :=
  match s.encodeOut m v with
  | (none, s) => s
  | (some m, s) =>
    let x := tget .reset s.fab.groups g
    let (fs, s) := s.cutFlits g true v m
    let seq := (fs.getLast?.map (·.seq)).getD 0
    let ends := (s.qindex, m.vc, seq) :: x.ends.filter fun e => (e.1 != s.qindex || e.2.1 != m.vc) && decide (s.qindex < e.1 + 16)
    let s : State := { s with fab.groups := tset .reset s.fab.groups g { x with ends := ends } }
    (s.branches win).foldl (fun s p => s.branchFlits s.dev g p fs) s

/-- A multicast message as a copy for one member (R314). -/
def mcCopy (w : DWord) (m : Msg) (a : Nat) : Msg :=
  { m with dest := BitVec.ofNat 32 (2 ^ 31 + a % 4096 * 2 ^ 19 + groupAddr w) }

/-- Messages sent each to one engine, in order. -/
def State.unicasts (s : State) (l : List Msg) : State := l.foldl State.unicast s

/-- The unicast copies of a multicast for the members on older paths, unless they are more than W quanta old (R314). -/
def State.mcCopies (s : State) (w : DWord) (m : Msg) (old : List Nat) : State :=
  if fld w 36 35 < (s.qindex + 4 - m.qtag) % 4 then s.count (kSwitch 6) old.length
  else s.unicasts (old.map (mcCopy w m))

/-- A message to a multicast group (R312 to R314): one stream for the members in the window, unicast copies for those on
older paths. -/
def State.multicast (s : State) (m : Msg) : State :=
  match s.groupDef m.unit with
  | none => s.count (kSwitch 9) 1
  | some (w, members) =>
    let ms := members.filter (· != s.dev)
    let newer (a : Nat) := decide (0x21 ≤ s.pathVersion s.dev a)
    let win := ms.filter fun a => newer a && !(tget .reset s.fab.groups m.unit).pruned.contains a
    let v := (win.map (s.pathVersion s.dev)).foldl min 0x30
    (if win = [] then s else s.mcSend m.unit v win m).mcCopies w m (ms.filter fun a => !newer a)

/-- `FABRIC_MESSAGE_SEND` (R304, R310, R323): the switch takes a message that leaves this engine. -/
def execFabricMessageSend (m : Msg) (s : State) : Res :=
  .next (
    if !m.remote || !s.grid.mesh.contains m || !s.ready m then s
    else
      let s := s.arrive m
      if s.fab.conflict then s
      else if m.kind = 6 then s.multicast m
      else s.unicast (msgToDev m (s.remapDev m)))

/-! ### Receiving (R303, R304, R312, R313, R316, R317) -/

/-- Shard sets declared at this engine, those of dormant placements that are in force among them (R323, R389, STYPE 8). -/
def State.shardSets (s : State) : List DWord := (s.inForce.of 8).flatMap dwords

/-- A real-time shard's arrival is recorded; false where it is a duplicate (R316). -/
def State.shardArrive (s : State) (tag : Nat) : Bool × State :=
  let set := bf tag 12 6
  if s.shardSets.any fun w => fld w 63 57 == set then
    let k := 4 * set + bf tag 14 13
    let l := tget [] s.fab.shards k
    if l.contains (tag % 64) then (false, s.count (kSwitch 7) 1)
    else (true, { s with fab.shards := tset [] s.fab.shards k (tag % 64 :: l) })
  else (true, s)

/-- The transfer of a bulk message: by its tag, or on a path below 3.0, where tags are zero, by its stream (R315; log entry 27). -/
def bulkNo (ver : Nat) (f : Flit) : Nat := if 0x30 ≤ ver then bf f.shard 12 6 else f.stream - 3

/-- A bulk shard: its sector number and data are kept for the transfer (R317). -/
def State.bulkArrive (s : State) (src transfer : Nat) (m : Msg) : State :=
  let k := src * 128 + transfer
  let b := tget .reset s.fab.bulk k
  let b : Bulk := { b with data := tput b.data (leAt m.payload 0 8) (some (m.payload.drop 8)) }
  { s with fab.bulk := tset .reset s.fab.bulk k b }

/-- The SEQ of the last flit of a multicast message that this member has delivered onto its own mesh (R313). -/
def State.mcNote (s : State) (f : Flit) (last : Nat) : State :=
  let k := f.src * 256 + f.dst
  let x := tget .reset s.fab.mcIn k
  if f.mc then { s with fab.mcIn := tset .reset s.fab.mcIn k { x with last := tput x.last f.stream (some last) } } else s

/-- A message that is complete, with its last flit's SEQ, is delivered, or discarded where its length disagrees (R304). -/
def State.msgDone (s : State) (h : BitVec 128) (bs : List Byte) (last : Nat) : State :=
  let f : Flit := ⟨h, []⟩
  let m := msgOf bs
  if bs.length < 16 ∨ m.payload.length ≠ m.len then s.count (kSwitch 2) 1
  else if 3 ≤ f.stream then s.bulkArrive f.src (bulkNo (s.pathVersion f.src s.dev) f) m
  else
    let v := s.pathVersion f.src s.dev
    let m := if f.mc then
      match s.groupDef f.dst with | some (w, _) => { m with dest := BitVec.ofNat 32 (groupAddr w) } | none => m
      else m
    if 0x30 ≤ v ∧ m.type ≤ 2 ∧ f.shard < 2 ^ 15 then
      match s.shardArrive f.shard with
      | (true, s) => (s.fabDeliver f.src v m).mcNote f last
      | (false, s) => s
    else (s.fabDeliver f.src v m).mcNote f last

/-- A data flit of a stream that ends here (R304): gaps, missing ends and disagreeing lengths discard the message. -/
def State.reassemble (s : State) (f : Flit) : State :=
  let k := streamNo f.src f.mc f.dst f.stream
  let gap := match tfind s.fab.rxSeq k with | some q => q != f.seq | none => false
  let s : State := { s with fab.rxSeq := tput s.fab.rxSeq k (some ((f.seq + 1) % 65536)) }
  let s := if gap then s.count (kSwitch 1) 1 else s
  let cur := tfind s.fab.reasm k
  let lost := match cur with | some r => !r.bad && (gap || f.first) | none => false
  let s := if lost then s.count (kSwitch 2) 1 else s
  let keep := fit 0 f.plen f.payload
  let r : Reasm :=
    if f.first then ⟨keep, f.hdr, false⟩
    else match cur with
      | some r => if gap then { r with bad := true } else { r with bytes := r.bytes ++ keep }
      | none => ⟨[], f.hdr, true⟩
  let s := if !f.first && cur.isNone then s.count (kSwitch 2) 1 else s
  if f.last then
    let s : State := { s with fab.reasm := tdel s.fab.reasm k }
    if r.bad then s else s.msgDone r.hdr r.bytes f.seq
  else { s with fab.reasm := tput s.fab.reasm k (some r) }

/-- A multicast flit at a member: not while it is pruned, nor where its path is below 2.1, which brings it unicast copies (R313, R314). -/
def State.mcTake (s : State) (f : Flit) : State :=
  if (tget .reset s.fab.mcIn (f.src * 256 + f.dst)).pruned ∨ s.pathVersion f.src s.dev < 0x21 then s else s.reassemble f

/-- A flit forwarded on a port (R303). -/
def State.forwardFlit (s : State) (f : Flit) (p : Nat) : State := s.emitFlit p (.flit p f)

/-- The ports on which this engine forwards a multicast flit of a source: those of the paths of version 2.1 and above to members that
pass here (R312, R314, R325). -/
def State.mcPorts (s : State) (f : Flit) (from_ : Nat) : List Nat :=
  if s.isCascade then (if from_ = 0 then [1] else [0]).filter s.tpUp
  else
    match s.groupDef f.dst with
    | none => []
    | some (_, ms) =>
      let l := s.fab.routeLsrs
      (dedupN ((ms.filter fun a => decide (0x21 ≤ s.pathVersion f.src a)).flatMap fun a => ((pathTo l f.src a).filter fun h => h.1 == s.dev).map (·.2.1))).filter s.tpUp

/-- A control flit takes its place on its stream (R304). -/
def State.ctrlSeq (s : State) (f : Flit) : State :=
  { s with fab.rxSeq := tput s.fab.rxSeq (streamNo f.src f.mc f.dst f.stream) (some ((f.seq + 1) % 65536)) }

/-- `FLIT_RECEIVE` (R300 to R304, R310, R312), with the symbol errors of the codewords that ended with it, of which a codeword
corrects up to 7: the header is checked; the flit is forwarded, or reassembled here; a link that is not up yet takes LINK flits alone. What a control, time or link flit carries acts by its own command (log entry 22). -/
def execFlitReceive (port : Nat) (f : Flit) (fec : List Nat) (s : State) : Res :=
  inUnit port 8 (
    let x := s.port_ port
    if x.st = .dark ∨ x.st = .training then s
    else
      let bad := (fec.filter fun e => decide (7 < e)).length
      let s := s.counts [(kTether port 0, sumN (fec.filter fun e => decide (e ≤ 7))), (kTether port 1, bad), (kTether port 4, 1)]
      let s := s.setPort port { x with uncorr := x.uncorr + bad }
      if !f.sound then s.count (kTether port 2) 1
      else if x.st ≠ .up ∧ f.ftype ≠ 3 then s
      else
        let here := f.mc || f.dst == s.dev
        if f.ftype ≠ 0 then
          if f.ftype = 1 ∧ !here then
            match s.routeTo f.dst with | some p => s.forwardFlit f p | none => s
          else if f.ctrlSound then s.ctrlSeq f
          else s.count (kSwitch 0) 1
        else if f.mc then
          let member : Bool := match s.groupDef f.dst with | some (_, ms) => ms.contains s.dev && f.src != s.dev | none => false
          let s := (s.mcPorts f port).foldl (fun s p => s.branchFlits f.src f.dst p [f]) s
          if member && !s.fab.conflict then s.mcTake f else s
        else if here then (if s.fab.conflict then s else s.reassemble f)
        else
          match s.routeTo f.dst with
          | some p => s.forwardFlit f p
          | none => s)

/-! ### Multicast windows (R313) -/

/-- How far sequence `b` lies behind `a`, mod 65,536. -/
def seqBehind (a b : Nat) : Nat := (a + 65536 - b % 65536) % 65536

/-- A member's lag: from the oldest quantum whose traffic it has not wholly acknowledged to the present one. -/
def McGroup.lag (x : McGroup) (q member : Nat) : Nat :=
  let open_ := (x.ends.filter fun e => match tfind x.acks (4 * member + e.2.1) with | some a => decide (a < e.1) | none => true).map (·.1)
  match open_ with
  | [] => 0
  | e :: r => q - r.foldl min e

/-- The members whose lag exceeds W are pruned (R313): judged at each boundary and at each acknowledgement. -/
def State.mcPrune (s : State) (g : Nat) : State :=
  match s.groupDef g with
  | none => s
  | some (w, ms) =>
    let x := tget .reset s.fab.groups g
    let bad := ms.filter fun a => a != s.dev && !x.pruned.contains a && decide (0x21 ≤ s.pathVersion s.dev a)
      && decide (fld w 36 35 < x.lag s.qindex a)
    let s : State := { s with fab.groups := tset .reset s.fab.groups g { x with pruned := x.pruned ++ bad } }
    bad.foldl (fun s a => (s.count (kSwitch 5) 1).sendCtrl a 3 [g]) s

/-- Every group's lags judged (R313). -/
def State.mcPrunes (s : State) : State := (s.fab.groups.map (·.1)).foldl State.mcPrune s

/-- `MC_ACK_RECEIVE` (R310, R313): the quanta whose traffic on a virtual channel's stream ends at or before the acknowledged flit are
acknowledged. -/
def execMcAckReceive (group member vc seq : Nat) (s : State) : Res :=
  inUnit group 256 (
    if s.fab.conflict then s else
    let x := tget .reset s.fab.groups group
    let done := (x.ends.filter fun e => e.2.1 == vc && decide (seqBehind seq e.2.2 < 32768)).map (·.1)
    let s : State := match done with
      | [] => s
      | _ :: _ => { s with fab.groups := tset .reset s.fab.groups group { x with acks := tput x.acks (4 * member + vc) (some (maxN done)) } }
    s.mcPrune group)

/-- `MC_PRUNE_NOTICE` (R313): the member discards any partial message and takes no further delivery. -/
def execMcPruneNotice (src group : Nat) (s : State) : Res :=
  inUnit group 256 (
    if s.fab.conflict then s else
    let k := src * 256 + group
    let gone (p : Nat × Reasm) := (List.range 3).any fun v => p.1 == streamNo src true group v
    let x := tget .reset s.fab.mcIn k
    { s with fab.mcIn := tset .reset s.fab.mcIn k { x with pruned := true },
             fab.reasm := s.fab.reasm.filter fun p => !gone p }.raise evMcPruned [(2, src), (1, group)])

/-- The acknowledgements of a boundary (R313). -/
def State.mcAcks (s : State) : State :=
  s.fab.mcIn.foldl (fun s p =>
    if 0x21 ≤ s.pathVersion (p.1 / 256) s.dev then
      p.2.last.foldl (fun s q => s.sendCtrl (p.1 / 256) 2 [p.1 % 256, s.dev, q.1, q.2]) s
    else s) s

/-- At a stream boundary the source includes every pruned member again, which owes nothing of the quanta before, and a pruned
member delivers again (R313). -/
def State.mcRejoin (s : State) (n : Nat) : State :=
  if n % 16 ≠ 0 then s
  else
    let back := s.fab.mcIn.filter fun p => p.2.pruned
    let again (x : McGroup) : McGroup :=
      { x with pruned := [], acks := x.pruned.foldl (fun t a => (List.range 3).foldl (fun t v => tput t (4 * a + v) (some (n - 1))) t) x.acks }
    let s : State := { s with fab.groups := s.fab.groups.map fun p => (p.1, again p.2) }
    back.foldl (fun s p =>
      let x : McIn := .reset
      let seqs := s.fab.rxSeq.filter fun e => !((List.range 3).any fun v => e.1 == streamNo (p.1 / 256) true (p.1 % 256) v)
      { s with fab.mcIn := tset .reset s.fab.mcIn p.1 x, fab.rxSeq := seqs }.raise evMcRejoined
        [(2, p.1 / 256), (1, p.1 % 256)]) s

/-! ### Bulk transfers (R317) -/

/-- `BULK_RESEND_REQUEST` (R317): each of the named sectors that is missing is requested up to 4 times; then the transfer
fails. -/
def execBulkResendRequest (src transfer : Nat) (sectors : List Nat) (s : State) : Res :=
  inUnit transfer 128 (
    let k := src * 128 + transfer
    let b := tget .reset s.fab.bulk k
    let sectors := sectors.filter fun x => (tfind b.data x).isNone
    if b.failed ∨ sectors = [] then s
    else if sectors.any fun x => decide (4 ≤ tget 0 b.tries x) then
      { s with fab.bulk := tset .reset s.fab.bulk k { b with failed := true } }.raise evFabXferFailed [(2, src), (1, transfer)]
    else
      let t := sectors.foldl (fun t x => tset 0 t x (tget 0 t x + 1)) b.tries
      ({ s with fab.bulk := tset .reset s.fab.bulk k { b with tries := t } }).sendCtrl src 4 (transfer :: sectors))

/-- One bulk shard of a transfer sent: its sector number and data, on the transfer's stream, with the package's generation and, on a path of
version 3.0, its tag (R302, R315, R317). -/
def State.bulkShard (s : State) (dst transfer gen x : Nat) (data : List Byte) : State :=
  match s.routeTo dst with
  | none => s
  | some p =>
    if s.fab.conflict then s else
    let m := mkMsg (remoteAddr dst 4 0 0) (localAddr 4 0 0) 0 0 false 0 s.qindex 0 (leBytes 8 x ++ data)
    let st := 3 + transfer % 13
    let k := streamNo 0 false dst st
    let q := tget 0 s.fab.txSeq k
    let fs := flitsOn dst s.dev 2 false st gen (if 0x30 ≤ s.pathVersion s.dev dst then 2 ^ 15 + transfer * 64 else 0) q (msgBytes m)
    ({ s with fab.txSeq := tset 0 s.fab.txSeq k ((q + fs.length) % 65536) }).putFlits p fs

/-- `RESEND_REQUEST_RECEIVE` (R315, R317): the sectors named are sent again as bulk shards: the pieces of a transfer that this engine
relayed, else sectors from the store copy. -/
def execResendRequestReceive (src transfer : Nat) (sectors : List Nat) (s : State) : Res :=
  inUnit transfer 128 (
    match tfind s.fab.bulkOut (128 * src + transfer) with
    | some (gen, ps) => (sectors.filter fun x => decide (x < ps.length)).foldl (fun s x => s.bulkShard src transfer gen x (nth [] ps x)) s
    | none => sectors.foldl (fun s x => s.bulkShard src transfer 0 x (s.sectorBytes x)) s)

/-! ### Fabric time (R319, R325) -/

/-- The port on which this engine takes fabric time: that of its route to the root. -/
def State.rootPort (s : State) : Option Nat := s.fab.root.bind s.routeTo

/-- `TIME_FLIT_RECEIVE` (R319): taken on the root's route only, and forwarded with its delay. One whose hop count has reached 32
has passed more than 32 links: it is not forwarded, and `FABRIC` is not judged by it. -/
def execTimeFlitReceive (port : Nat) (t : TimeFlit) (residence : Nat) (s : State) : Res :=
  inUnit port 8 (
    if s.fab.conflict || !s.tpUp port || s.rootPort != some port || s.fab.root != some t.root || decide (32 ≤ t.hops) then s
    else
      let here : TimeFlit := { t with delay := t.delay + (s.port_ port).delay }
      let s := State.freqMeasured { s with time.fabTime := some here, time.fabAt := some s.time.sample } 7
      let s := if t.rate = s.time.rate then s else s.sourceLost 7
      let d := here.delay + residence
      (s.upPorts.filter (· != port)).foldl (fun s p => s.sendTime p { t with hops := t.hops + 1, delay := d }) s)

/-- The TIME flits that the root sends at a boundary. -/
def State.timeSend (s : State) : State :=
  if s.fab.root = s.fab.addr ∧ s.fab.addr.isSome ∧ !s.fab.conflict then
    let t : TimeFlit := ⟨s.tstamp, s.time.rate, s.time.quantum, s.dev, s.quality, 0, 0⟩
    s.upPorts.foldl (fun s p => s.sendTime p t) s
  else s

/-! ### Heartbeats and failures (R320 to R324) -/

/-- The failed engines that this engine serves for: those whose plan in force names it as standby. -/
def State.servingFor (s : State) : List Nat :=
  (dedupN ((s.fab.applied.filter fun e => rmStandby e == s.dev).map rmFailed)).take 8

/-- Engines that list this one in their watch lists, by their records (R309, R320); in a cascade, which floods none, those that this one
lists (R325; log entry 56). -/
def State.watchers (s : State) : List Nat := if s.isCascade then s.watch else (s.fab.lsrs.filter fun r => r.watch.contains s.dev).filterMap (·.addr)

/-- A heartbeat to each neighbour that is up, and to each watcher (R320); none from an engine whose address conflicts (R310). -/
def State.heartbeatSend (s : State) (notServing : Bool) : State :=
  let h : Heartbeat := ⟨s.dev, s.time.sample / s.q, runCode s.run.st, notServing, s.quality, s.fab.lsrSeq, s.servingFor⟩
  let far := s.watchers.filter fun a => !s.upPorts.any fun p => s.portAddr p == some a
  let dests := s.upPorts.map (fun p => (p, s.nextAddr p)) ++ far.filterMap fun a => (s.routeTo a).map fun p => (p, a)
  if s.fab.conflict then s else dests.foldl (fun s d => s.sendBeat d.1 d.2 h) s

/-- The engine with the lowest address among those that watch a failed engine and are serving, this one among them where it does (R323);
in a cascade, which floods no records, the watchers are taken to be those that this engine watches (R325; log entry 56). -/
def State.coordinator (s : State) (f : Nat) : Option Nat :=
  let l := if s.isCascade then s.watch else (s.fab.lsrs.filter fun r => r.watch.contains f).filterMap (·.addr)
  let l := (l.filter fun a => !s.fab.failed.contains a && a != f)
    ++ (if s.watch.contains f && s.run.st == .run && !s.obs.halting then [s.dev] else [])
  match l with | [] => none | a :: r => some (r.foldl min a)

/-- The index of the first boundary that is not before the present instant. -/
def State.boundaryOn (s : State) : Nat := (s.time.sample + b2n (s.time.tick != 0) + s.q - 1) / s.q

/-- A re-map or return index fixed and announced to every engine (R323, R324). -/
def State.announce (s : State) (f index : Nat) (ret : Bool) : State :=
  let s : State := { s with fab.remap := tput s.fab.remap f (some (index, ret)) }
  s.peersAll.foldl (fun s a => s.sendCtrl a 5 [f, index, b2n ret]) s

/-- A peer declared failed (R321); the coordinator announces the re-map index (R323). -/
def State.declare (s : State) (f : Nat) : State :=
  if s.fab.failed.contains f then s
  else
    let n := s.boundaryOn
    let s := { s with fab.failed := s.fab.failed ++ [f], fab.declaredAt := tput s.fab.declaredAt f (some n) }.raise
      evFabPeerFailed [(2, f)]
    if s.coordinator f = some s.dev then s.announce f (n + 4) false else s

/-- `PEER_DECLARED_FAILED` (R321): the third consecutive heartbeat of a watched peer is missed. -/
def execPeerDeclaredFailed (addr : Nat) (s : State) : Res :=
  inUnit addr 4096 (if s.watch.contains addr ∧ 3 ≤ tget 0 s.fab.missed addr then s.declare addr else s)

/-- The sync objects of this engine whose part a standby serves lie dormant (R324). -/
def State.restObjects (s : State) : State :=
  (s.placement.syncs.filter fun p => s.servedElsewhere 7 (p.1 / 64)).foldl (fun s p => s.setObj p.1 .reset) s

/-- `HEARTBEAT_RECEIVE` (R310, R318, R321, R324): the sender is heard; not-serving declares it failed; an engine that returns after
its re-map is watched again, and the coordinator fixes a return index where `REMAP_RETURN` is set; and a standby that serves for
this engine is noted. -/
def execHeartbeatReceive (h : Heartbeat) (s : State) : Res :=
  .next (
    if s.fab.conflict then s else
    let a := h.sender
    let upd (r : Lsr) := if r.addr = some a then { r with quality := h.quality } else r
    let s : State := { s with fab.heard := if s.fab.heard.contains a then s.fab.heard else a :: s.fab.heard,
                              fab.lsrs := s.fab.lsrs.map upd }
    let s : State := { s with fab.servedBy :=
      if h.servingFor.contains s.dev then (if s.fab.servedBy.contains a then s.fab.servedBy else a :: s.fab.servedBy)
      else s.fab.servedBy.filter (· != a) }
    let s := s.rootCheck.restObjects
    if h.notServing then (if s.watch.contains a then s.declare a else s)
    else if !s.fab.remapped.contains a then s
    else
      let s : State := { s with fab.failed := s.fab.failed.filter (· != a) }
      if flag s.cfg.fabctl 124 && s.coordinator a == some s.dev
          && !(match tfind s.fab.remap a with | some (_, r) => r | none => false) then
        s.announce a (s.boundaryOn + 8) true
      else s)

/-- `REMAP_SELF_APPLY` (R323): 8 quanta after its declaration without an announcement, the plan applies at the next
boundary. -/
def execRemapSelfApply (addr : Nat) (s : State) : Res :=
  inUnit addr 4096 (
    let n := s.time.sample / s.q
    match tfind s.fab.declaredAt addr, tfind s.fab.remap addr with
    | some d, none =>
      if d + 8 ≤ n then { s with fab.remap := tput s.fab.remap addr (some (n + 1, false)) } else s
    | _, _ => s)

/-- `REMAP_INDEX_RECEIVE` (R323, R324). -/
def execRemapIndexReceive (failed index : Nat) (ret : Bool) (s : State) : Res :=
  inUnit failed 4096 (if s.fab.conflict then s else { s with fab.remap := tput s.fab.remap failed (some (index, ret)) })

/-- The misses counted at a boundary: a watched peer whose heartbeat of the boundary before has not arrived (R321). -/
def State.countMisses (s : State) : State :=
  let l := s.watch.filter fun a => !s.fab.failed.contains a
  { s with fab.missed := l.foldl (fun t a => tset 0 t a (if s.fab.heard.contains a then 0 else tget 0 s.fab.missed a + 1)) [],
           fab.heard := [] }

/-- An entry of the re-map plan covers an endpoint (R322). -/
def rmCovers (e : BitVec 128) (kind u : Nat) : Bool := rmKind e == kind && decide (rmLo e ≤ u ∧ u ≤ rmHi e)

/-- Of a list of entries, those that come first for some endpoint, after the entries `seen`. -/
def rmFirst (seen : List (BitVec 128)) : List (BitVec 128) → List (BitVec 128)
  | [] => []
  | e :: r =>
    let fresh := (List.range (rmHi e + 1)).any fun u => decide (rmLo e ≤ u) && !seen.any fun x => rmCovers x (rmKind e) u
    if fresh then e :: rmFirst (e :: seen) r else rmFirst seen r

/-- The plan entries that a failure of `f` brings into force: for each endpoint the first whose standby is serving, this engine by its
own state (R22, R322). -/
def State.planFor (s : State) (f : Nat) : List (BitVec 128) :=
  rmFirst [] (s.cfg.remap.filter fun e => rmValid e && rmFailed e == f
    && (if rmStandby e = s.dev then s.run.st == .run && !s.obs.halting else !s.fab.failed.contains (rmStandby e)))

end Sys2Proof.Machine
end

