-- ==== Sys2Proof/Machine/Life.lean ====
section
/-!
DEFINITION. The OTP row, the life-cycle state, and the keys that each state admits (R374, R434, R438, R439, R442).
-/

namespace Sys2Proof.Machine

/-- A word of the OTP row programmed; a second program of a word is refused (R374). -/
def State.otpProg (s : State) (off : Nat) (w : DWord) : State :=
  if s.nv.otpDone.contains (off / 8) then s
  else { s with nv.otp := tset 0 s.nv.otp (off / 8) w, nv.otpDone := off / 8 :: s.nv.otpDone }

/-- Several words programmed from an offset on. -/
def State.otpProgAll (s : State) (off : Nat) : List DWord → State
  | [] => s
  | w :: r => (s.otpProg off w).otpProgAll (off + 8) r

def State.otpDone (s : State) (off : Nat) : Bool := s.nv.otpDone.contains (off / 8)

/-- Bytes of the OTP row, as the security engine reads them. -/
def State.otpBytes (s : State) (off n : Nat) : List Byte := (List.range (n / 8)).flatMap fun i => leBytes 8 (s.otp (off + 8 * i)).toNat

/-- Transition slots whose word 0 is written, ascending (R439). -/
def State.lcSlots (s : State) : List Nat := (List.range 64).filter fun i => s.otpDone (0x100 + 16 * i)

/-- The life-cycle state in force (R439): 0 BLANK, 1 PROVISIONED, 2 FIELD, 3 SERVICE, 4 RETIRED. -/
def State.lc (s : State) : Nat :=
  match s.lcSlots.getLast? with | some i => fld (s.otp (0x100 + 16 * i)) 63 61 | none => 0

/-- Slots in which either word is written (R439). -/
def State.slotsUsed (s : State) : Nat :=
  ((List.range 64).filter fun i => s.otpDone (0x100 + 16 * i) || s.otpDone (0x108 + 16 * i)).length

/-- A slot with only word 1 written: a torn transition (R439). -/
def State.lcTorn (s : State) : Bool :=
  (List.range 64).any fun i => s.otpDone (0x108 + 16 * i) && !s.otpDone (0x100 + 16 * i)

/-! ### Keys (R434, R438) -/

/-- Fields of a key entry (R438). -/
def keUse (e : List Byte) : Nat := bf (leAt e 0 8) 63 62
def keGroup (e : List Byte) : Bool := (leAt e 0 8).testBit 61
def keOwner (e : List Byte) : Bool := (leAt e 0 8).testBit 60
def keMod (e : List Byte) : List Byte := (e.drop 8).take 512

/-- The digest of a public key, over its modulus in big-endian order (R434). -/
def keyDigest (m : List Byte) : List Byte := Config.sha512 m.reverse

/-- The owner entry counts once its digest equals that of the OTP row (R438). -/
def State.ownerKey (s : State) : Option (List Byte) :=
  if s.nv.keys.owner ≠ [] ∧ keyDigest (keMod s.nv.keys.owner) = s.otpBytes 0x80 64 then some (keMod s.nv.keys.owner) else none

/-- The moduli admitted for a use in the state in force: 1 packages, 2 configuration records (R442). -/
def State.admitted (s : State) (use : Nat) : List (List Byte) :=
  let own := s.ownerKey.toList
    ++ (s.nv.keys.endorsed.filter fun e => (keUse e).testBit (use - 1)).map keMod
  match s.lc with
  | 0 => if use = 2 then [Config.vendorKey] else []
  | 1 => [Config.vendorKey]
  | 2 => own
  | 3 => own ++ [Config.vendorKey]
  | _ => if use = 2 then own ++ [Config.vendorKey] else []

/-- The admitted key under which a signature verifies. -/
def State.verify (s : State) (use : Nat) (msg sig : List Byte) : Option (List Byte) :=
  (s.admitted use).find? fun k => Config.rsaPss k msg sig

end Sys2Proof.Machine
end

