-- ==== Sys2Proof/Machine/Record.lean ====
section
/-!
DEFINITION. The configuration record: its header, its sections, their fields, and the checks of boot step 4
(R56 to R58, R338 to R347, R371, R372, R376 to R397, R431).
-/

namespace Sys2Proof.Machine

/-! ### Field checks (R8) -/

/-- Number of the lowest bit set, by fuel. -/
def lowBit : Nat → Nat → Nat
  | 0, _ => 0
  | f + 1, w => if w % 2 = 1 then 0 else 1 + lowBit f (w / 2)

/-- The mask of a list of bit ranges `(hi, lo)`. -/
def resMask (l : List (Nat × Nat)) : Nat := sumN (l.map fun p => 2 ^ (p.1 + 1) - 2 ^ p.2)

/-- The byte offset of the lowest non-zero reserved bit of a value at `o`, if one is set (R8). -/
def rsv (l : List (Nat × Nat)) (w o : Nat) : Option Nat :=
  let m := w &&& resMask l
  if m = 0 then none else some (o + lowBit 512 m / 8)

/-- The byte offset of the first field `(hi, lo, least, most)` out of its range. -/
def rng (l : List (Nat × Nat × Nat × Nat)) (w o : Nat) : Option Nat :=
  (l.find? fun p => decide (bf w p.1 p.2.1 < p.2.2.1 ∨ p.2.2.2 < bf w p.1 p.2.1)).map fun p => o + p.2.1 / 8

/-- The first fault of a list of checks. -/
def faults (l : List (Option Nat)) : Option Nat := l.findSome? id

/-- A fault at `o` where a condition holds. -/
def failIf (b : Bool) (o : Nat) : Option Nat := if b then some o else none

/-! ### Header (R377, R378) -/

def hdLength (h : Nat) : Nat := bf h 127 96
def hdSeq (h : Nat) : Nat := bf h 95 64
def hdNsect (h : Nat) : Nat := bf h 167 160
def hdVersion (h : Nat) : Nat := bf h 47 32
def hdMagic (h : Nat) : Bool := bf h 31 0 == 0x4643464A
def hdSigned (h : Nat) : Bool := h.testBit 48
def hdStart (h : Nat) : Bool := h.testBit 49

/-- `LENGTH` lies in its range. -/
def hdLenOk (h : Nat) : Bool := decide (4096 ≤ hdLength h ∧ hdLength h ≤ 524288 ∧ hdLength h % 8 = 0)

/-- The bytes that the CRC or the signature covers: the header, its CRC taken as zero for the CRC, and the sections. -/
def hdCover (bs : List Byte) (zero : Bool) : List Byte :=
  (if zero then bs.take 16 ++ [0, 0, 0, 0] ++ (bs.drop 20).take 44 else bs.take 64)
    ++ (bs.take (hdLength (leAt bs 0 32))).drop 4096

/-- The bytes of a range are zero. -/
def zeros (bs : List Byte) (o n : Nat) : Bool := ((bs.drop o).take n).all (· == 0)

/-- The header is valid (R378): its fields, the CRC, and the signature where there is one or the state requires one. -/
def State.headerOk (s : State) (bs : List Byte) : Bool :=
  let h := leAt bs 0 32
  let v1 := hdVersion h == 1
  hdMagic h && (v1 || hdVersion h == 2) && hdLenOk h && decide (hdLength h ≤ bs.length)
    && decide (bf h 223 168 = 0 ∧ bf h 63 50 = 0) && (!v1 || !hdStart h) && zeros bs 32 32 && zeros bs 576 3520
    && (hdSigned h || zeros bs 64 512) && crc32c (hdCover bs true) == bf h 159 128
    && (if hdSigned h then (s.verify 2 (hdCover bs false) ((bs.drop 64).take 512)).isSome else s.lc != 2)

/-- A slot's record as it stands in the store, and whether a sector of it is poisoned (R376). -/
def State.slotRecord (s : State) (slot : Nat) : List Byte × Bool :=
  let hd := s.sectorBytes (128 * slot)
  let n := if hdLenOk (leAt hd 0 32) then cdiv (hdLength (leAt hd 0 32)) 4096 else 1
  let ls := (List.range n).map (128 * slot + ·)
  (ls.flatMap s.sectorBytes, ls.any fun l => (s.ent l).st == .poisoned)

def State.slotValid (s : State) (slot : Nat) : Bool := let r := s.slotRecord slot; !r.2 && s.headerOk r.1

/-- The stored SEQ of a slot; a header without MAGIC counts as 0 (R380). -/
def State.slotSeq (s : State) (slot : Nat) : Nat :=
  let h := leAt (s.sectorBytes (128 * slot)) 0 32
  if hdMagic h then hdSeq h else 0

/-- The slot that boot step 4 takes, and whether it fell back to it (R379). -/
def State.selectSlot (s : State) : Option (Nat × Bool) :=
  let q0 := s.slotSeq 0
  let q1 := s.slotSeq 1
  match s.slotValid 0, s.slotValid 1 with
  | true, true => some (if q0 < q1 then 1 else 0, false)
  | true, false => some (0, decide (q0 < q1))
  | false, true => some (1, decide (q1 < q0))
  | false, false => none

/-! ### Framing (R381, R382) -/

structure Sec where
  type : Nat
  /-- Offset of the body within the record. -/
  ofs : Nat
  body : List Byte
deriving DecidableEq, Repr

/-- The length of the sub-blocks of a placement body: where the last one ends, by their number. -/
def subsEnd (b : List Byte) : Nat → Nat → Nat
  | 0, o => o
  | n + 1, o => if b.length < o + 8 then b.length + 1 else subsEnd b n (o + 8 + leAt b o 4)

/-- A body has the length that its type and its counts call for (R382; format 1: R397). -/
def bodyLenOk (v1 : Bool) (t : Nat) (b : List Byte) : Bool :=
  let n := b.length
  let w := leAt b 0 8
  match t with
  | 1 => n == (if v1 then 16 else 24)
  | 2 => decide (8 ≤ n) && (if v1 then n == 32 + 32 * bf w 31 21 else n == 56 + 32 * bf w 31 21 + 16 * bf w 20 10)
  | 3 => decide (16 ≤ n) && n == 16 + 520 * bf w 63 55
  | 4 => decide (8 ≤ n) && n == 8 + (if v1 then 48 else 64) * bf w 63 51
  | 5 => decide (8 ≤ n) && n == subsEnd b (bf w 31 16) 8
  | 6 => decide (n ≤ 8 * 256)
  | 7 => n == 72
  | 8 => decide (8 ≤ n ∧ n ≤ 8 + 8 * 256)
  | 9 => n == 8
  | 10 => n == 8
  | 11 => n % 16 == 0 && decide (n ≤ 16 * 512)
  | 12 => n == 8
  | _ => false

/-- Section types that a format admits (R382, R397). -/
def typeOk (v1 : Bool) (t : Nat) : Bool :=
  if v1 then t == 1 || t == 2 || t == 3 || t == 4 || t == 5 || t == 8 || t == 9 || t == 11 else decide (1 ≤ t ∧ t ≤ 12)

/-- The sections of a record, or the type and offset of the section header at fault (R381). By the number left. -/
def framing (v1 : Bool) (bs : List Byte) (len : Nat) : Nat → Nat → Nat → Except (Nat × Nat) (List Sec)
  | 0, o, last => if o = len then .ok [] else .error (last, o)
  | n + 1, o, last =>
    let w := leAt bs o 8
    let t := bf w 63 56
    let sl := bf w 31 0
    let body := (bs.drop (o + 16)).take sl
    if len < o + 16 then .error (last, o)
    else if bf w 47 32 ≠ 0 ∨ leAt bs (o + 8) 8 ≠ 0 ∨ (!v1 && bf w 55 48 != 1) ∨ !typeOk v1 t ∨ t ≤ last ∨ sl % 8 ≠ 0
        ∨ len < o + 16 + sl ∨ !bodyLenOk v1 t body then .error (t, o)
    else
      match framing v1 bs len n (o + 16 + sl) t with
      | .ok l => .ok (⟨t, o + 16, body⟩ :: l)
      | .error e => .error e

/-! ### Decoding (R383 to R395, R397) -/

/-- A table of the values that are not zero. -/
def tabOf {n : Nat} (l : List Nat) : Tab (BitVec n) :=
  ((List.range l.length).zip l).foldl (fun t p => tset 0 t p.1 (BitVec.ofNat n p.2)) []

/-- A format 1 slot record in the native layout (R397). -/
def slotNative (v1 : Bool) (w : Nat) : Nat := if v1 then w % 2 ^ 352 + bf w 383 352 * 2 ^ 480 else w

/-- Offsets in the ports body: the serial audio words, their number, and the stream records. -/
def portsLay (v1 : Bool) : Nat × Nat × Nat := if v1 then (24, 2, 32) else (40, 4, 56)

/-- One entry of the priorities section applied to the slot records (R391). -/
def override (t : Tab (BitVec 512)) (e : Nat) : Tab (BitVec 512) :=
  t.map fun p =>
    if bf e 63 52 ≤ p.1 ∧ p.1 ≤ bf e 63 52 + bf e 51 40 then
      let v := p.2.toNat
      let v := if e.testBit 39 then v - bf v 30 29 * 2 ^ 29 + bf e 38 37 * 2 ^ 29 else v
      let v := if e.testBit 36 then v - bf v 28 27 * 2 ^ 27 + bf e 35 34 * 2 ^ 27 else v
      (p.1, BitVec.ofNat 512 v)
    else p

/-- One section read into the configuration. -/
def decodeSec (v1 : Bool) (c : CfgSt) (x : Sec) : CfgSt :=
  let b := x.body
  let w := leAt b 0 8
  match x.type with
  | 1 =>
    let v := if v1 then leAt b 0 16 + clockingReset.toNat / 2 ^ 128 * 2 ^ 128 else leAt b 0 24
    { c with clocking := BitVec.ofNat 192 v }
  | 2 =>
    let (sa, nsa, st) := portsLay v1
    { c with phost := BitVec.ofNat 64 w,
             mport := [BitVec.ofNat 128 (leAt b 8 16), if v1 then mportReset else BitVec.ofNat 128 (leAt b 24 16)],
             sactl := fit sactlReset 4 ((items b sa 4 nsa).map (BitVec.ofNat 32)),
             streams := tabOf (items b st 32 (bf w 31 21)),
             tstreams := if v1 then [] else tabOf (items b (st + 32 * bf w 31 21) 16 (bf w 20 10)) }
  | 3 =>
    let f := leAt b 0 16
    let gs := (List.range (bf f 63 55)).map fun i =>
      (BitVec.ofNat 64 (leAt b (16 + 520 * i) 8), bitsSet 4096 (leAt b (24 + 520 * i) 512))
    { c with fabctl := BitVec.ofNat 128 (if v1 then f ||| 2 ^ 127 else f), groups := gs }
  | 4 => { c with slots := tabOf ((items b 8 (if v1 then 48 else 64) (bf w 63 51)).map (slotNative v1)) }
  | 5 => { c with plctl := BitVec.ofNat 64 w,
                  subs := ((subBlocks b b.length 8).getD []).map fun p => (p.1, p.2.2) }
  | 6 => { c with slots := (items b 0 8 (b.length / 8)).foldl override c.slots }
  | 7 => { c with sagctl := BitVec.ofNat 64 w, stages := (items b 8 8 8).map (BitVec.ofNat 64) }
  | 8 => { c with protect := (items b 0 8 (b.length / 8)).map (BitVec.ofNat 64) }
  | 9 => { c with policy := BitVec.ofNat 64 w }
  | 10 => { c with trace := BitVec.ofNat 64 w }
  | 11 => { c with remap := (items b 0 16 (b.length / 16)).map (BitVec.ofNat 128) }
  | _ => { c with bcA := w.testBit 63 }

/-! ### Content checks (R396) -/

/-- Clocking (R383). -/
def checkClocking (c : CfgSt) (o : Nat) : Option Nat :=
  let w := c.clocking.toNat
  let src (i : Nat) := bf w (43 - 3 * i) (41 - 3 * i)
  let bad (i : Nat) :=
    let v := src i
    v != 0 && ((List.range i).any (fun j => src j == 0 || src j == v)
      || (decide (3 ≤ v ∧ v ≤ 6) && fld (nth 0 c.sactl (v - 3)) 30 29 != 1)
      || (decide (v = 1 ∨ v = 2) && fld (nth 0 c.mport (v - 1)) 63 32 == 0))
  faults [rsv [(155, 128), (75, 64), (54, 52), (31, 0)] w o,
    rng [(127, 112, 1, 65535), (103, 96, 1, 255), (95, 86, 1, 1000), (85, 76, 1, 1023), (63, 61, 0, 5), (60, 58, 0, 4)] w o,
    ((List.range 4).find? bad).map fun i => o + (41 - 3 * i) / 8]

/-- One media stream record within its set (R340, R341, R397). -/
def checkStream (v1 : Bool) (c : CfgSt) (o i : Nat) : Option Nat :=
  let w := tget 0 c.streams i
  let rate := fld c.clocking 63 61
  let s := packetOf (msPtime w) rate
  let on (p : Nat) := msOn w p
  let same (p : Nat) := (List.range (i + 1)).filter fun j =>
    msOn (tget 0 c.streams j) p && msTx (tget 0 c.streams j) == msTx w
  let crowded (p : Nat) := on p && (decide (256 < (same p).length)
    || decide (2048 / rateMul rate < sumN ((same p).map fun j => msNch (tget 0 c.streams j))))
  if !msEn w then none
  else faults [failIf (v1 && msPort w != 0) (o + 7),
    failIf (decide (1440 < s * msNch w * msSize w)) (o + 6),
    failIf (crowded 0 || crowded 1) o,
    failIf (!msTx w && msIngress w != 0 && decide (msIngress w < s + 2 ∨ 1024 < msIngress w)) (o + 2),
    failIf ((on 0 && fld (nth 0 c.mport 0) 63 32 == 0) || (on 1 && fld (nth 0 c.mport 1) 63 32 == 0)) (o + 7),
    failIf (fld w 59 58 == 1 && (!(rate == 1 || rate == 3) || !(msPtime w == 0 || msPtime w == 3))) (o + 7)]

/-- Ports (R338, R340, R341, R346, R347, R384, R385). -/
def checkPorts (v1 : Bool) (c : CfgSt) (o : Nat) : Option Nat :=
  let (sa, nsa, st) := portsLay v1
  let ns := fld c.phost 31 21
  let nt := if v1 then 0 else fld c.phost 20 10
  let ports := if v1 then [0] else [0, 1]
  let mp (i : Nat) := (nth 0 c.mport i).toNat
  let ms (i : Nat) := (tget 0 c.streams i).toNat
  let tx (i : Nat) := (tget 0 c.tstreams i).toNat
  let so (i : Nat) := o + st + 32 * i
  let to_ (i : Nat) := o + st + 32 * ns + 16 * i
  let sw (i : Nat) := (nth 0 c.sactl i).toNat
  faults ([rsv [(9, 0)] c.phost.toNat o, rng [(31, 21, 0, if v1 then 256 else 1024), (20, 10, 0, 1024)] c.phost.toNat o]
    ++ ports.map (fun i => rsv [(9, 0), (83, 64)] (mp i) (o + 8 + 16 * i))
    ++ ports.map (fun i => if bf (mp i) 63 32 = 0 then none else rng [(31, 26, 8, 30)] (mp i) (o + 8 + 16 * i))
    ++ ports.map (fun i =>
        if (mp i).testBit 25 then rng [(21, 10, 1, 4094)] (mp i) (o + 8 + 16 * i) else none)
    ++ (List.range nsa).map (fun i => rsv [(26, 0)] (sw i) (o + sa + 4 * i))
    ++ (List.range nsa).map (fun i => rng [(30, 29, 0, 1)] (sw i) (o + sa + 4 * i))
    ++ (List.range ns).map (fun i => rsv [(40, 27), (15, 0)] (ms i) (so i))
    ++ (List.range ns).map (fun i => rng [(61, 60, 0, 2), (59, 58, 0, 1)] (ms i) (so i))
    ++ (List.range ns).map (fun i => failIf ((ms i).testBit 62 && bf (ms i) 95 64 != 0) (so i + 8))
    ++ (List.range nt).map (fun i => rsv [(116, 108), (85, 0)] (tx i) (to_ i))
    ++ (List.range nt).map (fun i => rng [(125, 123, 0, 4)] (tx i) (to_ i))
    ++ (List.range nsa).map (fun i => failIf (saMadi (nth 0 c.sactl i) && decide (4 ≤ fld c.clocking 63 61)) (o + sa + 4 * i + 3))
    ++ (List.range ns).map fun i => checkStream v1 c (so i) i)

/-- Fabric identity and role (R386). -/
def checkFabric (v1 : Bool) (c : CfgSt) (o : Nat) : Option Nat :=
  let w := c.fabctl.toNat
  let g (i : Nat) := (nth (0, []) c.groups i).1.toNat
  let go (i : Nat) := o + 16 + 520 * i
  faults ([rsv [(123, 120), (71, 64), (54, 0)] w o, rng [(63, 55, 0, if v1 then 0 else 256)] w o,
      failIf (!w.testBit 126 && bf w 119 108 != 0) (o + 13),
      failIf (w.testBit 127 && decide (4 ≤ bf w 107 100)) (o + 12)]
    ++ (List.range c.groups.length).map fun i =>
      faults [rsv [(34, 0)] (g i) (go i), rng [(55, 53, 0, 5)] (g i) (go i), rng [(36, 35, 1, 3)] (g i) (go i),
        failIf ((List.range i).any fun j => bf (g j) 63 56 == bf (g i) 63 56) (go i + 7)])

/-- What an endpoint names: whether it may be named for a source (or, `dst`, a destination), its format, and its channel
count (R57, R58, R346, R384). -/
def epInfo (c : CfgSt) (dst : Bool) (e : Nat) : Option (Nat × Nat) :=
  let t := epStream e
  match epKind e with
  | 3 =>
    if t < 4 ∧ saMadi (nth 0 c.sactl t) then some (1, saChans (nth 0 c.sactl t) (fld c.clocking 63 61)) else none
  | 4 =>
    let w := tget 0 c.tstreams t
    if t < fld c.phost 20 10 ∧ tsEn w ∧ tsTx w = dst then some (tsFmt w, tsNch w) else none
  | k =>
    let w := tget 0 c.streams t
    if t < fld c.phost 31 21 ∧ msEn w ∧ msTx w = dst ∧ msOn w (k - 1) then some (b2n (msL24 w), msNch w) else none

/-- A source or destination of an active slot: its format, its record and its channel (R57, R58). -/
def checkEp (c : CfgSt) (dst : Bool) (e o : Nat) : Option Nat :=
  if epKind e = 0 then none
  else
    match epInfo c dst e with
    | none => some (o + 1)
    | some (f, n) =>
      faults [failIf (epFmt e != f || (!dst && f == 4)) (o + 3), failIf (decide (n ≤ epCh e)) o]

/-- A destination channel as a number: what it names, whichever of a pair's ports the endpoint gives. -/
def destKey (e : Nat) : Nat := (if epKind e = 2 then 1 else epKind e) * 2 ^ 24 + e % 2 ^ 24

/-- The destinations of an active slot, with their offsets. -/
def slotDests (v1 : Bool) (c : CfgSt) (o i : Nat) : List (Nat × Nat) :=
  let w := tget 0 c.slots i
  if slEn w then
    ((List.range 4).map fun j => (slEp w (2 + j), o + 8 + (if v1 then 48 else 64) * i + 12 + 4 * j)).filter fun p =>
      epKind p.1 != 0
  else []

/-- The first destination channel that an earlier destination names (R58). -/
def dupDest : List (Nat × Nat) → List Nat → Option Nat
  | [], _ => none
  | (e, o) :: r, seen => if seen.contains (destKey e) then some o else dupDest r (destKey e :: seen)

/-- Channel slots (R56 to R58, R387, R397). -/
def checkSlots (v1 : Bool) (c : CfgSt) (n o : Nat) : Option Nat :=
  let size := if v1 then 48 else 64
  let at_ (i : Nat) := o + 8 + size * i
  let rec8 (i : Nat) :=
    let w := (tget 0 c.slots i).toNat
    faults ([rsv [(23, 12), (7, 0)] w (at_ i), rng [(28, 27, 0, 2), (26, 25, 0, 2), (11, 8, 0, if v1 then 4 else 8)] w (at_ i)]
      ++ (List.range 6).map fun j =>
        let e := slEp (tget 0 c.slots i) j
        faults [rsv [(24, 24)] e (at_ i + 4 + 4 * j), rng [(31, 28, 0, 4), (27, 25, 0, 4)] e (at_ i + 4 + 4 * j)])
  let active (i : Nat) :=
    let w := tget 0 c.slots i
    let used (j : Nat) := epKind (slEp w j) != 0
    if !slEn w then none
    else faults ([failIf (!used 0) (at_ i + 7), failIf (slDrySel w != 0 && !used 1) (at_ i + 3),
        failIf (!(used 2 || used 3 || used 4 || used 5)) (at_ i + 15),
        failIf (slDither w && slSeed w == 0) (at_ i + size - 4)]
      ++ (List.range 6).map fun j => checkEp c (decide (2 ≤ j)) (slEp w j) (at_ i + 4 + 4 * j))
  faults ((List.range n).map rec8 ++ (List.range n).map active
    ++ [dupDest ((List.range n).flatMap (slotDests v1 c o)) []])

/-- What an item of a sub-block names, as (kind, number) (R390). -/
def claims (t : Nat) (b : List Byte) : List (Nat × Nat) :=
  let w := leAt b 0 8
  match t with
  | 1 => (bitsSet 64 w).map fun k => (1, k)
  | 2 => (items b 0 16 (b.length / 16)).map fun x => (2, x % 256)
  | 3 => (List.range (bf w 27 16)).map fun i => (3, w % 4096 + i)
  | 4 => (4, w % 64) :: (items b 8 72 ((b.length - 8) / 72)).map fun x => (40, w % 64 * 1024 + x % 1024)
  | 5 => [(5, w % 16)]
  | 7 => (items b 8 16 ((b.length - 8) / 16)).map fun x => (7, bf x 63 48)
  | 8 => (items b 0 8 (b.length / 8)).map fun x => (8, bf x 63 57)
  | 9 => (items b 0 24 (b.length / 24)).map fun x => (9, bf x 63 32)
  | 10 => (items b 0 16 (b.length / 16)).map fun x => (10, bf x 63 32 * 4096 + x % 4096)
  | _ => []

/-- A pair that stands twice in a list. -/
def hasDup : List (Nat × Nat) → Bool
  | [] => false
  | x :: r => r.contains x || hasDup r

/-- A sub-block's body: its length against its counts, and the reserved fields and ranges of its own words (R389, R390). -/
def checkSub (t : Nat) (b : List Byte) (o : Nat) : Option Nat :=
  let n := b.length
  let w := leAt b 0 8
  let each (k m : Nat) (f : Nat → Nat → Option Nat) :=
    let z := (n - k) / m
    faults ((List.range m).map fun i => f (leAt b (k + z * i) z) (o + k + z * i))
  match t with
  | 1 => faults [failIf (decide (n < 80) || n != 80 + cdiv (4 * bf (leAt b 8 8) 35 20) 8 * 8) o,
      rng [(35, 20, 1, 16384)] (leAt b 8 8) (o + 8), rsv [(19, 0)] (leAt b 8 8) (o + 8)]
  | 2 => faults [failIf (n % 16 != 0) o, each 0 (n / 16) fun x p => faults [rsv [(63, 8)] x p, rng [(7, 0, 0, 239)] x p]]
  | 3 => faults [failIf (decide (n < 8) || n != 8 + 24 * bf w 27 16) o, rsv [(63, 28), (15, 12)] w o,
      failIf (decide (3840 < w % 4096 + bf w 27 16)) o]
  | 4 => faults [failIf (decide (n < 8) || (n - 8) % 72 != 0) o, rsv [(63, 6)] w o, rng [(5, 0, 0, 47)] w o,
      each 8 ((n - 8) / 72) fun x p => rsv [(63, 10)] x p]
  | 5 => faults [failIf (decide (n < 8) || n != 8 + 32 * bf w 26 16) o, rsv [(63, 27), (15, 12), (7, 4)] w o,
      rng [(26, 16, 0, 1024), (11, 8, 1, 8)] w o]
  | 6 => faults [each 0 (n / 8) fun x p => faults [rsv [(56, 54), (31, 22)] x p, rng [(59, 57, 0, 6)] x p]]
  | 7 => faults [failIf (decide (n < 8) || (n - 8) % 16 != 0) o,
      each 8 ((n - 8) / 16) fun x p => faults [rsv [(47, 26)] x p, rng [(63, 58, 0, 47)] x p]]
  | 8 => each 0 (n / 8) fun x p => rsv [(49, 32)] x p
  | 9 => faults [failIf (n % 24 != 0) o, each 0 (n / 24) fun x p => faults [rsv [(15, 4)] x p, rng [(3, 0, 0, 8)] x p,
      faults ((List.range 8).map fun i => failIf (if i < bf x 3 0 then bf x (64 + 16 * i + 15) (64 + 16 * i + 12) != 0
        else bf x (64 + 16 * i + 15) (64 + 16 * i) != 0) (p + 8 + 2 * i))]]
  | 10 => faults [failIf (n % 16 != 0) o, each 0 (n / 16) fun x p => faults [rsv [(31, 12)] x p,
      rsv [(64 + 47, 64 + 32), (64 + 18, 64 + 16)] x p, rng [(64 + 21, 64 + 20, 0, 2)] x p]]
  | 11 => faults [failIf (decide (n < 8)) o, rsv [(63, 12)] w o]
  | _ => some o

/-- The sub-blocks of one level (R389, R390): their words, bodies and names. -/
def checkLevel (v1 nested : Bool) (b : List Byte) (from_ o : Nat) : Option Nat :=
  match subBlocks b b.length from_ with
  | none => some (o + from_)
  | some l =>
    let one (p : Nat × Nat × List Byte) :=
      let w := leAt b p.2.1 8
      faults [rsv [(55, 32)] w (o + p.2.1), failIf (bf w 31 0 % 8 != 0) (o + p.2.1),
        failIf (decide (p.1 < 1 ∨ 11 < p.1) || (nested && p.1 == 11) || (v1 && decide (5 < p.1))) (o + p.2.1),
        checkSub p.1 p.2.2 (o + p.2.1 + 8)]
    let dup (i : Nat) :=
      let p := nth (0, 0, []) l i
      let mine := claims p.1 p.2.2
      failIf (hasDup mine || (l.take i).any fun q => (claims q.1 q.2.2).any mine.contains) (o + p.2.1)
    faults (l.map one ++ (List.range l.length).map dup)

/-- Model placement (R388 to R390). -/
def checkPlacement (v1 : Bool) (b : List Byte) (o : Nat) : Option Nat :=
  let w := leAt b 0 8
  let inner := ((subBlocks b b.length 8).getD []).filter fun p => p.1 == 11
  faults ([rsv [(15, 0)] w o, rng [(61, 53, 1, 400), (52, 45, 1, 255), (44, 39, 1, 63), (38, 32, 1, 100)] w o,
      checkLevel v1 false b 8 o]
    ++ inner.map fun p => checkLevel v1 true p.2.2 8 (o + p.2.1 + 8))

/-- Ballast points (R392, R431): stage `k`, with the enabled stages below it. -/
def checkStage (c : CfgSt) (o k : Nat) : Option Nat :=
  let w := (nth 0 c.stages k).toNat
  let at_ := o + 8 + 8 * k
  let low := ((List.range k).filter fun j => flag (nth 0 c.stages j) 63).map fun j => (nth 0 c.stages j).toNat
  let en := w.testBit 63
  faults [rsv [(31, 0)] w at_,
    failIf (en && (decide (100 ≤ bf w 62 53) || low.any fun x => decide (bf w 62 53 ≤ bf x 62 53))) (at_ + 6),
    failIf (en && decide (bf w 62 53 < bf w 52 45)) (at_ + 5),
    failIf (en && low.any fun x => decide (bf x 44 37 ≤ bf w 44 37)) (at_ + 4)]

/-- The content of one section (R396, step 3). -/
def checkSec (v1 : Bool) (c : CfgSt) (x : Sec) : Option Nat :=
  let b := x.body
  let o := x.ofs
  let w := leAt b 0 8
  match x.type with
  | 1 => checkClocking c o
  | 2 => checkPorts v1 c o
  | 3 => checkFabric v1 c o
  | 4 => faults [rsv [(50, 0)] w o, rng [(63, 51, 0, if v1 then 1024 else 4096)] w o, checkSlots v1 c (bf w 63 51) o]
  | 5 => checkPlacement v1 b o
  | 6 => faults ((List.range (b.length / 8)).map fun i =>
      let e := leAt b (8 * i) 8
      faults [rsv [(33, 0)] e (o + 8 * i), rng [(35, 34, 0, 2)] e (o + 8 * i),
        failIf (decide (4095 < bf e 63 52 + bf e 51 40)) (o + 8 * i + 5)])
  | 7 => faults ([rsv [(55, 0)] w o, rng [(63, 56, 1, 255)] w o] ++ (List.range 8).map (checkStage c o))
  | 8 => faults ([rsv [(56, 52), (31, 0)] w o, rng [(63, 58, 1, 40), (51, 40, 1, 400), (39, 32, 1, 255)] w o]
      ++ (List.range (b.length / 8 - 1)).map fun i =>
        let e := leAt b (8 + 8 * i) 8
        faults [rsv [(15, 0)] e (o + 8 + 8 * i), failIf (decide (16777215 < bf e 63 40 + bf e 39 16)) (o + 8 + 8 * i + 2)])
  | 9 => faults [rsv [(58, 56), (43, 0)] w o, rng [(55, 44, 1, 4095)] w o]
  | 10 => rsv [(43, 0)] w o
  | 11 => faults ((List.range (b.length / 16)).map fun i =>
      let e := leAt b (16 * i) 16
      faults [rsv [(83, 64), (31, 0)] e (o + 16 * i),
        failIf (!(bf e 102 100 == 0 || bf e 102 100 == 1 || bf e 102 100 == 7)) (o + 16 * i + 12)])
  | _ => rsv [(62, 0)] w o

/-- The first fault in the sections' content: type and offset. -/
def checkAll (v1 : Bool) (c : CfgSt) : List Sec → Option (Nat × Nat)
  | [] => none
  | x :: r => match checkSec v1 c x with | some p => some (x.type, p) | none => checkAll v1 c r

/-- The selected record checked under R396: the configuration in force, or CAUSE, ERR_SECT and ERR_OFS (R403). -/
def checkRecord (slot : Nat) (bs : List Byte) : Except (Nat × Nat × Nat) CfgSt :=
  let h := leAt bs 0 32
  let v1 := hdVersion h == 1
  if 12 < hdNsect h then .error (1, 0, 20)
  else
    match framing v1 bs (hdLength h) (hdNsect h) 4096 0 with
    | .error (t, o) => .error (2, t, o)
    | .ok l =>
      let base : CfgSt := { CfgSt.reset with valid := true, slot := slot, seq := hdSeq h, startRun := v1 || hdStart h,
                                             fmt1 := v1, bcA := v1 }
      let base : CfgSt := if v1 then { base with fabctl := base.fabctl ||| BitVec.ofNat 128 (2 ^ 127) } else base
      let before := l.filter fun x => x.type != 6
      let c := before.foldl (decodeSec v1) base
      match checkAll v1 c l with
      | some (t, o) => .error (3, t, o)
      | none => .ok ((l.filter fun x => x.type == 6).foldl (decodeSec v1) c)

end Sys2Proof.Machine
end

