-- ==== Sys2Proof/Machine/Reels.lean ====
section
/-!
DEFINITION. The reels: their lists, fills, releases, late fills, and what a deadline, a boundary and a list change do to
them (R248 to R258); and the delivery of RESULT messages (R194 to R197).
-/

namespace Sys2Proof.Machine

/-- The processing window of quantum `m` has opened. -/
def State.windowOf (s : State) (m : Nat) : Bool := s.time.opened && decide (m ≤ s.time.window)

/-- A tile runs on its stand-in in this quantum (R177). -/
def State.onStandin (s : State) (arr desc : Nat) : Bool := (s.arr arr).onStandin.contains desc

/-- The run-ahead depth in force: 1 while ballast stage B3 is (R249). -/
def State.depth (s : State) (r : Reel) : Nat := if s.ballast 3 then 1 else r.d

/-- The reel passes its entry; the pass ends with the active entry marked `LAST` (R248). -/
def Reel.advance (r : Reel) : Reel :=
  if (reEn (r.entry r.pos) ∧ reLast (r.entry r.pos)) ∨ 1023 ≤ r.pos then { r with pos := 0, quantum := r.quantum + 1 }
  else { r with pos := r.pos + 1 }

/-- The reel moved to the next entry it fills: inactive and pinned entries are passed, and a conditional one whose tile
is not on its stand-in; it waits at a conditional entry whose window has not opened (R251, R253). None where it waits, or
where the list has no entry to fill. By fuel. -/
def State.reelSeek (s : State) : Nat → Reel → Option Reel
  | 0, _ => none
  | f + 1, r =>
    let e := r.entry r.pos
    if !reEn e || rePin e then s.reelSeek f r.advance
    else if reCond e then
      if !s.windowOf r.quantum then none
      else if s.onStandin (reArr e) (reDesc e) then some r
      else s.reelSeek f r.advance
    else some r

/-! ### Releases (R252) -/

/-- The oldest outstanding entries released while their counters hold enough, in list order; by the list. -/
def releaseRun (r : Reel) : List ReelOut → Tab Nat → List ReelOut × Tab Nat
  | [], c => ([], c)
  | o :: l, c =>
    let e := r.entry o.entry
    let n := tget 0 c (reCtr e)
    if reN e ≤ n then releaseRun r l (tset 0 c (reCtr e) (n - reN e)) else (o :: l, c)

/-- Entries released whenever the oldest outstanding one's counter holds enough (R252). -/
def State.releaseDue (s : State) (reel : Nat) : State :=
  let r := s.reel reel
  let p := releaseRun r r.out r.ctr
  s.setReel reel { r with out := p.1, ctr := p.2 }

/-! ### Starting a fill (R249, R251) -/

/-- The request for the blocks of an entry that a peer's replica holds (R259, R317). -/
def State.askPeer (s : State) (e : BitVec 256) : State :=
  if reSrc e = 1 then s.sendCtrl (rePeer e) 4 (0 :: (List.range (reNsec e)).map (reSector e + ·)) else s

/-- `REEL_FILL_START` (R249): a fill starts while no more than D entries are outstanding, and the engine does not refuse new work
(R23). -/
def execReelFillStart (reel : Nat) (s : State) : Res :=
  inUnit reel 16 (
    let r := s.reel reel
    if !r.active || s.obs.halting || s.draining || decide (s.depth r < r.out.length) then s
    else
      match s.reelSeek 2048 r with
      | none => s
      | some r =>
        let e := r.entry r.pos
        let o : ReelOut := ⟨r.pos, r.quantum, false, false, false, r.late.contains r.pos⟩
        ((s.setReel reel { r.advance with out := r.out ++ [o], late := r.late.filter (· != r.pos) }).traceBegin (176 + reel)
          (r.bank % 2 * 1024 + r.pos) (reSector e)).releaseDue reel |>.askPeer e)

/-! ### Fills (R250, R258, R259, R270) -/

/-- A sector of this engine's store from the peer replica, where the model was installed with one and it answered (R258). -/
def State.fromReplica (s : State) (env : List (Nat × CellEnv)) (l : Nat) : List Byte :=
  let rep := ((env.find? fun p => p.1 == l).map (·.2.replica)).getD []
  if s.hasReplica l ∧ rep.length = 4096 then rep else []

/-- The packed sector `i` of an entry: its 4,096 bytes where it reads, and the reel's counts. From the store; or, for a
peer's sectors and the spill region, from the data that arrived. -/
def State.reelSector (s : State) (e : BitVec 256) (env : List (Nat × CellEnv)) (data : List Byte) (i : Nat) :
    Option (List Byte) × State :=
  let l := reSector e + i
  let part := (data.drop (4096 * i)).take 4096
  match reSrc e with
  | 0 =>
    let rep := s.fromReplica env l
    let (r, s) := s.readFor l (((env.find? fun p => p.1 == l).map (·.2)).getD ⟨[], [], []⟩)
    if r.status = 0 then (some r.data, s) else if rep ≠ [] then (some rep, s) else (none, s)
  | 1 => (if data.length < 4096 * (i + 1) then none else some part, s)
  | 2 => (if data.length < 4096 * (i + 1) then none else some (Config.xtsDecrypt s.sec.spillKey l part), s)
  | _ => (none, s)

/-- A block's counters at the reel (R272). -/
def wpCounts (reel : Nat) (w : WpOut) : List (Nat × Nat) :=
  (kSlice reel 17, 1) :: (if w.bad = 0 then [] else [(kSlice reel (17 + w.bad), 1)])

/-- The models of an entry are marked DEGRADED for a block of tier 5 that does not read (R258, R298). -/
def State.degradeEntry (s : State) (e : BitVec 256) : State :=
  match s.activeEnt (reModel e) with | none => s | some (x, _) => s.degradeEnt x

/-- A sector of an entry treated as an uncorrectable read (R258, R270): one of the store is poisoned, and a sound block of the peer
replica takes its place; the block that does, if one does. -/
def State.reelBad (s : State) (reel : Nat) (e : BitVec 256) (env : List (Nat × CellEnv)) (i : Nat) : Option WpOut × State :=
  let l := reSector e + i
  if reSrc e ≠ 0 then (none, s.degradeEntry e)
  else
    let rep := s.fromReplica env l
    let w := wpDecode rep
    let s := if rep = [] then s else s.counts (wpCounts reel w)
    if rep ≠ [] ∧ w.bad = 0 then (some w, (s.poison l).unreadable l rep) else (none, (s.poison l).unreadable l [])

/-- The blocks of a fill in sector order, `n` of them from number `i` on: the unpacked bytes so far, and the sector that
failed, if one did. What was read for a fill that fails is wasted (R255, R258). -/
def State.reelRun (s : State) (reel : Nat) (e : BitVec 256) (env : List (Nat × CellEnv)) (data : List Byte) :
    Nat → Nat → List Byte → List Byte × Option Nat × State
  | 0, _, out => (out, none, s)
  | n + 1, i, out =>
    let (b, s) := s.reelSector e env data i
    match b with
    | none => (out, some (reSector e + i), (if reSrc e = 0 then s else s.degradeEntry e).count (kSlice reel 15) (4096 * i))
    | some b =>
      let w := wpDecode b
      let s := (s.count (kSlice reel 4) b.length).counts (wpCounts reel w)
      if w.bad = 0 then State.reelRun s reel e env data n (i + 1) (out ++ w.bytes)
      else
        match s.reelBad reel e env i with
        | (some w', s) => State.reelRun (s.count (kSlice reel 4) 4096) reel e env data n (i + 1) (out ++ w'.bytes)
        | (none, s) => (out ++ w.bytes, some (reSector e + i), s.count (kSlice reel 15) (4096 * (i + 1)))

/-- The bytes of a fill written into the loft, its own range only. -/
def State.reelWrite (s : State) (reel : Nat) (e : BitVec 256) (bytes : List Byte) : State :=
  let bs := bytes.take (reUlen e)
  { s with loft.mem := wrBytes s.loft.mem (reLoft e) bs }.count (kSlice reel 5) bs.length

/-- The fill signal of an entry (R250). -/
def State.fillSignal (s : State) (e : BitVec 256) : State := s.syncOp 0 (reSync e) (reFillN e) .unit

/-- A changed list of outstanding entries. -/
def State.setOut (s : State) (reel : Nat) (l : List ReelOut) : State :=
  s.setReel reel { s.reel reel with out := l }

/-- The unpacked bytes of a whole entry, its blocks written as they expand, and the sector of a failed fill. Where the total differs
from `ULEN` the first sector is treated as uncorrectable, and a replica of it is tried (R258; log entry 75). -/
def State.reelFill (s : State) (reel : Nat) (e : BitVec 256) (env : List (Nat × CellEnv)) (data : List Byte) :
    Option Nat × State :=
  let (bytes, bad, s) := s.reelRun reel e env data (reNsec e) 0 []
  match bad with
  | some l => (some l, s.reelWrite reel e bytes)
  | none =>
    if bytes.length = reUlen e then (none, s.reelWrite reel e bytes)
    else
      let first := (wpDecode (s.sectorBytes (reSector e))).bytes.length
      match s.reelBad reel e env 0 with
      | (some w, s) =>
        let bytes := w.bytes ++ bytes.drop first
        let s := s.reelWrite reel e bytes
        if bytes.length = reUlen e then (none, s) else (some (reSector e), s.count (kSlice reel 15) (4096 * reNsec e))
      | (none, s) => (some (reSector e), (s.reelWrite reel e bytes).count (kSlice reel 15) (4096 * reNsec e))

/-- A failed fill is counted and reported (R258). -/
def State.fillFailed (s : State) (reel : Nat) (e : BitVec 256) (l : Nat) : State :=
  (s.count (kSlice reel 16) 1).raise evReelFillFailed [(4, reModel e), (2, reLayer e), (1, rePart e), (4, l)]

/-- The directory places a layer in these sectors of the host spill region: what they hold the engine wrote in this boot (R259,
R293). -/
def State.spillHolds (s : State) (l n : Nat) : Bool :=
  decide (l + n ≤ s.host.spillN) && (List.range n).all fun i =>
    s.nv.dir.any fun p => p.2.layers.any fun y => y.spilled == 2 && y.sectors.contains (l + i)

/-- The source of an entry can be read: a peer by its route, the host's region over the link (R259, R335). -/
def State.sourceUp (s : State) (e : BitVec 256) : Bool :=
  match reSrc e with
  | 1 => (s.routeTo (rePeer e)).isSome && !s.fab.failed.contains (rePeer e)
  | 2 => s.dmaOn && s.spillHolds (reSector e) (reNsec e)
  | _ => true

/-- Cycles for which a late fill goes on stalling without a completion that tells them: they depend on timing and are free (R257; log
entry 3). -/
def State.stallFree (s : State) (reel : Nat) (late : Bool) : State :=
  if late then
    let (n, s) := s.take
    s.counts ((List.range 6).map fun i => (kSlice reel (7 + i), Config.freeCount n i))
  else s

/-- `REEL_FILL_COMPLETE` (R250, R251, R257, R258): the oldest fill's blocks are expanded into the loft; its signal goes,
or is held until its window opens; or the fill fails. -/
def execReelFillComplete (reel : Nat) (env : List (Nat × CellEnv)) (stalls : List Nat) (data : List Byte) (s : State) :
    Res :=
  inUnit reel 16 (
    let r := s.reel reel
    match r.out.find? fun o => !o.filled with
    | none => s
    | some o =>
      let e := r.entry o.entry
      if s.obs.halting || !s.sourceUp e then s
      else
        let (fail, s) := s.reelFill reel e env data
        let s := if o.late then s.counts ((List.range 6).map fun i => (kSlice reel (7 + i), nth 0 stalls i)) else s
        match fail with
        | some l =>
          let s := (s.setOut reel (r.out.map fun x => if x = o then { x with filled := true, failed := true } else x)).fillFailed reel e l
          s.traceCyc (176 + reel) 2 (r.bank % 2 * 1024 + o.entry)
        | none =>
          let now := s.windowOf o.quantum
          let s := s.setOut reel (r.out.map fun x => if x = o then { x with filled := true, signalled := now } else x)
          let s := if now then (s.fillSignal e).count (kSlice reel 3) 1 else s
          s.traceCyc (176 + reel) 1 (r.bank % 2 * 1024 + o.entry))

/-- `REEL_RELEASE` (R252): a release adds to its counter and frees outstanding entries in list order. -/
def execReelRelease (m : Msg) (s : State) : Res :=
  .next (
    if m.type ≠ 3 ∨ !m.toUnit 2 ∨ !s.ready m then s
    else
      let s := s.arrive m
      let k := m.unit
      if m.arg % 16 ≠ 0 ∨ 16 ≤ m.sync then s.count (kRouter (sliceRouter k) 3) 1
      else
        let r := s.reel k
        let c := tset 0 r.ctr (m.sync) (min (tget 0 r.ctr m.sync + m.arg / 16 % 65536) 65535)
        State.releaseDue (s.setReel k { r with ctr := c }) k)

/-! ### Late fills (R257) -/

/-- Positions of the entries of the present pass that the reel has not reached, up to its `LAST` (R248, R254). -/
def Reel.rest (r : Reel) : List Nat :=
  let l := (List.range 1024).drop r.pos
  match l.findIdx? fun i => reEn (r.entry i) && reLast (r.entry i) with
  | some n => l.take (n + 1)
  | none => l

/-- An entry that its reel will fill: active, not pinned, and with its tile on its stand-in where it is conditional. -/
def State.willFill (s : State) (e : BitVec 256) : Bool :=
  reEn e && !rePin e && (!reCond e || s.onStandin (reArr e) (reDesc e))

/-- `REEL_LATE_NOTIFY` (R257): a core waits on a fill that is not signalled; the fill counts as late once, however many cores wait. -/
def execReelLateNotify (reel core : Nat) (s : State) : Res :=
  inUnit (max (4 * reel) core) 64 (
    let r := s.reel reel
    match (s.core core).run with
    | .waitSync obj _ _ =>
      let hit (x : ReelOut) := !x.signalled && reSync (r.entry x.entry) == obj
      match r.out.find? hit with
      | some o => if o.late then s else (s.setOut reel (r.out.map fun x => if x = o then { x with late := true } else x)).count (kSlice reel 6) 1
      | none =>
        match r.rest.find? fun i => s.willFill (r.entry i) && reSync (r.entry i) == obj with
        | some i =>
          if r.late.contains i then s
          else (s.setReel reel { r with late := r.late ++ [i] }).count (kSlice reel 6) 1
        | none => s
    | _ => s)

/-! ### Deadlines, boundaries, cancellation (R253 to R256) -/

/-- What the sectors of an entry meet in a fill of which no command tells it. -/
def State.freeEnv (s : State) (f : Nat) (e : BitVec 256) : List (Nat × CellEnv) :=
  if reSrc e = 0 then (List.range (reNsec e)).map fun j => (reSector e + j, s.freeCells (f + j) (reSector e + j)) else []

/-- The reads of a cancelled fill in progress: it ends at the end of its current block, and sector reads already issued, up to 32
ahead, complete and are dropped. How far it has come depends on timing and is free (R250, R254, R255; log entry 3); so is what
tier 5 returned. The bytes read. -/
def State.partFill (s : State) (reel : Nat) (e : BitVec 256) : Nat × State :=
  let (f, s) := s.take
  let k := Config.freeCount f 0 % (reNsec e + 1)
  let ahead := min (Config.freeCount f 1 % 33) (reNsec e - k)
  let data := if reSrc e = 0 then [] else (List.range (512 * k)).flatMap fun j => leBytes 8 (Config.freeRaw f j).toNat
  let (bytes, bad, s) := s.reelRun reel e (s.freeEnv f e) data k 0 []
  let s := s.reelWrite reel e bytes
  (match bad with | some _ => 4096 * ahead | none => 4096 * (k + ahead), s.count (kSlice reel 4) (4096 * ahead))

/-- Fills cancelled (R255): every byte read for them is wasted. -/
def State.cancelFills (s : State) (reel : Nat) : List ReelOut → State
  | [] => s
  | o :: l =>
    let e := (s.reel reel).entry o.entry
    let (n, s) := if o.filled then (4096 * reNsec e, s) else s.partFill reel e
    let s := (s.stallFree reel o.late).counts [(kSlice reel 14, 1), (kSlice reel 15, n)]
    State.cancelFills (s.traceCyc (176 + reel) 2 ((s.reel reel).bank % 2 * 1024 + o.entry)) reel l

/-- The outstanding fills of a reel that are not signalled, and whose entry meets `p`, are cancelled and their entries freed. -/
def State.cancelWhere (s : State) (reel : Nat) (p : BitVec 256 → Bool) : State :=
  let r := s.reel reel
  let mine := r.out.filter fun o => p (r.entry o.entry) && !o.signalled && !o.failed
  let s := s.cancelFills reel mine
  State.releaseDue (s.setOut reel ((s.reel reel).out.filter fun o => !mine.contains o)) reel

/-- Every fill for a model that is evicted is cancelled (R255, R292). -/
def State.cancelModel (s : State) (m : Nat) : State :=
  (List.range 16).foldl (fun s r => s.cancelWhere r fun e => reModel e == m) s

/-- Every fill of a reel that is not signalled is cancelled (R255). -/
def State.dropFills (s : State) (reel : Nat) : State :=
  s.cancelFills reel ((s.reel reel).out.filter fun o => !o.signalled && !o.failed)

/-- Every fill of a reel that is not signalled is cancelled, and nothing stays outstanding; the reel starts over at its
list's first entry for quantum `q` (R255, R256). -/
def State.reelRestart (s : State) (reel : Nat) (active : Bool) (q : Nat) : State :=
  let s := s.dropFills reel
  s.setReel reel { s.reel reel with out := [], pos := 0, quantum := q, active := active, ctr := [], late := [] }

/-- The deadline of the quantum in process at a reel (R254): a fill of that quantum in progress ends at its block, the entries of
its pass that remain are cancelled, and those outstanding are released. -/
def State.reelDeadline (s : State) (reel : Nat) : State :=
  let m := s.time.window
  let r := s.reel reel
  if !r.active then s
  else
    let s := s.cancelFills reel (r.out.filter fun o => o.quantum == m && !o.filled)
    let forced := (r.out.filter fun o => o.quantum == m && o.filled).length
    let left := if r.quantum = m then (r.rest.filter fun i => s.willFill (r.entry i)) else []
    let s := left.foldl (fun s i => s.stallFree reel (r.late.contains i)) (s.count (kSlice reel 14) left.length)
    let r' := { s.reel reel with out := r.out.filter fun o => o.quantum != m }
    let r' := if r.quantum = m then { r' with pos := 0, quantum := m + 1, late := [] } else r'
    ((s.setReel reel r').count (kSlice reel 13) forced).releaseDue reel

/-- The release counters of a reel cleared at the boundary (R254). -/
def State.reelClear (s : State) (reel : Nat) : State := s.setReel reel { s.reel reel with ctr := [] }

/-- The fill of one pinned entry, as any fill, once its source can be read (R250, R253, R258, R259). What the cells, a peer, the host or
a replica return is free (log entry 75). -/
def State.pinFill (s : State) (reel i : Nat) : State :=
  let e := (s.reel reel).entry i
  if !s.sourceUp e then s
  else
  let (f, s) := s.take
  let s := s.setReel reel { s.reel reel with pinTried := i :: (s.reel reel).pinTried }
  let (fail, s) := s.reelFill reel e (s.freeEnv f e) (if reSrc e = 0 then [] else freeSectors f (reNsec e))
  match fail with
  | some l => s.fillFailed reel e l
  | none => s.setReel reel { s.reel reel with pinned := (s.reel reel).pinned ++ [i] }

/-- Every pinned entry of a reel that has not been filled is filled once (R253). -/
def State.pinFills (s : State) (reel : Nat) : State :=
  let r := s.reel reel
  (r.pins.filter fun i => !r.pinned.contains i && !r.pinTried.contains i).foldl (fun s i => s.pinFill reel i) s

/-- Pinned entries of a list that has changed are filled at the first quantum; the held fill signals of the quantum whose window opens
go out, in list order, and then those of the pinned entries (R251, R253). -/
def State.reelBoundary (s : State) (reel : Nat) : State :=
  let r := s.reel reel
  if !r.active then s
  else
    let s := s.pinFills reel
    let s := s.cancelWhere reel fun e => reCond e && !s.onStandin (reArr e) (reDesc e)
    let r := s.reel reel
    let due := r.out.filter fun o => o.filled && !o.failed && !o.signalled && s.windowOf o.quantum
    let s := s.setOut reel (r.out.map fun o => if due.contains o then { o with signalled := true } else o)
    let s := due.foldl (fun s o => ((s.stallFree reel o.late).fillSignal (r.entry o.entry)).count (kSlice reel 3) 1) s
    r.pinned.foldl (fun s i => s.fillSignal (r.entry i)) s

/-! ### RESULT messages (R64, R194) -/

/-- Exit words of a slot set from sample `k` on (log entry 10). -/
def putInts : Tab Int → Nat → List Int → Tab Int
  | t, _, [] => t
  | t, k, v :: r => putInts (tput t k (some v)) (k + 1) r

/-- `RESULT_DELIVER` (R194 to R197): a RESULT message is written to the core's ring, or to the channel stage, or
discarded: as stale, or, past the deadline, as a late result (R32). The channel stage has no MSG_STALE (R213, R470): a result of a
quantum whose deadline has passed counts in LATE_RESULT there (log entry 74). -/
def execResultDeliver (m : Msg) (s : State) : Res :=
  .next (
    if m.type ≠ 2 ∨ !s.ready m then s
    else if m.toUnit 0 then s.toCore m.unit m
    else if m.remote then s
    else
      let s := s.arrive m
      if m.qtag ≠ s.qindex % 4 then
        (if m.kind = 3 then s.count (kEngine 0) 1 else if m.toUnit 1 then s.count (kArr m.unit 22) 1 else s)
      else if m.kind = 3 then
        if !s.time.windowOpen then s.count (kEngine 0) 1
        else
          let h := leAt m.payload 0 16
          let slot := bf h 127 116
          let x := s.slot slot
          let ws := exitForm s.cfg.bcA m.fmt (bf h 79 64) (m.payload.drop 16)
          let x' : SlotSt := { x with out := putInts x.out (bf h 115 100 + bf h 63 48) (ws.map (·.1)) }
          ((s.setSlot slot x').count (kExit slot) ((ws.filter (·.2)).length)).syncAction m
      else s.syncAction m)

end Sys2Proof.Machine
end

