-- ==== Sys2Proof/Machine/SyncInstr.lean ====
section
/-!
DEFINITION. The sync, task and time instructions (R203 to R208, R236 to R238).
-/

namespace Sys2Proof.Machine

/-- The object a sync instruction acts on (R236). -/
def syncObjOf (c : Core) (o : Ops23) : Nat :=
  if oXR o then (oOBJ o + c.sr (oYSB o)) % 4096 else oOBJ o

/-- The SYNC_OP message by which a core reaches an object's home router (R198). -/
def syncMsg (k q obj op n : Nat) : Msg :=
  mkMsg (localAddr 7 0 0) (localAddr 0 k 0) 3 0 false obj q (n * 16 + op) []

/-- A core's operation on a sync object: the trap on misuse (R204), or the operation on its way and what the core does
then (R236). -/
def State.syncInstr (s : State) (k : Nat) (ops : Ops23) (op n : Nat) (need : Need) (legal : Bool)
    (after : Nat → Option CoreRun) : Res :=
  s.issueT k ops legal need fun s =>
    let c := s.core k
    let obj := syncObjOf c ops
    if s.misfits op obj then s.trap k 5
    else
      let s := s.send (syncMsg k c.qindex obj op n)
      match after obj with
      | some w => s.waitIn k w
      | none => s.retire k ⟨s.core k, []⟩

/-- n = sa[15:0]. -/
def State.syncN (s : State) (k : Nat) (o : Ops23) : Nat := (s.core k).sr (oYSA o) % 65536

/-- `SIG`: SIGNAL n, with n = sa[15:0]. -/
def execISig (core : Nat) (ops : BitVec 23) (s : State) : Res :=
  s.syncInstr core ops 0 (s.syncN core ops) .either (!oSEL ops) fun _ => none

/-- `ARRIVE`: arrives at a barrier and waits for the release. -/
def execIArrive (core : Nat) (ops : BitVec 23) (s : State) : Res :=
  s.syncInstr core ops 1 0 .load (!oSEL ops) fun o => some (.waitSync o 1 0)

/-- `SSET`. -/
def execISset (core : Nat) (ops : BitVec 23) (s : State) : Res :=
  s.syncInstr core ops 2 0 .either (!oSEL ops) fun _ => none

/-- `SCLR`. -/
def execISclr (core : Nat) (ops : BitVec 23) (s : State) : Res :=
  s.syncInstr core ops 3 0 .either (!oSEL ops) fun _ => none

/-- `SWAIT`: WAIT n, with n = sa[15:0]. -/
def execISwait (core : Nat) (ops : BitVec 23) (s : State) : Res :=
  let n := s.syncN core ops
  s.syncInstr core ops 4 n .load (!oSEL ops) fun o => some (.waitSync o 4 n)

/-- `SWAITSET`. -/
def execISwaitset (core : Nat) (ops : BitVec 23) (s : State) : Res :=
  s.syncInstr core ops 5 0 .load (!oSEL ops) fun o => some (.waitSync o 5 0)

/-- `SREAD`: sa ← the count, or the release count if SEL is set. -/
def execISread (core : Nat) (ops : BitVec 23) (s : State) : Res :=
  s.syncInstr core ops 6 0 .either true fun o => some (.waitRead o (oSEL ops) (oYSA ops))

/-- The end of a quantum's program (R207) or, in ready-list mode, of a task (R208). -/
def State.endProgram (s : State) (k : Nat) : State :=
  let c := s.core k
  if s.readyList then s.retireTo k { c with inTask := false } c.dispatch
  else s.retire k ⟨{ c with run := .idle }, []⟩

/-- `QEND`. -/
def execIQend (core : Nat) (ops : BitVec 23) (s : State) : Res :=
  s.issueT core ops (decide (ops = 0)) .either fun s => s.endProgram core

/-- `TEND`. -/
def execITend (core : Nat) (ops : BitVec 23) (s : State) : Res :=
  s.issueT core ops (decide (ops = 0)) .either fun s => s.endProgram core

/-- `TAKE`: takes a task from the queues in QMASK, or waits for one. -/
def execITake (core : Nat) (ops : BitVec 23) (s : State) : Res :=
  s.issueT core ops (decide (ops = 0)) .load fun s =>
    match s.nextTask core with
    | some (w, s') => (s'.startTask core w).count (kCore core 0) 1
    | none => s.waitIn core .waitTake

/-! ### Time (R41, R238) -/

/-- `TNOW`: pair ← TSTAMP. -/
def execITnow (core : Nat) (ops : BitVec 23) (s : State) : Res :=
  s.issueT core ops (decide (fld ops 17 0 = 0) && decide (oSD ops % 2 = 0)) .either fun s =>
    s.retire core ⟨(s.core core).setPair (oSD ops) s.tstamp, []⟩

/-- A wait for an instant: one that has passed completes at once (R41). -/
def State.waitTs (s : State) (k ts : Nat) : State :=
  if ts ≤ s.tstamp then s.retire k ⟨s.core k, []⟩ else s.waitIn k (.waitTime ts)

/-- `TWAIT`: waits until TSTAMP ≥ the pair. -/
def execITwait (core : Nat) (ops : BitVec 23) (s : State) : Res :=
  s.issueT core ops (decide (fld ops 17 0 = 0) && decide (oSD ops % 2 = 0)) .load fun s =>
    s.waitTs core ((s.core core).pair (oSD ops))

/-- `TWAITQ`: waits until sample b + PHASE, tick TICK, where b opened the current processing window. -/
def execITwaitq (core : Nat) (ops : BitVec 23) (s : State) : Res :=
  s.issueT core ops (decide (fld ops 3 0 = 0)) .load fun s =>
    s.waitTs core (packTs ((s.time.window + 1) * s.q + fld ops 22 16) (fld ops 15 4))

/-- `TDLINE`: loads the pair as the core's deadline; 0 disarms it. -/
def execITdline (core : Nat) (ops : BitVec 23) (s : State) : Res :=
  s.issueT core ops (decide (fld ops 17 0 = 0) && decide (oSD ops % 2 = 0)) .either fun s =>
    let c := s.core core
    let v := c.pair (oSD ops)
    s.retire core ⟨{ c with deadline := if v = 0 then none else some v }, []⟩

end Sys2Proof.Machine
end

