-- ==== Sys2Proof/Machine/Place.lean ====
section
/-!
DEFINITION. The placement: what its sub-blocks load, and the placement check of boot step 11 (R38, R58, R96, R105, R140,
R147, R199 to R207, R247, R248, R260, R288, R322, R388 to R390).
-/

namespace Sys2Proof.Machine

/-! ### Models and manifests (R277, R278, R286) -/

/-- Number and entry of a generation. -/
def State.entOf (s : State) (m g : Nat) : Option (Nat × DirEnt) := s.nv.dir.find? fun p => p.2.model == m && p.2.gen == g

/-- The masks of `MCOMPAT` (R277). -/
def meFs (e : DirEnt) : Nat := bf (leAt e.mhdr 8 8) 63 58
def meQ (e : DirEnt) : Nat := bf (leAt e.mhdr 8 8) 57 53
def meBc (e : DirEnt) : Nat := if e.legacy then 1 else bf (leAt e.mhdr 8 8) 52 51

/-- A layer's entry in a manifest. -/
def layerOf (e : DirEnt) (i : Nat) : List Byte := ((e.layers[i]?).map (·.entry)).getD []

/-- The plane of an array that holds what the placement puts on plane `p` for a model: a switch may have moved it (R295). -/
def State.heldAs (s : State) (a p m : Nat) : Option (Nat × Nat × Nat × Nat) :=
  s.nv.holds.find? fun h => h.1 / 16 == a && h.2.2.2 == p && h.2.1 == m && tget 0 s.nv.alloc h.1 != 1

/-- A descriptor on another plane of its array. -/
def onPlane (p : Nat) (l : List DWord) : List DWord :=
  put l 1 (BitVec.ofNat 64 (p % 16 * 2 ^ 60 + fld (ldW l 1) 59 0))

/-- A descriptor's words with what the manifest gives: `QCTL`, or its override; scales, formats, activation and base range
codes. The placement keeps the bias entry, the table slot and the geometry (R107, R278, R294; log entry 23). -/
def withManifest (ovr : Option DWord) (e : List Byte) (l : List DWord) : List DWord :=
  let q := ovr.getD (BitVec.ofNat 64 (leAt e 8 8))
  let sc := leAt e 16 8 - bf (leAt e 16 8) 31 16 * 2 ^ 16 + lsBias l * 2 ^ 16
  let act := leAt e 24 8
  let act := if bf act 63 60 = 7 then act - bf act 59 52 * 2 ^ 52 + laParam l * 2 ^ 52 else act
  let rg := leAt e 32 8
  let cv := (ldW l 2).toNat
  let cv := cv - bf cv 45 40 * 2 ^ 40 + bf rg 63 61 * 2 ^ 43 + bf rg 60 58 * 2 ^ 40
  [q, ldW l 1, BitVec.ofNat 64 cv, BitVec.ofNat 64 sc, BitVec.ofNat 64 act, ldW l 5, ldW l 6, ldW l 7]

/-- The auxiliary bytes of a layer: its bias entries and its activation table (R278). -/
def State.auxBytes (s : State) (e : DirEnt) (layer : Nat) : List Byte :=
  match e.layers[layer]? with
  | none => []
  | some r =>
    (((if r.spilled = 0 then r.sectors.map s.sectorBytes else Config.tier5 r.entry r.digest).drop (lyWn r.entry)).take
      (lyAn r.entry)).flatMap fun b => (wpDecode b).bytes

/-- A layer's table in each flank that holds a descriptor of it, and its bias entries in the one that holds its single or joining
descriptor (R140, R147); the control complex counts the blocks that it decodes (R272), and a poisoned one that has no replica leaves
what was there and degrades the generation, entry `x` (R270, R298). -/
def State.loadAux (s : State) (a : Nat) (l : List DWord) (x : Nat) (e : DirEnt) : State :=
  let (ok, s) := if lcRole l = 1 ∧ laFn l ≠ 7 then (false, s) else s.checkAux x e (lcLayer l)
  if !ok then s
  else
    let ly := layerOf e (lcLayer l)
    let b := s.auxBytes e (lcLayer l)
    let nb := if lsBiasEn l then lyC ly else 0
    let x := s.arr a
    let bias := (List.range (if lcRole l = 1 then 0 else nb)).foldl
      (fun t c => tset 0 t (lsBias l + c) (sx 32 (leAt b (4 * c) 4))) x.bias
    let tabs := if laFn l = 7 then
      tput x.tables (laParam l) (some ((items b (4 * nb) 4 1024).map (BitVec.ofNat 32))) else x.tables
    s.setArr a { x with bias := bias, tables := tabs }

/-- A descriptor loaded into a flank with what the active generation's manifest gives it; on an array that does not serve, its tile
runs on its stand-in if it has one (R177). Where neither the manifest nor an override
gives `QCTL`, it takes its Reset values (R107, R141). -/
def State.loadDesc (s : State) (ovr : List (Nat × Nat × DWord)) (p : Nat × Nat × List DWord) : State :=
  let (a, d, l) := p
  let m := s.imgModel a d
  let s := s.setArr a { s.arr a with models := tput (s.arr a).models d (some m) }
  let l := match s.heldAs a (lgPlane l) m with | some h => onPlane (h.1 % 16) l | none => l
  let x := s.arr a
  let s := if lpStandin l && !x.serves then s.setArr a { x with onStandin := dedupN (x.onStandin ++ [d]) } else s
  let o := (ovr.find? fun x => x.1 == m && x.2.1 == lcLayer l).map (·.2.2)
  match s.activeEnt m with
  | some (y, e) =>
    let l' := if layerOf e (lcLayer l) = [] then put l 0 (o.getD (qctlReset (lcLayer l)))
      else withManifest o (layerOf e (lcLayer l)) l
    (s.setArr a { s.arr a with descs := tput (s.arr a).descs d (some l') }).loadAux a l' y e
  | none => s.setArr a { s.arr a with descs := tput (s.arr a).descs d (some (put l 0 (o.getD (qctlReset (lcLayer l))))) }

/-! ### Loading (R38, R140, R187, R199, R248, R389) -/

/-- A core program loaded into its cores, which are halted (R187, R207); an excluded core receives none (R461). -/
def State.loadProg (s : State) (p : CoreProg) : State :=
  let im : Tab Word := ((List.range p.code.length).zip p.code).foldl (fun t x => tset 0 t x.1 (BitVec.ofNat 32 x.2)) []
  (p.cores.filter fun k => !s.excl k).foldl (fun s k =>
    s.setCore k { s.core k with imem := im, entry := p.entry, dispatch := p.dispatch, hasProg := true, run := .halted,
                                inTask := false }) s

/-- A reel's list written to both banks: fills of the list that it replaces are cancelled (R255); an excluded slice is not used
(R461). -/
def State.loadReel (s : State) (p : Nat × Nat × List (BitVec 256)) : State :=
  if s.excl (112 + p.1) then s
  else
  let t (k : Nat) (t : Tab (BitVec 256)) := ((List.range p.2.2.length).zip p.2.2).foldl (fun t x => tset 0 t (1024 * k + x.1) x.2) t
  let s := s.dropFills p.1
  s.setReel p.1 { s.reel p.1 with list := t 1 (t 0 []), d := p.2.1, pos := 0, out := [], pinned := [], pinTried := [], ctr := [] }

/-- A sync object takes its record and its initial value (R199), unless a standby serves its part (R324). -/
def State.loadSync (s : State) (p : Nat × List DWord) : State :=
  let o : SyncObj := { SyncObj.reset with w0 := nth 0 p.2 0, w1 := nth 0 p.2 1, w2 := nth 0 p.2 2 }
  if s.servedElsewhere 7 (p.1 / 64) then s else s.setObj p.1 { o with count := o.init }

/-- The sub-blocks of a placement loaded into the units they name. -/
def State.loadSubs (s : State) (l : Subs) : State :=
  let s := l.progs.foldl State.loadProg s
  let s : State := { s with time.sched := l.sched.foldl (fun t p => tset 0 t p.1 p.2) s.time.sched,
                            loft.regions := s.loft.regions ++ l.regions }
  let s := l.syncs.foldl State.loadSync s
  let s := l.descs.foldl (fun s p => s.loadDesc l.qctl p) s
  l.reels.foldl State.loadReel s

/-- A placement's parts taken out of service again (R255, R324); its descriptors stay in the flanks, as dormant ones. -/
def State.unloadSubs (s : State) (l : Subs) : State :=
  let s := (l.progs.flatMap (·.cores)).foldl (fun s k => s.setCore k { s.core k with hasProg := false, run := .halted }) s
  let s : State := { s with time.sched := l.sched.foldl (fun t p => tdel t p.1) s.time.sched }
  let s := l.syncs.foldl (fun s p => s.setObj p.1 .reset) s
  l.reels.foldl (fun s p =>
    let s := s.dropFills p.1
    s.setReel p.1 { s.reel p.1 with list := [], out := [], pinned := [], pinTried := [] }) s

/-! ### The placement check -/

/-- A schedule entry that may stand, by the kinds of the sync objects (R8, R37, R38). -/
def State.schedOk (s : State) (kindOf : Nat → Nat) (p : Nat × DWord) : Bool :=
  let e := p.2
  let k := kindOf (seSync e)
  (rsv [(62, 56), (31, 19)] e.toNat 0).isNone
    && (!seEn e || (decide (sePhase e < s.q) && decide (seSync e < 3840)
      && (match seAction e with | 0 => k == 1 || k == 3 | 1 => k == 3 | 2 => k == 2 | _ => false)))

/-- A sync object that may stand (R199, R201, R205). -/
def syncOk (p : Nat × List DWord) : Bool :=
  let w0 := (nth 0 p.2 0).toNat
  let w1 := (nth 0 p.2 1).toNat
  let k := bf w0 63 62
  bf w0 55 32 == 0 && bf w1 31 0 == 0 && bf (nth 0 p.2 2).toNat 38 32 == 0
    && (match k with
      | 1 => !w0.testBit 60 || bf w1 63 32 != 0
      | 2 => bf w1 63 32 != 0 && bf w0 31 0 == 0
      | 3 => decide (bf w0 31 0 ≤ 1)
      | _ => true)

/-- The reserved fields and values of a descriptor (R8, R107, R142 to R146, R167, R175). -/
def descFields (l : List DWord) : Bool :=
  let w (i : Nat) := (ldW l i).toNat
  (faults [rsv [(47, 32), (18, 16)] (w 0) 0, rng [(21, 20, 0, 2)] (w 0) 0, rsv [(5, 0)] (w 1) 0, rng [(59, 57, 0, 5)] (w 1) 0,
    rsv [(30, 30), (3, 0)] (w 2) 0, rng [(63, 62, 0, 2), (61, 56, 0, 47), (55, 46, 0, 767)] (w 2) 0, rsv [(12, 0)] (w 3) 0,
    rng [(15, 14, 0, 2)] (w 3) 0, rsv [(31, 0)] (w 4) 0, rng [(63, 60, 0, 7), (37, 36, 0, 2)] (w 4) 0, rsv [(18, 0)] (w 5) 0,
    rsv [(27, 16)] (w 6) 0, rsv [(34, 0)] (w 7) 0, rng [(54, 48, 1, 127)] (w 7) 0]).isNone

/-- A logical column lies on a working primary column or a mapped spare (R147). -/
def Arr.colWorks (x : Arr) (plane c : Nat) : Bool := (x.spareOf plane c).isSome || fld (x.colEntry plane c) 2 0 != 3

/-- A loaded descriptor meets R147. -/
def State.descOk (s : State) (a d : Nat) (l : List DWord) : Bool :=
  let x := s.arr a
  let n := lgFold l * lgC l
  let jq := s.quantDesc a d l
  descFields l && decide (lgRow l + cdiv (lgK l) (lgFold l) ≤ 2048) && decide (n ≤ 2048) && decide (lgCol l + n ≤ 2048)
    && (List.range n).all (fun i => x.colWorks (lgPlane l) (lgCol l + i))
    && (lcRole l != 1 || (s.arr (lcJoin l)).descs.any fun p =>
      lcRole p.2 == 2 && lcLayer p.2 == lcLayer l && s.descModel (lcJoin l) p.1 == s.descModel a d)
    && (laFn l != 6 || decide (1 ≤ laParam l ∧ laParam l ≤ 15)) && (laFn l != 7 || (decide (laParam l ≤ 15) && (tfind x.tables (laParam l)).isSome))
    && decide (-16 ≤ laExp l ∧ laExp l ≤ 15) && decide (-31 ≤ laOut l ∧ laOut l ≤ 1)
    && (!qcExact l || lcLayer l == 0) && (laPool l == 0 || fld (ldW l 4) 34 32 != 0) && (!leEn l || leLearn l != 0)
    && decide (lsBias l + s.layerCols (s.tiles jq.1 jq.2) ≤ 65536)

/-- A reel entry meets R248; its reserved fields are zero, whether it is active or not (R8). -/
def State.entryOk (s : State) (reel : Nat) (e : BitVec 256) : Bool :=
  let a := reLoft e
  (rsv [(11, 0), (64 + 11, 64), (128 + 13, 128), (192 + 15, 192)] e.toNat 0).isNone && (!reEn e ||
    ((faults [rng [(59, 58, 0, 2), (27, 22, 0, 47), (64 + 39, 64 + 24, 1, 65535), (128 + 37, 128 + 14, 1, 4128768)] e.toNat 0]).isNone
      && (rePin e || (reN e != 0 && reFillN e != 0)) && bf a 25 22 == reel
      && s.loft.regions.any fun w => rgSlice w == reel && decide (rgKind w ≤ 2) && decide (rgOfs w ≤ a % 2 ^ 22)
        && decide (a % 2 ^ 22 + reUlen e ≤ rgOfs w + rgLen w)))

/-- The entries of a pass, up to the one marked `LAST`; none where no entry is. -/
def passOf (l : List (BitVec 256)) : Option (List (BitVec 256)) :=
  match l.findIdx? fun e => reEn e && reLast e with | some i => some (l.take (i + 1)) | none => none

/-- Two ranges of bytes share a byte. -/
def overlap (a n b m : Nat) : Bool := decide (a < b + m ∧ b < a + n)

/-- Packed bytes of a pass that count against the budget (R260). -/
def passBytes (l : List (BitVec 256)) : Nat :=
  4096 * sumN ((l.filter fun e => reEn e && !rePin e && !reCond e).map reNsec)

/-- A reel's list meets R248 and its share of R260. -/
def State.reelOk (s : State) (p : Nat × Nat × List (BitVec 256)) : Bool :=
  match passOf p.2.2 with
  | none => false
  | some l =>
    let n := l.length
    let near (i j : Nat) := decide (j - i ≤ p.2.1 ∨ n - (j - i) ≤ p.2.1)
    let e (i : Nat) := nth 0 l i
    p.2.2.all (s.entryOk p.1)
      && (List.range n).all (fun j => (List.range j).all fun i =>
        !(reEn (e i) && reEn (e j) && near i j && overlap (reLoft (e i)) (reUlen (e i)) (reLoft (e j)) (reUlen (e j))))
      && decide (passBytes l * rateHz s.time.rate ≤ 16000000000 * s.q)

/-- The loft regions do not overlap and stay below the control complex's range (R247); the trace ring has its size
(R394). -/
def State.regionsOk (s : State) : Bool :=
  let l := s.loft.regions
  let g (i : Nat) := nth 0 l i
  l.all (fun w => decide (rgOfs w + rgLen w ≤ 0x3F0000))
    && (List.range l.length).all (fun j => (List.range j).all fun i =>
      !(rgSlice (g i) == rgSlice (g j) && overlap (rgOfs (g i)) (rgLen (g i)) (rgOfs (g j)) (rgLen (g j))))
    && (!flag s.cfg.trace 63 || flag s.cfg.trace 62
      || sumN ((l.filter fun w => rgKind w == 5).map rgLen) == (fld s.cfg.trace 61 59 + 1) * 2 ^ 20)

/-- A generation's manifest and the placement of its model agree (R288). -/
def State.modelFits (s : State) (l : Subs) (e : DirEnt) : Bool :=
  let m := e.model
  let ds := s.arrs.flatMap fun p => (p.2.descs.filter fun q => s.descModel p.1 q.1 == m).map fun q => (p.1, q)
  let tileOk (p : Nat × Nat × List DWord) :=
    let ly := layerOf e (lcLayer p.2.2)
    let ts := s.tiles p.1 p.2.1
    ly != [] && lyExec ly != 1
      && (lcRole p.2.2 == 1 || (s.layerRows ts (nth (0, 0) ts 0) == lyK ly && s.layerCols ts == lyC ly))
  let onCores := (l.reels.flatMap (·.2.2)).filter fun x => reEn x && !reCond x && reModel x == m
  (meFs e).testBit s.time.rate && (meQ e).testBit s.time.quantum && (meBc e).testBit (if s.cfg.bcA then 0 else 1)
    && ds.all tileOk && onCores.all fun x => lyExec (layerOf e (reLayer x)) != 0

/-- A model's placement agrees with the manifest of its active generation; one that has none, or whose copy is gone or unreadable, does
not fail the check (R288). -/
def State.modelOk (s : State) (l : Subs) (m : Nat) : Bool :=
  match s.activeEnt m with
  | none => true
  | some (_, e) => e.st == 5 || e.st == 6 || s.modelFits l e

/-- No plane holds tiles of two models, in the placement in force or between it and a dormant one (R288, R289). -/
def State.planesOk (s : State) (l : Subs) : Bool :=
  let dormant := ((l.of 11).map fun b => leAt b 0 8 % 4096).flatMap fun f => (l.dormant f).descs
  let all := (l.descs ++ dormant).map fun p => (16 * p.1 + lgPlane p.2.2, s.imgModel p.1 p.2.1)
  all.all fun p => all.all fun q => !(p.1 == q.1 && p.2 != q.2)

/-- A standby's dormant placement names the endpoints that the plan's entries give it (R322). -/
def State.dormantOk (s : State) (l : Subs) : Bool :=
  let mine := s.cfg.remap.filter fun e => rmValid e && rmStandby e == s.dev
  (dedupN (mine.map rmFailed)).all fun f =>
    let d := l.dormant f
    let names := (d.progs.flatMap (·.cores)).map (fun k => (0, k)) ++ (dedupN (d.descs.map (·.1))).map (fun a => (1, a))
      ++ (dedupN (d.syncs.map fun o => o.1 / 64)).map fun r => (7, r)
    let es := mine.filter fun e => rmFailed e == f
    let inPlan (x : Nat × Nat) := es.any fun e => rmKind e == x.1 && decide (rmLo e ≤ x.2 ∧ x.2 ≤ rmHi e)
    names.all inPlan && es.all fun e =>
      (List.range (rmHi e + 1 - rmLo e)).all fun i => names.contains (rmKind e, rmLo e + i)

/-- History pairs of a flank: its quantising descriptors with the slots whose chains have their models (R105). -/
def State.historyPairs (s : State) (a : Nat) : Nat :=
  sumN (((s.arr a).descs.filter fun p => lcRole p.2 != 1).map fun p =>
    (s.cfg.slots.filter fun q => slEn q.2 && (slModels q.2).contains (s.descModel a p.1)).length)

/-- The models that a placement holds: those of its model list, its core programs, its reel lists and its descriptors (R58, R389,
R397). -/
def State.heldModels (s : State) (l : Subs) : List Nat :=
  (s.modelList.map mlModel ++ l.progs.flatMap (·.models) ++ (l.reels.flatMap fun p => (p.2.2.filter reEn).map reModel)
    ++ l.descs.map fun p => s.imgModel p.1 p.2.1).filter (· != 0)

/-- The models that the placement and its dormant placements name (R288, R323). -/
def State.namedModels (s : State) (l : Subs) : List Nat :=
  let dormant := ((l.of 11).map fun b => leAt b 0 8 % 4096).flatMap fun f => s.heldModels (l.dormant f)
  dedupN (s.heldModels l ++ dormant ++ (s.allLists.map mlModel).filter (· != 0))

/-- The engines that the placement, its dormant placements or the re-map plan name as peers of this engine for a model (R96). -/
def State.namedPeers (s : State) (l : Subs) : List Nat :=
  let held := s.namedModels l
  s.allLists.flatMap mlPeers
    ++ (s.cfg.remap.filter fun e => rmValid e && held.contains (rmModel e)).flatMap fun e => [rmFailed e, rmStandby e]

/-- No neighbour of the other behaviour class is a peer for a model. A neighbour's class is the only one that the engine is told
(R96, R308; log entry 66). -/
def State.classOk (s : State) (l : Subs) : Bool :=
  (List.range 8).all fun p => !(s.tpUp p && (s.port_ p).bcA != s.cfg.bcA
    && match s.portAddr p with | some a => (s.namedPeers l).contains a | none => false)

/-- The records of a dormant placement meet the rules of their fields (R8, R38, R104, R107, R199, R248, R322). -/
def State.dormantFields (s : State) (f : Nat) : Bool :=
  let d := s.placement.dormant f
  let kindOf (i : Nat) : Nat := match d.syncs.find? fun p => p.1 == i with
    | some p => fld (nth 0 p.2 0) 63 62
    | none => (s.obj i).kind
  let u : State := { s with loft.regions := s.loft.regions ++ d.regions }
  d.sched.all (s.schedOk kindOf) && d.syncs.all syncOk && d.descs.all (fun p => descFields p.2.2) && d.reels.all u.reelOk
    && d.qctl.all fun o => descFields (put descReset 0 o.2.2) && (!qcExact [o.2.2] || o.2.1 == 0)

/-- The placement check on a state that has the placement loaded. The chains checked are those of the active slots (log entry
62). -/
def State.placementOk (s : State) : Bool :=
  let l := s.placement
  let held := s.heldModels l
  let passes := l.reels.filterMap fun p => passOf p.2.2
  s.lc != 4 && !s.fab.conflict && !s.fab.tooLong
    && l.sched.all (s.schedOk fun i => (s.obj i).kind) && l.syncs.all syncOk
    && s.arrs.all (fun p => p.2.descs.all fun q => s.descOk p.1 q.1 q.2)
    && (s.cfg.slots.filter fun p => slEn p.2).all (fun p => (slModels p.2).all held.contains)
    && s.classOk l && ((l.of 11).map fun b => leAt b 0 8 % 4096).all s.dormantFields
    && s.arrs.all (fun p => decide (s.historyPairs p.1 ≤ 16384))
    && (s.isCascade || s.readyList || decide (s.watch.length ≤ 3))
    && s.regionsOk && l.reels.all s.reelOk
    && decide (sumN (passes.map passBytes) * rateHz s.time.rate ≤ 144000000000 * s.q)
    && held.all (s.modelOk l) && s.planesOk l && s.dormantOk l

end Sys2Proof.Machine
end

