-- ==== Sys2Proof/Machine/Package.lean ====
section
/-!
DEFINITION. Packages and the space they take: the package's layout and checks, content keys, the allocation of store
sectors, sharing, and eviction (R273 to R293).
-/

namespace Sys2Proof.Machine

/-! ### The package (R275 to R281) -/

/-- A package that passes step 1 of R282, taken apart. -/
structure Pkg where
  v1 : Bool
  model : Nat
  gen : Nat
  wrap : Nat
  signed : Bool
  /-- Bytes 0 to 63 + `MLEN`, which the signature covers. -/
  cover : List Byte
  sig : List Byte
  keyBlock : List Byte
  mhdr : List Byte
  entries : List (List Byte)
  payload : List Byte
deriving DecidableEq, Repr

/-- First payload sector of a layer (R278). -/
def lySec0 (e : List Byte) : Nat := bf (leAt e 40 8) 63 40

/-- Sectors of a layer. -/
def lySecs (e : List Byte) : Nat := lyWn e + lyAn e

/-- Where the payload starts (R275, R281). -/
def pkgPayloadAt (v1 signed : Bool) (mlen : Nat) : Nat :=
  cdiv (if !v1 then 1152 + mlen else if signed then 576 + mlen else 64 + mlen) 4096 * 4096

/-- The fields of a layer entry are in range (R107, R144, R145, R278). -/
def layerEntryOk (v1 : Bool) (nsec i : Nat) (e : List Byte) : Bool :=
  let w (o : Nat) := leAt e o 8
  (faults [rsv [(3, 0)] (w 0) 0, rng [(63, 52, i, i), (51, 50, 0, 2), (49, 47, 0, 3), (46, 44, 0, 2)] (w 0) 0,
      rsv [(47, 32), (18, 16)] (w 8) 0, rng [(21, 20, 0, 2)] (w 8) 0,
      rsv [(31, 16), (12, 0)] (w 16) 0, rng [(15, 14, 0, 2)] (w 16) 0,
      rsv [(31, 0)] (w 24) 0, rng [(63, 60, 0, 7), (37, 36, 0, 2)] (w 24) 0,
      rsv [(57, 0)] (w 32) 0, rsv [(11, 0)] (w 40) 0, rng [(39, 24, 1, 65535)] (w 40) 0, rsv [(63, 0)] (w 48) 0,
      if v1 then rsv [(63, 32)] (w 56) 0 else rsv [(63, 0)] (w 56) 0]).isNone
    && decide (lySec0 e + lySecs e ≤ nsec)

/-- No two ranges of a list meet. -/
def disjoint : List (Nat × Nat) → Bool
  | [] => true
  | p :: r => r.all (fun q => decide (p.1 + p.2 ≤ q.1 ∨ q.1 + q.2 ≤ p.1)) && disjoint r

/-- Step 1 of R282: the header and the manifest, every field under R8. -/
def pkgRead (b : List Byte) : Option Pkg :=
  let w (o : Nat) := leAt b o 8
  let ver := bf (w 0) 47 32
  let v1 := ver == 1
  let signed := (w 0).testBit 48
  let wrap := bf (w 0) 50 49
  let mlen := bf (w 16) 63 32
  let nsec := bf (w 16) 31 0
  let esz := if v1 then 64 else 128
  let n := (mlen - 64) / esz
  let mh := (b.drop 64).take 64
  let es := (List.range n).map fun i => fit 0 64 ((b.drop (128 + esz * i)).take 64)
  let digests := (List.range n).map fun i => (b.drop (192 + esz * i)).take 64
  let at_ := pkgPayloadAt v1 signed mlen
  let kb := (b.drop (576 + mlen)).take 576
  let ok :=
    bf (w 0) 31 0 == 0x50534249 && (ver == 1 || ver == 2) && bf (w 0) 63 51 == 0
      && (if v1 then wrap == 0 else signed && (wrap == 1 || wrap == 2))
      && bf (w 8) 15 0 == 0 && bf (w 8) 63 32 != 0
      && (List.range 5).all (fun i => w (24 + 8 * i) == 0)
      && mlen == 64 + esz * n && decide (1 ≤ n ∧ n ≤ 4096) && decide (1 ≤ nsec ∧ nsec ≤ 16777215)
      && b.length == at_ + 4096 * nsec
      && leAt mh 0 8 == bf (w 8) 63 16 * 2 ^ 16 + (n - 1) * 16 && bf (leAt mh 8 8) 50 0 == 0
      && (List.range n).all (fun i => layerEntryOk v1 nsec i (nth [] es i))
      && disjoint (es.map fun e => (lySec0 e, lySecs e))
      && (v1 || zeros kb 520 56)
  if ok then
    some { v1 := v1, model := bf (w 8) 63 32, gen := bf (w 8) 31 16, wrap := wrap, signed := signed,
           cover := b.take (64 + mlen), sig := (b.drop (64 + mlen)).take 512, keyBlock := kb, mhdr := mh,
           entries := (List.range n).map fun i => nth [] es i ++ (if v1 then [] else nth [] digests i),
           payload := b.drop at_ }
  else none

/-- Policy bits of the configuration (R393). -/
def State.legacyPkg (s : State) : Bool := flag s.cfg.policy 63
def State.legacyUnsigned (s : State) : Bool := flag s.cfg.policy 62
def State.allowRollback (s : State) : Bool := flag s.cfg.policy 61
def State.peerCmd (s : State) : Bool := flag s.cfg.policy 59

/-- A version 1 package is admitted (R281, R442). -/
def State.legacyOk (s : State) (p : Pkg) : Bool :=
  !p.v1 || (s.legacyPkg && (p.signed || (s.legacyUnsigned && (s.lc == 1 || s.lc == 3))))

/-! ### Content keys (R280, R434, R435) -/

/-- The KEK: derived from the device secret, while the engine holds it (R435). -/
def State.kek (s : State) : Option (List Byte) :=
  if s.sec.kek then
    some ((Config.hmac512 (s.otpBytes 0xA00 32) ([0x4A, 0x46, 0x39, 0x36, 0x30, 0x2D, 0x4B, 0x45, 0x4B])).take 32)
  else none

/-- The device key pair: its private part and its modulus (R434, R435). -/
def State.devicePriv (s : State) : List Byte := s.otpBytes 0x500 1280
def State.deviceMod (s : State) : List Byte := s.otpBytes 0xB00 512

/-- The private part of a group entry, opened under the KEK (R438). -/
def State.groupPriv (s : State) (e : List Byte) : Option (List Byte) :=
  match s.kek with
  | none => none
  | some k => Config.gcmOpen k ((e.drop 520).take 16) ((e.drop 536).take 1296)

/-- The content key of a version 2 package (R280, R442): none where no admitted key has its `KEY_ID` or the unwrap fails. -/
def State.contentKey (s : State) (p : Pkg) : Option (List Byte) :=
  let id := p.keyBlock.take 8
  let wrapped := (p.keyBlock.drop 8).take 512
  let priv :=
    if p.wrap = 1 then if (keyDigest s.deviceMod).take 8 = id then some s.devicePriv else none
    else if s.lc = 2 ∨ s.lc = 3 then
      match s.nv.keys.groups.find? fun e => (keyDigest (keMod e)).take 8 == id with
      | some e => s.groupPriv e
      | none => none
    else none
  match priv with
  | none => none
  | some k => Config.oaepUnwrap k wrapped

/-- The plain payload sectors of a layer. -/
def Pkg.layerSectors (p : Pkg) (key : List Byte) (e : List Byte) : List (List Byte) :=
  (List.range (lySecs e)).map fun i =>
    let k := lySec0 e + i
    let c := (p.payload.drop (4096 * k)).take 4096
    if p.v1 then c else Config.xtsDecrypt key k c

/-- A layer's own check value: the SHA-512 of its sectors, or in version 1 their CRC-32C (R278, R281). -/
def Pkg.digestOk (p : Pkg) (e : List Byte) (l : List (List Byte)) : Bool :=
  if p.v1 then crc32c l.flatten == leAt e 56 4 else Config.sha512 l.flatten == e.drop 64

/-- The bytes of the auxiliary sectors that the manifest calls for (R278, R282). -/
def auxLen (e : List Byte) : Nat :=
  (if (leAt e 16 8).testBit 13 then 4 * lyC e else 0) + (if bf (leAt e 24 8) 63 60 = 7 then 4096 else 0)

/-- Element width code of a WP block. -/
def wpEw (b : List Byte) : Nat := bf (leAt b 0 8) 43 42

/-- A layer's blocks as step 5 of R282 judges them: 0 sound, 0x17 poisoned, 0x10 of another size than the manifest's. -/
def layerBlocks (e : List Byte) (l : List (List Byte)) : Nat :=
  let ws := l.take (lyWn e)
  let as_ := l.drop (lyWn e)
  let w := if lyEfmt e = 0 then 1 else 2
  if l.any fun b => (wpDecode b).bad != 0 then 0x17
  else if sumN (ws.map fun b => (wpDecode b).bytes.length) = w * (lyK e * lyC e) ∧ ws.all (fun b => wpEw b == w - 1)
      ∧ sumN (as_.map fun b => (wpDecode b).bytes.length) = auxLen e ∧ as_.all (fun b => wpEw b == 0) then 0
  else 0x10

/-! ### The directory (R286, R287) -/

def State.setDir (s : State) (x : Nat) (e : DirEnt) : State := { s with nv.dir := tput s.nv.dir x (some e) }

/-- A directory entry in another state; each change raises `MODEL_STATE` (R287). -/
def State.modelState (s : State) (x : Nat) (st : Nat) : State :=
  match s.dirEnt x with
  | none => s
  | some e => if e.st = st then s else (s.setDir x { e with st := st }).raise evModelState [(4, e.model), (2, e.gen), (1, st)]

/-- The highest `ACT_SEQ` of the directory. -/
def State.topAct (s : State) : Nat := maxN (s.nv.dir.map fun p => p.2.actSeq)

/-- An entry becomes the active one of its model (R286). -/
def State.setActive (s : State) (x : Nat) : State :=
  match s.dirEnt x with
  | none => s
  | some e =>
    let t := s.topAct + 1
    { s with nv.dir := s.nv.dir.map fun p =>
        if p.1 = x then (p.1, { p.2 with active := true, actSeq := t, bootAct := false })
        else if p.2.model = e.model then (p.1, { p.2 with active := false }) else p }

/-- Planes that hold a generation, as array × 16 + plane. -/
def State.planesOf (s : State) (model gen : Nat) : List Nat :=
  (s.nv.holds.filter fun h => h.2.1 == model && h.2.2.1 == gen).map (·.1)

/-- A generation has `PENDING` planes (R289). -/
def State.hasPending (s : State) (e : DirEnt) : Bool :=
  (s.planesOf e.model e.gen).any fun k => tget 0 s.nv.alloc k == 1

/-- A plane becomes FREE; a WORN one stays so (R289). -/
def State.freePlane (s : State) (k : Nat) : State :=
  { s with nv.alloc := if tget 0 s.nv.alloc k = 3 then s.nv.alloc else tset 0 s.nv.alloc k 0, nv.holds := tdel s.nv.holds k }

/-- A plane is given to a generation, for the plane `src` of the placement. -/
def State.givePlane (s : State) (k st model gen src : Nat) : State :=
  { s with nv.alloc := tset 0 s.nv.alloc k st, nv.holds := tput s.nv.holds k (some (model, gen, src)) }

/-! ### Store sectors (R282, R283, R286) -/

/-- Logical sectors that the directory refers to. -/
def State.usedSectors (s : State) : List Nat :=
  s.nv.dir.flatMap fun p => p.2.first.toList ++ p.2.layers.flatMap fun y => if y.spilled = 0 then y.sectors else []

/-- A sector taken out of a list of runs, each its first sector and its length. -/
def cutRun (l : Nat) : List (Nat × Nat) → List (Nat × Nat)
  | [] => []
  | (a, n) :: r =>
    if a ≤ l ∧ l < a + n then ([(a, l - a), (l + 1, a + n - l - 1)].filter fun p => p.2 != 0) ++ r
    else (a, n) :: cutRun l r

/-- The runs of sectors of MODELS that an installation may take. -/
def State.freeRuns (s : State) : List (Nat × Nat) :=
  let out := (s.store.map.filter fun p => p.2.st == .retired || p.2.st == .unmapped || p.2.st == .erasing).map (·.1)
  (s.usedSectors ++ out).foldl (fun t l => cutRun l t) (partRanges 3)

/-- The `k`-th place at which `n` sectors fit into the runs. -/
def runAt (n : Nat) : Nat → List (Nat × Nat) → Option Nat
  | _, [] => none
  | k, (a, m) :: r => if k + n ≤ m then some (a + k) else runAt n (k - (m + 1 - n)) r

/-- A run of `n` sectors out of the free ones; which one the spec does not say (log entries 3 and 25). -/
def pickRun (n : Nat) (choice : Nat) (free : List (Nat × Nat)) : Option (List Nat) :=
  let c := sumN (free.map fun p => p.2 + 1 - n)
  if c = 0 then none else (runAt n (choice % c) free).map fun b => (List.range n).map (b + ·)

/-- Runs for the layers that are to be written, in order; none where one finds no room. -/
def pickRuns (choice : Nat) : List Nat → List (Nat × Nat) → Option (List (List Nat))
  | [], _ => some []
  | n :: r, free =>
    match pickRun n choice free with
    | none => none
    | some l => (pickRuns choice r (l.foldl (fun t x => cutRun x t) free)).map (l :: ·)

/-- The sectors of an entry's layers given back: those that no other entry refers to are erased (R283). -/
def State.freeLayers (s : State) (x : Nat) : State :=
  match s.dirEnt x with
  | none => s
  | some e =>
    let own := e.layers.flatMap fun y => if y.spilled = 0 then y.sectors else []
    let s := s.setDir x { e with layers := e.layers.map fun y => { y with sectors := [] } }
    let used := s.usedSectors
    (own.filter fun l => !used.contains l).foldl State.eraseLogical s

/-- A directory entry freed with its sectors (R286). -/
def State.freeEntry (s : State) (x : Nat) : State :=
  match s.dirEnt x with
  | none => s
  | some e =>
    let s := s.freeLayers x
    let s : State := { s with nv.dir := tdel s.nv.dir x, model.use := tdel s.model.use x }
    e.first.toList.foldl State.eraseLogical s

/-- A layer that the store already holds under another generation (R283). -/
def State.sharedLayer (s : State) (e : List Byte) : Option (List Nat) :=
  let fits (y : LayerRef) := y.digest == e.drop 64 && y.spilled == 0 && y.sectors != [] && lyEfmt y.entry == lyEfmt e
    && lyK y.entry == lyK e && lyC y.entry == lyC e
  ((s.nv.dir.filter fun p => !p.2.legacy && (p.2.st == 2 || p.2.st == 3 || p.2.st == 4)).findSome? fun p =>
    p.2.layers.find? fits).map (·.sectors)

/-! ### Eviction (R290, R292) -/

/-- Active slots that name a model. -/
def State.slotsNaming (s : State) (m : Nat) : List Nat :=
  ((s.cfg.slots.filter fun p => slEn p.2 && (slModels p.2).contains m).map (·.1))

/-- A generation may be evicted for another's room (R292). -/
def State.evictable (s : State) (for_ : Nat) (p : Nat × DirEnt) : Bool :=
  p.1 != for_ && !p.2.pin && (p.2.st == 2 || p.2.st == 3 || p.2.st == 4) && !s.hasPending p.2
    && !((s.slotsNaming p.2.model).any fun i => slPrio (s.slotRec i) == 0)

/-- `USE_RECENT` of a directory entry as it stands (R292). -/
def State.useOf (s : State) (p : Nat × DirEnt) : Nat := (tfind s.model.use p.1).getD p.2.useRecent

/-- The order of eviction: ascending use, then sequence, then model ID (R292). -/
def State.evictOrder (s : State) (for_ : Nat) : List Nat :=
  (sortBy s.useOf (sortBy (fun p : Nat × DirEnt => p.2.seq)
    (sortBy (fun p : Nat × DirEnt => p.2.model) (s.nv.dir.filter (s.evictable for_))))).map (·.1)

/-- `MODEL_EVICTED`: the model, and the slots that now miss. -/
def State.evicted (s : State) (m : Nat) (slots : List Nat) : State :=
  (s.count (kEngine 5) 1).raise evModelEvicted ((4, m) :: slots.map fun i => (2, i))

/-- The reserved cores can carry tiles beside those that they carry already (R177, R290, R292). -/
def State.coresCarry (s : State) (tiles : List (Nat × Nat)) : Bool :=
  let on := s.arrs.flatMap fun p => (dedupN (p.2.onStandin ++ p.2.toStandin)).map fun d => (p.1, d)
  s.placement.spillCores != 0 && Config.standinFits (on ++ tiles.filter fun t => !on.contains t)

/-- The tiles on some planes, by array × 16 + plane. -/
def State.tilesOn (s : State) (ks : List Nat) : List (Nat × Nat) :=
  s.arrs.flatMap fun p => (p.2.descs.filter fun q => ks.contains (16 * p.1 + lgPlane q.2)).map fun q => (p.1, q.1)

/-- The first step of an eviction: the planes of the generation are released, its tiles move to their stand-ins at the next boundary,
and its fills are cancelled (R176, R255, R292). -/
def State.evictPlanes (s : State) (x : Nat) : State :=
  match s.dirEnt x with
  | none => s
  | some e =>
    let ks := s.planesOf e.model e.gen
    if ks = [] then s
    else
      let carry := s.coresCarry (s.tilesOn ks)
      let s := ks.foldl State.freePlane s
      let s := if carry then
          s.arrs.foldl (fun s p =>
            let mine := (p.2.descs.filter fun q => ks.contains (16 * p.1 + lgPlane q.2)).map (·.1)
            s.setArr p.1 { s.arr p.1 with toStandin := dedupN ((s.arr p.1).toStandin ++ mine) }) s
        else s
      let s := if carry then s else s.cancelModel e.model
      (s.modelState x (if carry then 4 else 2)).evicted e.model (if carry ∨ ¬ e.active then [] else s.slotsNaming e.model)

/-- A write-protected sector among those of an entry: they can be neither evicted nor removed (R371). -/
def State.protEnt (s : State) (e : DirEnt) : Option Nat :=
  (e.first.toList ++ e.layers.flatMap fun y => if y.spilled = 0 then y.sectors else []).find? s.protected_

/-- A program or erase of a protected sector refused (R371). -/
def State.protRefused (s : State) (l : Nat) : State := s.count (kStack (stackOf l) 5) 1

/-- The second step: the store copy is removed (R292), unless it is write-protected (R371). -/
def State.evictStore (s : State) (x : Nat) : State :=
  match s.dirEnt x with
  | none => s
  | some e =>
    match s.protEnt e with
    | some l => s.protRefused l
    | none =>
    let s := ((s.cancelModel e.model).freeLayers x).modelState x 6
    s.evicted e.model (if e.active then s.slotsNaming e.model else [])

/-- Evictions in order until `ok`; the store copies go too where `sectors` is what is short (R290, R292). -/
def State.makeRoom (s : State) (for_ : Nat) (sectors : Bool) (ok : State → Bool) : State :=
  (s.evictOrder for_).foldl (fun s x =>
    if ok s then s
    else
      let s := s.evictPlanes x
      if sectors && !ok s then s.evictStore x else s) s

/-- `SPACE_POLICY` is EVICT (R388). -/
def State.evictPolicy (s : State) : Bool := flag s.cfg.plctl 62

end Sys2Proof.Machine
end

