-- ==== Sys2Proof/Machine/Models.lean ====
section
/-!
DEFINITION. Models: installation, switches between generations, plane programs, and the placement of active generations
(R149 to R152, R282 to R298, R501). The installation's steps 1 to 5 come about with its command, steps 6 and 7 with its
completion (log entry 26).
-/

namespace Sys2Proof.Machine

/-! ### What the placement has of a model -/

/-- Tiles of a model: array, descriptor, words. -/
def State.modelTiles (s : State) (m : Nat) : List (Nat × Nat × List DWord) :=
  s.arrs.flatMap fun p => (p.2.descs.filter fun q => s.descModel p.1 q.1 == m && lcRole q.2 != 3).map fun q => (p.1, q)

/-- Reels whose list has entries of a model. -/
def State.modelReels (s : State) (m : Nat) : List Nat :=
  (List.range 16).filter fun r => (List.range 1024).any fun i => reEn ((s.reel r).entry i) && reModel ((s.reel r).entry i) == m

/-- The placement in force names a part of the model (R291). -/
def State.modelNamed (s : State) (m : Nat) : Bool := s.modelTiles m != [] || s.modelReels m != []

/-- The model has pinned entries. -/
def State.modelPins (s : State) (m : Nat) : Bool :=
  (s.modelReels m).any fun r => (List.range 1024).any fun i =>
    let e := (s.reel r).entry i
    reEn e && rePin e && reModel e == m

/-- The alternate pinned region of a model. -/
def State.altRegion (s : State) (m : Nat) : Option DWord :=
  let l := s.listed m
  if l = [] ∨ mlAlt l = 0xFFFF then none
  else match s.placement.regions[mlAlt l]? with
    | some w => if rgKind w = 2 then some w else none
    | none => none

/-- The other engines that hold parts of a model (R297). -/
def State.otherHolders (s : State) (m : Nat) : List Nat := (mlPeers (s.listed m)).filter (· != s.dev)

/-- Planes that the tiles of a model use, as (array, plane), ascending; FAILED arrays aside. -/
def State.usedPlanes (s : State) (m : Nat) : List (Nat × Nat) :=
  let ks := dedupN (((s.modelTiles m).filter fun t => (s.arr t.1).st != .failed).map fun t => 16 * t.1 + lgPlane t.2.2)
  (sortBy id ks).map fun k => (k / 16, k % 16)

/-- FREE planes of an array, ascending (R289). -/
def State.freePlanes (s : State) (a : Nat) : List Nat :=
  if (s.arr a).st = .failed then [] else (List.range 16).filter fun p => tget 0 s.nv.alloc (16 * a + p) == 0

/-! ### Switches (R291, R294 to R297, R501) -/

/-- What R294 compares of a layer: its EXEC, EFMT, K, C, POOL_MODE, POOL_P and OUT_FMT. -/
def layerShape (e : List Byte) : List Nat :=
  [lyExec e, lyEfmt e, lyK e, lyC e, bf (leAt e 24 8) 37 36, bf (leAt e 24 8) 34 32, bf (leAt e 16 8) 15 14]

/-- Two generations are shape-compatible (R294). -/
def shapeOk (x y : DirEnt) : Bool := x.layers.map (fun l => layerShape l.entry) == y.layers.map fun l => layerShape l.entry

/-- The switch of a model that is in progress. -/
def State.switchOf (s : State) (m : Nat) : Option Switch := s.model.switches.find? fun w => w.model == m

def State.setSwitches (s : State) (l : List Switch) : State := { s with model.switches := l }

/-- The switch of a model replaced by another. -/
def State.putSwitch (s : State) (w : Switch) : State :=
  s.setSwitches (s.model.switches.map fun x => if x.model = w.model ∧ x.gen = w.gen then w else x)

def State.dropSwitch (s : State) (w : Switch) : State :=
  s.setSwitches (s.model.switches.filter fun x => !(x.model == w.model && x.gen == w.gen))

/-- Tiles on planes that are not to be had run on the reserved cores, where these carry them (R290). -/
def State.toCores (s : State) (m : Nat) (planes : List (Nat × Nat)) : State :=
  ((s.modelTiles m).filter fun t => planes.contains (t.1, lgPlane t.2.2)).foldl (fun s t =>
    s.setArr t.1 { s.arr t.1 with onStandin := dedupN ((s.arr t.1).onStandin ++ [t.2.1]) }) s

/-- The tiles of a model on some planes, as (array, descriptor). -/
def State.tilesAt (s : State) (m : Nat) (planes : List (Nat × Nat)) : List (Nat × Nat) :=
  ((s.modelTiles m).filter fun t => planes.contains (t.1, lgPlane t.2.2)).map fun t => (t.1, t.2.1)

/-- The idle calibration banks of the arrays that a switch staged go back to ordinary use (R162). -/
def State.unstage (s : State) (w : Switch) : State :=
  (dedupN (w.pairs.map (·.1))).foldl (fun s a =>
    let x := s.arr a
    let mine := (w.pairs.filter fun p => p.1 == a).map fun p => p.2.2
    let idle := x.idle.filter fun p => !mine.contains p.1
    s.setArr a { x with staged := false, idle := idle, swap := if x.staged then idle.map (·.1) else x.swap }) s

/-- A switch abandoned (R297): its PENDING planes are FREE, its generation stays STORED, and its command ends ABORTED. -/
def State.abandon (s : State) (w : Switch) : State :=
  let pend := (s.planesOf w.model w.gen).filter fun k => tget 0 s.nv.alloc k == 1
  let s := (pend.foldl State.freePlane (s.unstage w)).dropSwitch w
  let s := s.raise evModelSwitchAbandoned [(4, w.model), (2, w.gen)]
  match w.cmd with | some c => s.finish c 0x0C 0 0 [] | none => s

/-- A placement of a generation that is active already, not a switch. -/
def State.isPlacement (s : State) (w : Switch) : Bool :=
  match s.activeEnt w.model with | some (_, e) => e.gen == w.gen | none => false

/-- A holder's own part is ready (R297): on one engine alone the switch waits for its boundary only; else the report goes to
the holder with the lowest address. -/
def State.partReady (s : State) (w : Switch) : State :=
  let o := s.otherHolders w.model
  if s.isPlacement w ∨ o = [] then s.putSwitch { w with ready := true }
  else
    let low := o.foldl Nat.min s.dev
    if low = s.dev then s.putSwitch { w with reports := dedupN (s.dev :: w.reports) }
    else (s.putSwitch { w with reports := [s.dev] }).sendCtrl low 6 [w.model, w.gen, s.dev]

/-- The first quantum whose window opens at least 8 quanta after now (R297). -/
def State.switchIndex (s : State) : Nat :=
  cdiv (s.time.sample * 4096 + s.time.tick + 8 * s.q * 4096) (s.q * 4096) - 1

/-- At the collecting holder: once every holder has reported, the switch index is fixed and sent (R297). -/
def State.fixIndex (s : State) (w : Switch) : State :=
  let all := s.dev :: s.otherHolders w.model
  if all.all w.reports.contains then
    let n := max w.atQ s.switchIndex
    ((s.otherHolders w.model).foldl (fun s a => s.sendCtrl a 7 [w.model, w.gen, n]) s).putSwitch
      { w with ready := true, atQ := n }
  else s.putSwitch w

/-- The own part is ready, and the index follows where it was the last one. -/
def State.nowReady (s : State) (w : Switch) : State :=
  let s := s.partReady w
  match s.switchOf w.model with
  | some x => if x.ready ∨ x.reports = [] ∨ (s.otherHolders w.model).foldl Nat.min s.dev ≠ s.dev then s else s.fixIndex x
  | none => s

/-- Layers of a model's tiles on a plane, the lowest. -/
def State.lowLayer (s : State) (m : Nat) (k : Nat × Nat) : Nat :=
  ((s.modelTiles m).filter fun t => t.1 == k.1 && lgPlane t.2.2 == k.2).foldl (fun b t => min b (lcLayer t.2.2)) 4096

/-- The placement's plane for what a plane holds. -/
def State.srcOf (s : State) (a p : Nat) : Nat :=
  match tfind s.nv.holds (16 * a + p) with | some h => h.2.2 | none => p

/-- The atomic path is open: every array that a model's tiles use has as many FREE planes as they use there, and pinned entries have
an alternate region (R295). -/
def State.atomicOk (s : State) (m : Nat) (used : List (Nat × Nat)) : Bool :=
  (dedupN (used.map (·.1))).all (fun a => decide ((used.filter fun k => k.1 == a).length ≤ (s.freePlanes a).length))
    && (!s.modelPins m || (s.altRegion m).isSome)

/-- A used plane may be rewritten in place: it holds the generation in force, or nothing (R289, R295). -/
def State.mayRewrite (s : State) (m : Nat) (old : Option Nat) (k : Nat × Nat) : Bool :=
  match tget 0 s.nv.alloc (16 * k.1 + k.2) with
  | 0 => true
  | 2 => (match tfind s.nv.holds (16 * k.1 + k.2) with | some h => h.1 == m && some h.2.1 == old | none => true)
  | _ => false

/-- The preparation of a switch to entry `x` begins (R290, R295): on the atomic path every used plane gets the lowest FREE plane
of its array; otherwise the planes are rewritten in place, layer by layer. Where FREE planes are short the policy EVICT makes room
first; planes that stay out of reach leave their tiles to the reserved cores, or the switch is abandoned (log entry 76). Without a part
in the placement nothing is prepared (R291). -/
def State.beginSwitch (s : State) (x : Nat) (old : Option Nat) (atQ : Nat) (cmd : Option Cmd) : State :=
  match s.dirEnt x with
  | none => s
  | some e =>
    let m := e.model
    let used := if s.modelNamed m then s.usedPlanes m else []
    let s := if s.evictPolicy then s.makeRoom x false fun t => t.atomicOk m used else s
    let atomic := s.atomicOk m used
    let mine (a : Nat) := (used.filter fun k => k.1 == a).map (·.2)
    let (own, lack) := if atomic then (used, []) else (used.filter (s.mayRewrite m old), used.filter fun k => !s.mayRewrite m old k)
    let pairs := if atomic then (dedupN (used.map (·.1))).flatMap fun a => ((mine a).zip (s.freePlanes a)).map fun p => (a, p.1, p.2)
      else (sortBy (s.lowLayer m) own).map fun k => (k.1, k.2, k.2)
    let todo := pairs.map fun p => (p.1, p.2.2)
    let w : Switch := { model := m, gen := e.gen, old := old, atomic := atomic, atQ := atQ, todo := todo, pairs := pairs,
                        cores := lack, ready := false, reports := [], cmd := cmd }
    if lack ≠ [] ∧ (s.evictPolicy ∨ ¬ s.coresCarry (s.tilesAt m lack)) then (s.setSwitches (s.model.switches ++ [w])).abandon w
    else
    let s := if atomic then
        pairs.foldl (fun s p => s.givePlane (16 * p.1 + p.2.2) 1 m e.gen (s.srcOf p.1 p.2.1)) s else s
    let s := s.setSwitches (s.model.switches ++ [w])
    if todo = [] then s.nowReady w else s

/-- An activation of entry `x` (R291, R294, R501): a switch, `BOOT_ACT` where the shapes differ, or nothing to do where it
is active; the command, if one asks, completes with OK in the two latter cases. -/
def State.activate (s : State) (x : Nat) (atQ : Nat) (cmd : Option Cmd) : State :=
  let done (s : State) := match cmd with | some c => s.finish c 0 0 0 [] | none => s
  match s.dirEnt x with
  | none => s
  | some e =>
    let s : State := { s with nv.dir := s.nv.dir.map fun p =>
      if p.2.model = e.model ∧ p.1 ≠ x then (p.1, { p.2 with bootAct := false }) else p }
    if e.active then done s
    else
      match s.activeEnt e.model with
      | some (_, o) =>
        if shapeOk e o then s.beginSwitch x (some o.gen) atQ cmd
        else done (s.setDir x { e with bootAct := true })
      | none =>
        let try_ := { s with nv.dir := tput s.nv.dir x (some { e with active := true }) }
        if s.modelNamed e.model && !try_.modelOk s.placement e.model then done (s.setDir x { e with bootAct := true })
        else s.beginSwitch x none atQ cmd

/-! ### Lists and pinned entries at a switch (R248, R253, R295) -/

/-- Where a sector of a layer is read: the source, the peer and the sector of a reel entry for it. A layer without room in the store
comes from the replica peer or the host spill region (R248, R259). -/
def DirEnt.sectorAt (e : DirEnt) (y : LayerRef) (k : Nat) : Nat × Nat × Nat :=
  match y.spilled with
  | 0 => (0, 0, y.sectors.getD k 0)
  | 1 => (1, e.replica.getD 0, Config.replicaSector y.entry y.digest k % 2 ^ 24)
  | _ => (2, 0, y.sectors.getD k 0)

/-- A field of a reel entry replaced. -/
def putField (w hi lo v : Nat) : Nat := w - bf w hi lo * 2 ^ lo + v % 2 ^ (hi + 1 - lo) * 2 ^ lo

/-- A reel entry for another generation: it reads the same part of the layer where that generation has it (R259), a pinned one lies in
the other pinned region. -/
def State.newEntry (s : State) (r m : Nat) (old new : DirEnt) (alt : Option DWord) (i : Nat) : BitVec 256 :=
  let e := (s.reel r).entry i
  if !reEn e || reModel e != m then e
  else
    let none_ : LayerRef := ⟨[], [], [], 0⟩
    let ol := (old.layers[reLayer e]?).getD none_
    let nl := (new.layers[reLayer e]?).getD none_
    let k := ((List.range (lySecs ol.entry)).find? fun k => old.sectorAt ol k == (reSrc e, rePeer e, reSector e)).getD 0
    let at_ := new.sectorAt nl k
    let home := match s.placement.reels.find? fun p => p.1 == r with | some p => reLoft (nth 0 p.2.2 i) | none => reLoft e
    let loft :=
      match alt with
      | some w =>
        if rePin e ∧ rgSlice w = r then
          if reLoft e = home then
            let before := sumN (((List.range i).filter fun j =>
              let f := (s.reel r).entry j
              reEn f && rePin f && reModel f == m).map fun j => reUlen ((s.reel r).entry j))
            r * 2 ^ 22 + rgOfs w + before
          else home
        else reLoft e
      | none => reLoft e
    let w := if nl.sectors = [] ∧ nl.spilled = 0 then e.toNat
      else putField (putField (putField e.toNat 59 58 at_.1) (64 + 23) (64 + 12) at_.2.1) (64 + 63) (64 + 40) at_.2.2
    BitVec.ofNat 256 (putField w (128 + 63) (128 + 38) loft)

/-- A reel's list with bank `b` filled for another generation (R253, R295). -/
def State.otherList (s : State) (r m : Nat) (old new : DirEnt) (b : Nat) : Tab (BitVec 256) :=
  (List.range 1024).foldl (fun t i => tset 0 t (1024 * b + i) (s.newEntry r m old new (s.altRegion m) i)) (s.reel r).list

/-- The reels change list bank at the boundary that opens the window of quantum `n`: the other bank has the new generation's
entries; fills of the old list are cancelled, and the pinned entries are filled anew (R253, R255, R296). -/
def State.swapLists (s : State) (m : Nat) (old new : DirEnt) (n : Nat) : State :=
  (s.modelReels m).foldl (fun s r =>
    let x := s.reel r
    let b := 1 - x.bank % 2
    let list := s.otherList r m old new b
    let s := s.reelRestart r x.active n
    let keep := x.pinned.filter fun i => reModel (x.entry i) != m
    (s.setReel r { s.reel r with list := list, bank := b, pinned := keep, pinTried := keep }).pinFills r) s

/-! ### The switch boundary (R296) -/

/-- What a tile of the model takes from entry `y`, and what starts afresh at a switch (R105, R128, R166, R173, R294, R296). -/
def State.freshTile (s : State) (y : Nat) (e : DirEnt) (t : Nat × Nat × List DWord) (plane : Nat) : State :=
  let (a, d, l) := t
  let x := s.arr a
  let ovr := (s.inForce.qctl.find? fun q => q.1 == e.model && q.2.1 == lcLayer l).map (·.2.2)
  let ly := layerOf e (lcLayer l)
  let l' := onPlane plane (if ly = [] then l else withManifest ovr ly l)
  let ad := tget .reset x.adapters d
  let s : State := { s with nv.envs := s.nv.envs.filter fun p => p.1 / 8 != 1024 * a + d }
  let s := s.setArr a { x with
    descs := tput x.descs d (some l'), hist := x.hist.filter fun p => p.1 / 4096 != d,
    live := x.live.filter fun p => p.1 / 2 != d, quiet := x.quiet.filter fun p => p.1 / 2 != d,
    limited := x.limited.filter fun k => k / 2 != d, env := x.env.filter fun p => p.1 / 8 != d,
    adapters := tset .reset x.adapters d { Adapter.reset with serial := ad.serial, gen := if ad = .reset then 0 else e.gen } }
  (s.count (kDesc a d 16) (b2n (ad.steps != 0 || ad.next.isSome))).loadAux a l' y e

/-- The calibration banks of the arrays of a switch change (R162, R296). -/
def State.swapBanks (s : State) (w : Switch) : State :=
  (dedupN (w.pairs.map (·.1))).foldl (fun s a =>
    let x := s.arr a
    s.setArr a { (x.idle.map (·.1)).foldl bankSwap x with staged := false, swap := [] }) s

/-- Tiles of the model leave their stand-ins where their array serves and their plane was to be had (R177, R290, R296). -/
def State.backToPlanes (s : State) (m : Nat) (cores : List (Nat × Nat)) : State :=
  (s.modelTiles m).foldl (fun s t =>
    let x := s.arr t.1
    if x.serves && !cores.contains (t.1, lgPlane t.2.2) then s.setArr t.1 { x with onStandin := x.onStandin.filter (· != t.2.1) } else s) s

/-- A generation that ceases to be active is STORED; one that is DEGRADED or EVICTED stays so until it is installed again (R287). -/
def State.ceaseActive (s : State) (y : Nat) : State :=
  match s.dirEnt y with | some o => if o.st = 3 ∨ o.st = 4 then s.modelState y 2 else s | none => s

/-- The state in which a placed generation serves: SPILLED while layers of it lie in tier 5 (R287, R296). -/
def DirEnt.tierState (e : DirEnt) : Nat := if e.layers.any fun y => y.spilled != 0 then 4 else 3

/-- The switch is made at the boundary that opens the window of quantum `n` (R291, R296). -/
def State.applySwitch (s : State) (n : Nat) (w : Switch) : State :=
  match s.entOf w.model w.gen with
  | none => s.abandon w
  | some (x, e) =>
    let prev := s.activeEnt w.model
    let tiles := s.modelTiles w.model
    let named := s.modelNamed w.model
    let plane (t : Nat × Nat × List DWord) :=
      ((w.pairs.find? fun p => p.1 == t.1 && p.2.1 == lgPlane t.2.2).map fun p => p.2.2).getD (lgPlane t.2.2)
    let was := (x, e) :: (match prev with | some p => if p.1 = x then [] else [p] | none => [])
    let s := s.setActive x
    let s := if named then tiles.foldl (fun s t => s.freshTile x e t (plane t)) s else s
    let olds := match prev with | some (_, o) => s.planesOf o.model o.gen | none => []
    let s := w.pairs.foldl (fun s p => s.givePlane (16 * p.1 + p.2.2) 2 w.model w.gen (s.srcOf p.1 p.2.2)) s
    let s := if named then (olds.filter fun k => !w.pairs.any fun p => 16 * p.1 + p.2.2 == k).foldl State.freePlane s else s
    let s := match prev with
      | some (_, o) => if named then s.swapLists w.model o e n else s
      | none => s
    let s := (((s.swapBanks w).backToPlanes w.model w.cores).toCores w.model w.cores).dropSwitch w
    let s := if named then s.modelState x (if w.cores = [] then e.tierState else 4) else s
    let s := match prev with | some (y, _) => if y = x then s else s.ceaseActive y | none => s
    let s : State := { s with
      model.switchCnt := tset 0 s.model.switchCnt w.model (min (tget 0 s.model.switchCnt w.model + 1) (2 ^ 64 - 1)),
      model.unwritten := s.model.unwritten ++ was }
    let s := s.raise evModelSwitched [(4, w.model), (2, w.old.getD 0), (2, w.gen), (8, n)]
    match w.cmd with | some c => s.finish c 0 0 0 [] | none => s

/-- A boot's placement of a model is complete: its planes are IN_USE, and it serves (R287, R288). -/
def State.applyPlacement (s : State) (w : Switch) : State :=
  match s.entOf w.model w.gen with
  | none => s.dropSwitch w
  | some (x, e) =>
    let s := w.pairs.foldl (fun s p => s.givePlane (16 * p.1 + p.2.2) 2 w.model w.gen (s.srcOf p.1 p.2.2)) s
    (((s.swapBanks w).backToPlanes w.model w.cores).dropSwitch w).modelState x e.tierState

/-- An in-place switch of a model with pinned entries and no alternate pinned region is made in MAINTENANCE only (R295). -/
def State.mayApply (s : State) (w : Switch) : Bool :=
  w.atomic || !s.modelPins w.model || (s.altRegion w.model).isSome || s.run.st == .maintenance

/-- Switches and placements at the boundary that opens the window of quantum `n`: those of arrays that failed are abandoned,
those that are ready and due are made (R295 to R297). -/
def State.switchStep (s : State) (n : Nat) : State :=
  s.model.switches.foldl (fun s w =>
    if w.pairs.any fun p => (s.arr p.1).st == .failed && tget 0 s.nv.alloc (16 * p.1 + p.2.2) == 1 then s.abandon w
    else if w.ready && decide (w.atQ ≤ n) && s.mayApply w then
      if s.isPlacement w then s.applyPlacement w else s.applySwitch n w
    else s) s

/-- Every pending switch abandoned: on entry to SHUTDOWN and at a warm reset (R297). -/
def State.abandonAll (s : State) : State := s.model.switches.foldl State.abandon s

/-! ### Degraded generations (R298) -/

/-- The generations that lost a sector become DEGRADED at a boundary; a switch to one is abandoned (R297, R298). -/
def State.degrade (s : State) : State :=
  let l := s.model.degradeNext
  let s : State := { s with model.degradeNext := [] }
  l.foldl (fun s x =>
    match s.dirEnt x with
    | none => s
    | some e =>
      if e.st = 2 ∨ e.st = 3 ∨ e.st = 4 then
        let s := s.modelState x 5
        match s.model.switches.find? fun w => w.model == e.model && w.gen == e.gen with
        | some w => s.abandon w
        | none => s
      else s) s

/-! ### The placement of active generations (R288 to R290) -/

/-- A model that cannot serve (R288). -/
def State.unavailable (s : State) (m : Nat) : State := s.raise evModelUnavailable [(4, m)]

/-- The planes that the placement's tiles of entry `x` need and that do not hold it: those FREE, and those that are not to
be had. -/
def State.planeNeeds (s : State) (e : DirEnt) : List (Nat × Nat) × List (Nat × Nat) :=
  let want := (s.usedPlanes e.model).filter fun k =>
    match tfind s.nv.holds (16 * k.1 + k.2) with | some h => !(h.1 == e.model && h.2.1 == e.gen) | none => true
  (want.filter fun k => tget 0 s.nv.alloc (16 * k.1 + k.2) == 0, want.filter fun k => tget 0 s.nv.alloc (16 * k.1 + k.2) != 0)

/-- The active generation of a model is placed (R288): planes that hold it are IN_USE, FREE ones are queued for
programming; where planes are not to be had, the space policy decides (R290). -/
def State.placeModel (s : State) (m : Nat) : State :=
  match s.activeEnt m with
  | none => s.unavailable m
  | some (x, e) =>
    if e.st = 5 ∨ e.st = 6 ∨ e.st = 1 then s.unavailable m
    else
      let s := s.makeRoom x false (fun t => !t.evictPolicy || (t.planeNeeds e).2 == [])
      let (todo, lack) := s.planeNeeds e
      let held := (s.usedPlanes m).filter fun k => !todo.contains k && !lack.contains k
      let s := held.foldl (fun s k =>
        if tget 0 s.nv.alloc (16 * k.1 + k.2) = 3 then s else s.givePlane (16 * k.1 + k.2) 2 m e.gen (s.srcOf k.1 k.2)) s
      if lack ≠ [] then
        if s.coresCarry (s.tilesAt m (lack ++ todo)) ∧ ¬ s.evictPolicy then (s.toCores m (lack ++ todo)).modelState x 4
        else s.unavailable m
      else if todo = [] then
        s.modelState x e.tierState
      else
        let carried := e.st == 4 && (s.modelTiles m).all fun t =>
          !todo.contains (t.1, lgPlane t.2.2) || (s.arr t.1).onStandin.contains t.2.1
        let s := if carried then s else s.modelState x 2
        let s := todo.foldl (fun s k => s.givePlane (16 * k.1 + k.2) 1 m e.gen k.2) s
        let pairs := todo.map fun k => (k.1, k.2, k.2)
        s.setSwitches (s.model.switches ++ [⟨m, e.gen, none, true, 0, todo, pairs, [], false, [], none⟩])

/-- Models that returned to STORED by an installation are placed again (R287). -/
def State.placeAgain (s : State) : State :=
  let l := s.model.placeNext
  let s : State := { s with model.placeNext := [] }
  l.foldl (fun s x =>
    match s.dirEnt x with
    | some e => if e.active && e.st == 2 && s.modelNamed e.model then s.placeModel e.model else s
    | none => s) s

/-- Active generations that run on cores for want of planes are placed again once those are FREE; a generation serves from its
stand-ins until they are programmed (R287, R290; log entry 76). -/
def State.returnSpilled (s : State) : State :=
  (s.nv.dir.filter fun p => p.2.active && p.2.st == 4 && s.modelNamed p.2.model).foldl (fun s p =>
    let n := s.planeNeeds p.2
    if n.1 ≠ [] ∧ n.2 = [] ∧ s.model.switches.all (fun w => w.model != p.2.model) then s.placeModel p.2.model else s) s

/-- A directory write of a switch is made: the new generation's by the deadline of the switch's quantum, the old one's by the next
boundary (R296; log entry 76). -/
def State.dirWrite (s : State) : State := { s with model.unwritten := s.model.unwritten.drop 1 }

/-- A loss of supply finds the directory without the writes that were still to be made (R296). -/
def State.undoWrites (s : State) : State :=
  s.model.unwritten.foldl (fun s p =>
    match s.dirEnt p.1 with
    | some e =>
      if e.model = p.2.model ∧ e.gen = p.2.gen then
        s.setDir p.1 { e with active := p.2.active, actSeq := p.2.actSeq, st := p.2.st, bootAct := p.2.bootAct }
      else s
    | none => s) s

/-- The directory as a boot finds it: an installation that was cut is lost, of two active generations the later
activation counts, and what lay in the host spill region is void (R285, R293, R296). -/
def State.bootDir (s : State) : State :=
  let s := (s.nv.dir.filter fun p => p.2.st == 1).foldl (fun s p =>
    if p.2.active then (((s.freeLayers p.1).modelState p.1 6)).raise evModelInstallLost [(4, p.2.model), (2, p.2.gen)]
    else (s.freeEntry p.1).raise evModelInstallLost [(4, p.2.model), (2, p.2.gen)]) s
  let s : State := { s with nv.dir := s.nv.dir.map fun p =>
    if p.2.active ∧ s.nv.dir.any (fun q => q.2.model == p.2.model && q.2.active && decide (p.2.actSeq < q.2.actSeq)) then
      (p.1, { p.2 with active := false }) else p }
  let s := (s.nv.dir.filter fun p => p.2.layers.any fun y => y.spilled == 2).foldl (fun s p =>
    (s.freeLayers p.1).modelState p.1 6) s
  -- planes PENDING for a switch that was cut are FREE
  (s.nv.holds.filter fun h => tget 0 s.nv.alloc h.1 == 1).foldl (fun s h => s.freePlane h.1) s

/-- The entries with `BOOT_ACT` that the placement, loaded, fits (R501). -/
def State.bootFits (s : State) (l : Subs) : List Nat :=
  (s.nv.dir.filter fun p => p.2.bootAct && p.2.st != 1 && s.modelNamed p.2.model && s.modelFits l p.2).map (·.1)

/-- A generation with `BOOT_ACT` becomes the active one of its model (R501). -/
def State.bootActivate (s : State) (x : Nat) : State :=
  match s.dirEnt x with
  | none => s
  | some e => match s.activeEnt e.model with | some (y, _) => (s.setActive x).ceaseActive y | none => s.setActive x

/-- Planes on which the placement has no tile of their model, and those of a generation that is not active, become FREE; and the
generations of models that it does not name STORED (R287, R289). -/
def State.lapse (s : State) : State :=
  let names := s.namedModels s.placement
  let idle (h : Nat × Nat × Nat × Nat) :=
    (tget 0 s.nv.alloc h.1 == 2 && !(match s.activeEnt h.2.1 with | some (_, e) => e.gen == h.2.2.1 | none => false))
      || !(s.modelTiles h.2.1).any fun t => 16 * t.1 + lgPlane t.2.2 == h.1
  let s := (s.nv.holds.filter idle).foldl (fun s h => s.freePlane h.1) s
  (s.nv.dir.filter fun p => !names.contains p.2.model && (p.2.st == 3 || p.2.st == 4)).foldl (fun s p => s.modelState p.1 2) s

/-- Every model of the placement and of its dormant placements is placed (R288, R323). -/
def State.placeModels (s : State) : State := (s.namedModels s.placement).foldl State.placeModel s

/-! ### Plane programs (R149 to R152, R295) -/

/-- A plane of a switch has been refused as WORN: the lowest FREE plane of its array takes its place, or the switch is
abandoned; a boot's placement then leaves the model without it (R151). -/
def State.wornPlane (s : State) (w : Switch) (a p : Nat) : State :=
  let src := s.srcOf a p
  let s : State := { s with nv.alloc := tput s.nv.alloc (16 * a + p) (some 3),
                            nv.holds := if w.atomic then tdel s.nv.holds (16 * a + p) else s.nv.holds }
  match s.freePlanes a with
  | f :: _ =>
    let sub (k : Nat × Nat) := if k = (a, p) then (a, f) else k
    let s := s.givePlane (16 * a + f) 1 w.model w.gen src
    s.putSwitch { w with todo := w.todo.map sub, pairs := w.pairs.map fun q => if q.1 = a ∧ q.2.2 = p then (a, q.2.1, f) else q }
  | [] => if s.isPlacement w then (s.dropSwitch w).unavailable w.model else s.abandon w

/-- Tiles of a plane that is rewritten in place leave it for good (R295). -/
def State.leavePlane (s : State) (a p : Nat) : State :=
  let x := s.arr a
  let mine := (x.descs.filter fun q => lgPlane q.2 == p && lpStandin q.2).map (·.1)
  s.setArr a { x with onStandin := dedupN (x.onStandin ++ mine) }

/-- The column entries of a plane: its primary columns and its mapped spares, with the logical columns they carry. -/
def Arr.planeCols (x : Arr) (p : Nat) : List (Nat × Nat) :=
  (List.range 2048).map (fun c => (c, c)) ++ (tget [] x.colmap p).map fun m => (2048 + m.1, m.2)

/-- The switch or placement for which a plane of an array is still to be programmed. -/
def State.switchFor (s : State) (a plane : Nat) : Option Switch := s.model.switches.find? fun w => w.todo.contains (a, plane)

/-- The plane that the descriptors of a switch's tiles name for one of its planes. -/
def Switch.oldPlane (w : Switch) (a plane : Nat) : Nat :=
  ((w.pairs.find? fun p => p.1 == a && p.2.2 == plane).map fun p => p.2.1).getD plane

/-- `PLANE_PROGRAM` (R149, R152, R271): the program of a plane of a pending switch or placement waits for its turn, which comes at a
boundary; one whose blocks are not sound is refused before any cell is erased. -/
def execPlaneProgram (arr plane : Nat) (env : List (Nat × CellEnv)) (s : State) : Res :=
  inUnit (max arr (3 * plane)) 48 (
    match s.switchFor arr plane with
    | none => s
    | some w =>
      if s.draining then s
      else
        let (ok, t) := s.checkPlane (some env) arr (w.oldPlane arr plane) w.model w.gen
        if ok then t.queueProg ⟨arr, plane, true, [], [], none⟩ else t)

/-- A plane program may start: its array may, or it is in the PROGRAMMING period of the same switch; in place, the lowest layer's
plane comes first (R152, R295). -/
def State.mayPlane (s : State) (w : Switch) (a plane : Nat) : Bool :=
  let x := s.arr a
  (s.mayProgram a || (x.st == .programming && x.prog == none && s.sup.stage == 0 && !s.draining))
    && (w.atomic || (w.todo.head? == some (a, plane)
      && s.mayApply w))

/-- A plane program starts at a boundary (R149, R151, R295): the array enters PROGRAMMING, and the plane is erased and programmed; one
that would pass 3,000 cycles is refused, and the plane is WORN. The monitors of its tiles learn anew (R166). -/
def State.startPlane (s : State) (w : Switch) (a plane : Nat) : State :=
  let cols := (s.arr a).planeCols plane
  if 3000 ≤ s.cycles a plane (cols.map (·.1)) then s.wornPlane w a plane
  else
    let old := w.oldPlane a plane
    let s := (if w.atomic then s else s.leavePlane a plane).givePlane (16 * a + plane) 1 w.model w.gen (s.srcOf a plane)
    let s := if (s.arr a).st = .programming then s else s.offline a .programming true
    let x := s.arr a
    let fresh (d : Nat) := lgPlane (x.desc d) == plane
    let s := s.setArr a { x with prog := some ⟨plane, [], true, none, false⟩, env := x.env.filter fun p => !fresh (p.1 / 8),
                                 flagged := tdel x.flagged plane, tried := tdel x.tried plane, spent := tdel x.spent plane }
    let s : State := { s with nv.envs := s.nv.envs.filter fun p => !(p.1 / 8192 == a && fresh (p.1 / 8 % 1024)) }
    s.programCols a plane old cols []

/-- The record captured at the end of a plane program (R149, R160, R161): the sums of the intended levels, and the fits. -/
def State.captureRec (s : State) (a plane src : Nat) (m : CalMeas) : State :=
  let hold := (tfind s.nv.holds (16 * a + plane)).getD (0, 0, 0)
  let cols := ((s.arr a).planeCols plane).foldl (fun t c =>
    tset colReset t c.1 (withColsum (s.levelSum a src hold.1 hold.2.1 c.2 0 2048) colReset)) []
  let drop : Tab CalRec := s.nv.calRecs.filter fun p => p.1 / 4 != 16 * a + plane
  let m := { m with plane := plane }
  let fs := s.fitAll a src m
  let s : State := { s with nv.calRecs := drop }
  (s.flagCols a plane fs).addPoint a (s.capture_ a 0 m cols fs)

/-- The cells that the read-back finds off, as they stand (R149). -/
def State.readBack (s : State) (a plane : Nat) (off : List StuckCell) : State :=
  let s := s.setArr a { s.arr a with offCells := tset [] (s.arr a).offCells plane off }
  off.foldl (fun s k =>
    let c := cellKey a plane k.row (physCol ((s.arr a).entryOf plane k.col))
    let u := tget 0 s.nv.cells c
    { s with nv.cells := tset 0 s.nv.cells c (if k.hiCell then 16 * k.level + u % 16 else u / 16 * 16 + k.level) }) s

/-- `PLANE_PROGRAM_DONE` (R149, R295): the cells read back are listed, and the record is captured, into the staged bank where a switch
waits; the array leaves PROGRAMMING at a boundary, unless another plane of the same switch follows on it; the last plane of a
switch makes its part ready. -/
def execPlaneProgramDone (arr : Nat) (meas : CalMeas) (off : List StuckCell) (s : State) : Res :=
  inUnit arr 48 (
    match (s.arr arr).prog with
    | none => s
    | some p =>
      if !p.whole || p.done then s
      else
        let w := s.switchFor arr p.plane
        let src := match w with | some w => w.oldPlane arr p.plane | none => p.plane
        let s := s.readBack arr p.plane off
        let s := s.setArr arr { s.arr arr with prog := some { p with done := true }, staged := (s.arr arr).staged || w.isSome }
        let s := (s.capturePasses arr p.plane).captureRec arr p.plane src meas
        match w with
        | none => s
        | some w =>
          let w := { w with todo := w.todo.filter (· != (arr, p.plane)) }
          let s := s.putSwitch w
          if w.todo = [] then s.nowReady w else s)

/-- An array leaves PROGRAMMING at a boundary once its program and capture are done (R149, R157): it serves again, unless planes of
one atomic switch follow on it in the same period (R295). -/
def State.leaveProgram (s : State) (a : Nat) : State :=
  match (s.arr a).prog with
  | none => s
  | some p =>
    if !p.done then s
    else if p.whole && s.model.switches.any (fun w => w.atomic && w.todo.any fun k => k.1 == a) then
      s.setArr a { s.arr a with prog := none }
    else s.online a

/-- The requests for programs at a boundary, in the order received: those that may start do, those that nothing asks for any more go,
the others wait on (R149, R152). -/
def State.startPrograms (s : State) : State :=
  s.model.progs.foldl (fun s r =>
    let go : State := { s with model.progs := s.model.progs.erase r }
    if (s.arr r.arr).st = .failed then go
    else if r.whole then
      match s.switchFor r.arr r.plane with
      | none => go
      | some w => if s.mayPlane w r.arr r.plane then go.startPlane w r.arr r.plane else s
    else if s.mayProgram r.arr then go.startCols r
    else s) s

/-- An array that waits in PROGRAMMING with nothing to do serves again: the switch that it was kept for is gone. -/
def State.freeIdle (s : State) (a : Nat) : State :=
  let x := s.arr a
  if x.st == .programming && x.prog == none && !s.model.switches.any (fun w => w.atomic && w.todo.any fun k => k.1 == a) then
    s.online a
  else s

/-- Arrays whose programs have ended serve again at a boundary (R149, R157). -/
def State.endPrograms (s : State) : State :=
  let l := s.arrs.map (·.1)
  l.foldl State.freeIdle (l.foldl State.leaveProgram s)

/-! ### Reports and indices (R297) -/

/-- `SWITCH_READY_REPORT` (R297): the holder with the lowest address collects the reports and, after the last, fixes the
index. -/
def execSwitchReadyReport (model gen holder : Nat) (s : State) : Res :=
  .next (
    match s.model.switches.find? fun w => w.model == model && w.gen == gen with
    | none => s
    | some w =>
      if s.fab.conflict || w.ready || !(s.otherHolders model).contains holder || (s.otherHolders model).any fun a => decide (a < s.dev) then s
      else s.fixIndex { w with reports := dedupN (holder :: w.reports) })

/-- `SWITCH_INDEX_RECEIVE` (R297): the index fixed by the holder with the lowest address. -/
def execSwitchIndexReceive (model gen index : Nat) (s : State) : Res :=
  .next (
    match s.model.switches.find? fun w => w.model == model && w.gen == gen with
    | none => s
    | some w => if w.todo = [] ∧ s.fab.conflict = false then s.putSwitch { w with ready := true, atQ := index } else s)

/-- `SWITCH_TIMEOUT` (R297): a switch over several engines whose index is not fixed is abandoned. -/
def execSwitchTimeout (model : Nat) (s : State) : Res :=
  .next (
    match s.switchOf model with
    | none => s
    | some w => if w.ready || s.otherHolders model == [] || s.isPlacement w then s else s.abandon w)

/-! ### Installation (R282 to R285) -/

/-- An installation that has its directory entry is refused or ended: what it wrote is freed and the entry removed, with the planes
that a generation installed again still held (R284, R298). -/
def State.undoInstall (s : State) (slot : Nat) : State :=
  match s.dirEnt slot with
  | none => s
  | some e => ((s.planesOf e.model e.gen).foldl State.freePlane s).freeEntry slot

/-- An installation ends without its generation: the completion with the status, and for an R284 reason the event. -/
def State.installFail (s : State) (c : Cmd) (p : Option Pkg) (status : Nat) : State :=
  let s : State := { s with model.install := none }
  let items := match p with | some p => [(4, p.model), (2, p.gen)] | none => []
  let s := if 0x10 ≤ status ∧ status ≤ 0x18 then
      (s.count (kEngine 8) 1).raise evModelInstallRefused (items ++ [(1, status)]) else s
  s.finish c status 0 0 []

/-- Whether the directory has room for a generation (R286): the entry to take and the entries to free first; or why not. -/
def State.dirPlace (s : State) (p : Pkg) : Except Nat (Nat × List Nat) :=
  match s.entOf p.model p.gen with
  | some (x, e) => if e.st = 5 ∨ e.st = 6 then .ok (x, []) else .error 0x14
  | none =>
    let low := match s.activeEnt p.model with | some (_, a) => decide (p.gen < a.gen) | none => false
    if low && !s.allowRollback then .error 0x14
    else
      let mine := s.nv.dir.filter fun q => q.2.model == p.model
      let may (q : Nat × DirEnt) := !q.2.active && ((q.2.st == 2 && !s.hasPending q.2) || q.2.st == 5 || q.2.st == 6)
      let drop := if mine.length < 2 then some []
        else ((sortBy (fun q : Nat × DirEnt => q.2.seq) (mine.filter may)).head?).map fun q => [q.1]
      match drop with
      | none => .error 0x15
      | some l =>
        match (List.range 1024).find? fun x => (s.dirEnt x).isNone || l.contains x with
        | some x => .ok (x, l)
        | none => .error 0x16

/-- Store sectors for the layers that are written: the runs, with the first sector ahead; where they do not fit, the space
policy evicts, or sends layers to tier 5 (R259, R290, R293). -/
def State.allocLayers (s : State) (x choice : Nat) (sizes : List Nat) : Option (List (List Nat)) × State :=
  let try_ (t : State) := pickRuns choice (1 :: sizes) t.freeRuns
  let s := if s.evictPolicy then s.makeRoom x true fun t => (try_ t).isSome else s
  (try_ s, s)

/-- The layers that fit, in order, and which go to tier 5: to the replica peer, or to the host spill region. -/
def spillPlan (choice tier spillN : Nat) : List Nat → List (Nat × Nat) → Nat → Option (List (Nat × List Nat))
  | [], _, _ => some []
  | n :: r, free, used =>
    match pickRun n choice free with
    | some l => (spillPlan choice tier spillN r (l.foldl (fun t x => cutRun x t) free) used).map ((0, l) :: ·)
    | none =>
      if tier = 1 then (spillPlan choice tier spillN r free used).map ((1, []) :: ·)
      else if used + n ≤ spillN then
        (spillPlan choice tier spillN r free (used + n)).map ((2, (List.range n).map (used + ·)) :: ·)
      else none

/-- Spill sectors that layers hold. -/
def State.spillUsed (s : State) : Nat :=
  maxN (s.nv.dir.flatMap fun p => p.2.layers.flatMap fun y => if y.spilled = 2 then y.sectors.map (· + 1) else [])

/-- A layer's sectors written where they go (R259, R282, R437). -/
def State.writeLayer (s : State) (tier : Nat) (secs : List Nat) (data : List (List Byte)) : State :=
  match tier with
  | 0 => ((secs.zip data).foldl (fun s p => s.writeSector p.1 p.2) s).count (kEngine 7) (4096 * data.length)
  | 2 => (secs.zip data).foldl (fun s p =>
      s.emit (.hostWrite (s.host.spillBase + 4096 * p.1) (Config.xtsEncrypt s.sec.spillKey p.1 p.2))) s
  | _ => s

/-- Steps 4 and 5 of R282 for a package that steps 1 to 3 admit: entry `x` in INSTALLING, sectors allocated, layers decrypted,
judged and written; the installation then waits for its completion. -/
def State.installLayers (s : State) (c : Cmd) (p : Pkg) (key : List Byte) (kid : List Byte) (x : Nat) : State :=
  let old := s.dirEnt x
  let s := s.freeLayers x
  let rep := flag c.p3 60
  let plain := p.entries.map fun e => (e, if p.v1 then none else s.sharedLayer e, p.layerSectors key e)
  let was := old.getD ⟨0, 0, 0, false, false, none, false, false, 0, 0, 0, none, [], [], [], []⟩
  let e : DirEnt :=
    { model := p.model, gen := p.gen, st := 1, active := was.active, pin := flag c.p3 61,
      replica := if rep then some (fld c.p3 59 48) else none, legacy := p.v1, bootAct := was.bootAct,
      seq := s.nv.dirSeq + 1, useRecent := was.useRecent, actSeq := was.actSeq, first := none, mdigest := [],
      keyId := kid, mhdr := p.mhdr, layers := plain.filterMap fun q => q.2.1.map fun l => ⟨q.1.take 64, q.1.drop 64, l, 0⟩ }
  let s : State := was.first.toList.foldl State.eraseLogical { s.setDir x e with nv.dirSeq := s.nv.dirSeq + 1 }
  let mineNew := plain.filter fun q => q.2.1.isNone
  let judge (q : List Byte × Option (List Nat) × List (List Byte)) :=
    if q.2.1.isSome then 0 else if layerBlocks q.1 q.2.2 ≠ 0 then layerBlocks q.1 q.2.2 else if p.digestOk q.1 q.2.2 then 0 else 0x18
  let bad := [0x10, 0x17, 0x18].find? fun r => plain.any fun q => judge q == r
  let s := (mineNew.flatMap fun q => q.2.2).foldl (fun s b => s.ccBlock (wpDecode b)) s
  let (n, s) := s.take
  let choice := Config.freeChoice n
  let sizes := mineNew.map fun q => q.2.2.length
  let (runs, s) := s.allocLayers x choice sizes
  let tier := if rep then 1 else 2
  let plan : Option (List Nat × List (Nat × List Nat)) :=
    match runs with
    | some (f :: r) => some (f, r.map fun l => (0, l))
    | _ =>
      if s.evictPolicy then none
      else
        match pickRun 1 choice s.freeRuns with
        | none => none
        | some f => (spillPlan choice tier (if s.sec.spillKey = [] then 0 else s.host.spillN) sizes
            (f.foldl (fun t y => cutRun y t) s.freeRuns) s.spillUsed).map fun l => (f, l)
  if bad = some 0x10 then (s.undoInstall x).installFail c (some p) 0x10
  else
  match plan with
  | none => (s.undoInstall x).installFail c (some p) 0x16
  | some (f, pl) =>
    match (f ++ pl.flatMap fun t => if t.1 = 0 then t.2 else []).find? s.protected_ with
    | some l => ((s.protRefused l).undoInstall x).installFail c (some p) 0x24
    | none =>
        let go := (plain.takeWhile fun q => judge q == 0).foldl (fun (a : State × List LayerRef × List (Nat × List Nat)) q =>
          match q.2.1 with
          | some secs => (a.1.count (kEngine 6) 1, a.2.1 ++ [⟨q.1.take 64, q.1.drop 64, secs, 0⟩], a.2.2)
          | none =>
            let t := a.2.2.headD (0, [])
            (a.1.writeLayer t.1 t.2 q.2.2, a.2.1 ++ [⟨q.1.take 64, q.1.drop 64, t.2, t.1⟩], a.2.2.drop 1)) (s, [], pl)
        match bad with
        | some r =>
          ((go.1.setDir x { e with layers := go.2.1 }).undoInstall x).installFail c (some p) r
        | none =>
        let dg := Config.sha512 p.cover
        let s := go.1.writeSector (f.headD 0) (dg ++ kid)
        let inst : Install := ⟨c, x, fld c.p3 63 62, c.p4.toNat, p.gen, p.model⟩
        let s : State :=
          { s.setDir x { e with first := f.head?, mdigest := dg, layers := go.2.1 } with model.install := some inst }
        s.raise evModelState [(4, p.model), (2, p.gen), (1, 1)]

/-- The installation of R282, steps 1 to 5, on the package's bytes; refused with the first reason of R284 that holds. -/
def State.installRun (s : State) (c : Cmd) (bytes : List Byte) : State :=
  match pkgRead bytes with
  | none => s.installFail c none 0x10
  | some p =>
    if !s.legacyOk p then s.installFail c (some p) 0x11
    else
      let k := if p.signed then s.verify 1 p.cover p.sig else none
      if p.signed ∧ k = none then (s.count (kEngine 12) 1).installFail c (some p) 0x12
      else
        let key := if p.v1 then some [] else s.contentKey p
        match key with
        | none => s.installFail c (some p) 0x13
        | some key =>
          let s := if p.v1 then s else s.count (kEngine 10) 1
          let kid := match k with | some m => (keyDigest m).take 8 | none => List.replicate 8 0
          match s.dirPlace p with
          | .error r => s.installFail c (some p) r
          | .ok (x, drop) =>
            match (drop.filterMap s.dirEnt).findSome? s.protEnt with
            | some l => (s.protRefused l).installFail c (some p) 0x24
            | none => (drop.foldl State.freeEntry s).installLayers c p key kid x

/-- Steps 6 and 7 of R282: the generation is STORED, the command's final completion is posted, and `SWITCH` is applied. -/
def State.installDone (s : State) (i : Install) : State :=
  let s : State := { s with model.install := none }
  match s.dirEnt i.slot with
  | none => s
  | some e =>
    let s : State := { s.setDir i.slot { e with seq := s.nv.dirSeq + 1 } with nv.dirSeq := s.nv.dirSeq + 1 }
    let s := (s.modelState i.slot 2).raise evModelInstalled [(4, i.model), (2, i.gen)]
    let s := s.finish i.cmd 0 i.model i.gen []
    let s : State := if e.active then { s with model.placeNext := s.model.placeNext ++ [i.slot] } else s
    if i.switch = 0 then s else s.activate i.slot (if i.switch = 2 then i.atQ else 0) none

/-- A warm reset abandons an installation: its command ends ABORTED, and its entry stays INSTALLING for the next boot to find (R285,
R412). -/
def State.loseInstall (s : State) : State :=
  match s.model.install with
  | none => s
  | some i => State.finish { s with model.install := none } i.cmd 0x0C 0 0 []

/-- An installation in progress aborted (R412). -/
def State.abortInstall (s : State) : State :=
  match s.model.install with
  | none => s
  | some i => ({ s with model.install := none }.undoInstall i.slot).finish i.cmd 0x0C 0 0 []

end Sys2Proof.Machine
end

