-- ==== Sys2Proof/Machine/Load.lean ====
section
/-!
DEFINITION. The placement as a whole: its trial at boot step 11 and what follows when it passes, the models that need an
excluded block, and the dormant placements (R207, R253, R288, R322 to R324, R389, R399, R461, R501).
-/

namespace Sys2Proof.Machine

/-- Engines for whose failure the re-map plan names this engine as standby (R322). -/
def State.standsFor (s : State) : List Nat :=
  dedupN ((s.cfg.remap.filter fun e => rmValid e && rmStandby e == s.dev).map rmFailed)

/-- The dormant flank descriptors that go to indices which the placement's own descriptors leave free. -/
def State.dormantDescs (s : State) : List (Nat × Nat × List DWord) :=
  let own := s.placement.descs.map fun p => (p.1, p.2.1)
  (s.standsFor.flatMap fun f => (s.placement.dormant f).descs).filter fun p => !own.contains (p.1, p.2.1)

/-- The placement loaded and checked (R389, R501): whether it passes, and the state, which has the placement then; where it fails,
nothing has changed but the activations with `BOOT_ACT`, made at a boot alone. The dormant placements' descriptors are loaded with
it, so that their models are placed and their planes programmed before any re-map (R323). -/
def State.tryPlacement (s : State) (boot : Bool) : Bool × State :=
  let l : Subs := s.placement.filter fun p => p.1 != 11
  let u := s.loadSubs l
  let xs := if boot then u.bootFits l else []
  let u := xs.foldl State.bootActivate u
  let u := (l.descs ++ u.dormantDescs).foldl (fun s p => s.loadDesc l.qctl p) u
  let u := u.lapse
  if u.placementOk then
    let u := (List.range 16).foldl State.pinFills u.placeModels
    (true, { u with run.placeOk := true })
  else (false, xs.foldl State.bootActivate s)

/-! ### What serves -/

/-- The tiles of a model that the placement in force names: not those that lie dormant. -/
def State.liveTiles (s : State) (m : Nat) : List (Nat × Nat × List DWord) :=
  let l := s.inForce.descs.map fun p => (p.1, p.2.1)
  (s.modelTiles m).filter fun t => l.contains (t.1, t.2.1)

/-- The flank that forms a tile's layer: its own, or the joining one. -/
def finalFlank (t : Nat × Nat × List DWord) : Nat := if lcRole t.2.2 = 1 then lcJoin t.2.2 else t.1

/-- A model needs a block that this boot excluded and that has no substitute (R461): a core of a program that serves it, an
adapter's or a stand-in's core, a loft slice, or a flank. -/
def State.lacksBlock (s : State) (m : Nat) : Bool :=
  let l := s.inForce
  let cores := (bitsSet 64 s.placement.spillCores).any s.excl
  (l.progs.any fun p => p.models.contains m && p.cores.any s.excl)
    || ((s.liveTiles m).any fun t =>
      (lpAdapt t.2.2 && s.excl (lpCore t.2.2)) || (s.arr (finalFlank t)).flankOut
        || (lpStandin t.2.2 && cores && !(s.arr t.1).serves))
    || l.reels.any fun p => s.excl (112 + p.1) && p.2.2.any fun e => reEn e && reModel e == m

end Sys2Proof.Machine
end

