-- ==== Sys2Proof/Machine/Host.lean ====
section
/-!
DEFINITION. The host interface: the link, the rings, the registers, the checks and the order of commands, commands from
peers and forwarded commands (R332 to R336, R404 to R417).
-/

namespace Sys2Proof.Machine

/-! ### Held completions and the end of long commands (R335, R407, R412) -/

/-- Held completions are written, in order, while the completion ring is enabled and host DMA runs. -/
def State.flushHeld (s : State) : State :=
  if s.dmaOn && s.host.cq.en then
    let l := s.host.held
    l.foldl State.writeCpl { s with host.held := [] }
  else s

/-- Held completions that the rings' reset discards; those of abandoned installations wait on for the rings (R335). -/
def State.loseHeld (s : State) : State :=
  let keep := s.host.held.filter fun c => c.status == 0x0B
  ({ s with host.held := keep }).count (kHost 3) (s.host.held.length - keep.length)

/-- The calibrations that a command asked for are taken from the queues. -/
def State.dropCals (s : State) (c : Cmd) : State :=
  let s := s.arrs.foldl (fun s p =>
    let q := p.2.calQ.filter fun r => r.cmd != some c
    let first := match p.2.calQ with | r :: _ => r.cmd == some c | [] => false
    s.setArr p.1 { s.arr p.1 with calQ := q, calDone := if first then 0 else p.2.calDone }) s
  { s with host.cals := s.host.cals.filter fun x => x.1 != c }

/-- The long commands of the given opcodes end with ABORTED (R412). -/
def State.abortCmds (s : State) (ops : List Nat) : State :=
  (s.host.long.filter fun c => ops.contains c.opcode).foldl (fun s c => (s.dropCals c).finish c 0x0C 0 0 []) s

/-- What a change of run state ends: an installation, the pending switches, and the long commands named. -/
def State.abortLong (s : State) (ops : List Nat) : State := (s.abortInstall.abandonAll).abortCmds ops

/-! ### The host link (R332 to R336) -/

/-- An installation whose package comes from host memory is abandoned; its completion waits for the rings (R335). -/
def State.dmaStopped (s : State) : State :=
  match s.model.install with
  | none => s
  | some i =>
    if i.cmd.src ≠ .host then s
    else
      let s := { s with model.install := none }.undoInstall i.slot
      let c := i.cmd
      let cpl : Cpl := ⟨.host, c.tag, 0x0B, 0, 0, 0, c.irq, s.host.sq.head, []⟩
      { s with host.long := s.host.long.erase c, host.held := s.host.held ++ [cpl], host.owed := s.host.owed - 1 }

/-- Rings, doorbells and the MSI-X table at their reset values (R334). -/
def State.hostReset (s : State) : State :=
  let s := s.loseHeld
  { s with host.sq := .reset, host.cq := .reset, host.eq := .reset, host.tq := .reset, host.phase := true, host.neg := 0x12,
           host.msix := [], host.pba := [], host.d3 := false }

/-- The registration of the spill region ends: every generation with a layer in it becomes EVICTED, also one whose store sectors are
write-protected and stay (R293, R335, R371). -/
def State.voidSpill (s : State) : State :=
  let l := (s.nv.dir.filter fun p => p.2.layers.any fun y => y.spilled == 2).map (·.1)
  let s := l.foldl (fun s x =>
    let s := (s.evictPlanes x).evictStore x
    match s.dirEnt x with
    | some e => if e.st = 6 then s else (s.cancelModel e.model).modelState x 6 |>.evicted e.model (if e.active then s.slotsNaming e.model else [])
    | none => s) s
  { s with host.spillBase := 0, host.spillN := 0 }

/-- `HOST_LINK_STATE`: rate and width where they change (R351). -/
def State.hostLink (s : State) (up : Bool) (rate width : Nat) : State :=
  let ch := s.host.rate ≠ rate ∨ s.host.width ≠ width
  let s : State := { s with host.up := up, host.rate := rate, host.width := width }
  if ch then s.raise evHostLinkState [(1, rate), (1, width)] else s

/-- `HOST_LINK_DOWN` (R334, R335). -/
def execHostLinkDown (s : State) : Res :=
  .next (if s.host.up then (s.hostReset.hostLink false 0 0).dmaStopped else s)

/-- `HOST_LINK_UP` (R332, R336, R351): the link trains from boot step 8 on, while the lasers of its chiplet are lit; each training
after the first is a retrain. -/
def execHostLinkUp (rate width : Nat) (s : State) : Res :=
  .next (if s.port.lit && !nth false s.port.dark 0 && (rate == 8 || rate == 16 || rate == 32)
    && (width == 1 || width == 2 || width == 4) then
      (State.hostLink { s with host.trained := true } true rate width).count (kHost 0) (b2n s.host.trained) else s)

/-- `HOST_FLR` (R334, R335). -/
def execHostFlr (s : State) : Res :=
  .next (if s.host.up then State.voidSpill { s.hostReset.dmaStopped with host.dmaHeld := true } else s)

/-- `HOST_HOT_RESET` (R334, R335): a hot reset or PERST#, after which the link trains again. -/
def execHostHotReset (s : State) : Res :=
  .next (State.voidSpill { (s.hostReset.hostLink false 0 0).dmaStopped with host.dmaHeld := true })

/-- `HOST_D3HOT_ENTRY` (R334). -/
def execHostD3hotEntry (s : State) : Res :=
  .next (if s.host.up then ({ s with host.d3 := true }).dmaStopped else s)

/-- `HOST_D0_RETURN` (R334): the rings go on with their state. -/
def execHostD0Return (s : State) : Res := .next (if s.host.d3 then ({ s with host.d3 := false }).flushHeld else s)

/-! ### Rings and registers (R404 to R407) -/

/-- A doorbell of an enabled ring with a value in range. -/
def State.doorbell (s : State) (r : Ring) (v : DWord) (f : State → Nat → State) : State :=
  if !s.host.up || s.host.d3 || !r.en then s
  else if r.size ≤ fld v 15 0 then s.raise evHostRingError []
  else f s (fld v 15 0)

/-- `SQ_TAIL_WRITE` (R406). -/
def execSqTailWrite (v : DWord) (s : State) : Res :=
  .next (s.doorbell s.host.sq v fun s n => { s with host.sq.tail := n })

/-- `CQ_HEAD_WRITE` (R407). -/
def execCqHeadWrite (v : DWord) (s : State) : Res :=
  .next (s.doorbell s.host.cq v fun s n => { s with host.cq.head := n })

/-- `EQ_HEAD_WRITE` (R407). -/
def execEqHeadWrite (v : DWord) (s : State) : Res :=
  .next (s.doorbell s.host.eq v fun s n => { s with host.eq.head := n })

/-- `TQ_HEAD_WRITE` (R407): freed entries take records that waited. -/
def execTqHeadWrite (v : DWord) (s : State) : Res :=
  .next (s.doorbell s.host.tq v fun s n => { s with host.tq.head := n }.moveTrace)

/-- A ring's configuration written (R406): fields as written; enabling it resets its pointers. -/
def Ring.cfgWrite (r : Ring) (v : DWord) (hi : Nat) : Ring × Bool :=
  let n := fld v 3 0
  let bad := flag v 63 && !(decide (4 ≤ n) && decide (n ≤ hi))
  let en := flag v 63 && !bad
  let r' : Ring := { r with en := en, irqEn := flag v 62, vec := fld v 52 48, log2n := n }
  (if en && !r.en then { r' with head := 0, tail := 0 } else r', bad)

/-- `RING_CFG_WRITE` (R334, R406, R415): the enabling of a ring ends the stop of host DMA after a reset of the function. A length out of range leaves the ring disabled with `HOST_RING_ERROR`; enabling the
completion ring sets its phase and lets the held completions go; enabling the submission ring returns to version 1.2. -/
def execRingCfgWrite (ring : Nat) (v : DWord) (s : State) : Res :=
  inUnit ring 4 (
    if !s.host.up || s.host.d3 then s
    else
      let err (s : State) (bad : Bool) := if bad then s.raise evHostRingError [] else s
      let s : State := { s with host.dmaHeld := s.host.dmaHeld && !(flag v 63) }
      match ring with
      | 0 =>
        let (r, bad) := s.host.sq.cfgWrite v 12
        err { s with host.sq := r, host.neg := if r.en && !s.host.sq.en then 0x12 else s.host.neg } bad
      | 1 =>
        let (r, bad) := s.host.cq.cfgWrite v 12
        (err { s with host.cq := r, host.phase := s.host.phase || (r.en && !s.host.cq.en) } bad).flushHeld
      | 2 =>
        let (r, bad) := s.host.eq.cfgWrite v 15
        err { s with host.eq := r } bad
      | _ =>
        let (r, bad) := s.host.tq.cfgWrite v 15
        (err { s with host.tq := r } bad).moveTrace)

/-- A ring base with bits [11:0] zero; ignored while the ring is enabled (R404, R406). -/
def Ring.baseWrite (r : Ring) (v : DWord) : Ring := if r.en then r else { r with base := BitVec.ofNat 64 (fld v 63 12 * 4096) }

/-- `RING_BASE_WRITE` (R404, R406). -/
def execRingBaseWrite (ring : Nat) (v : DWord) (s : State) : Res :=
  inUnit ring 4 (
    if !s.host.up || s.host.d3 then s
    else
      match ring with
      | 0 => { s with host.sq := s.host.sq.baseWrite v }
      | 1 => { s with host.cq := s.host.cq.baseWrite v }
      | 2 => { s with host.eq := s.host.eq.baseWrite v }
      | _ => { s with host.tq := s.host.tq.baseWrite v })

/-- `EVT_SUMMARY_CLEAR` (R7, R405): a 1 clears `EQ_OVF` or a severity bit. -/
def execEvtSummaryClear (v : DWord) (s : State) : Res :=
  .next { s with host.eqOvf := s.host.eqOvf && !flag v 7, host.sev := s.host.sev - (s.host.sev &&& fld v 3 0) }

/-- `REGISTER_WRITE` (R7, R8, R332, R333): what has no row of its own and can be written is the MSI-X table, a 64-bit half of an
entry at a time; a vector that is unmasked with its pending bit set is sent. A write to any other such register is ignored. -/
def execRegisterWrite (off : Nat) (v : DWord) (s : State) : Res :=
  .next (
    if s.host.up ∧ ¬ s.host.d3 ∧ 0xF0000 ≤ off ∧ off < 0xF0000 + 512 ∧ off % 8 = 0 then
      let i := (off - 0xF0000) / 16
      let w := (tget 0 s.host.msix i).toNat
      let w' := if off % 16 = 0 then w / 2 ^ 64 * 2 ^ 64 + v.toNat else v.toNat * 2 ^ 64 + w % 2 ^ 64
      let s : State := { s with host.msix := tset 0 s.host.msix i (BitVec.ofNat 128 w') }
      if s.host.pba.contains i && !s.vecMasked i then
        { s with host.pba := s.host.pba.filter (· != i) }.emit (.msix i) else s
    else s)

/-- `BAR0_BAD_ACCESS` (R404): an access that is not an aligned one of 4 or 8 bytes is counted, and nothing else. -/
def execBar0BadAccess (off size : Nat) (_write : Bool) (s : State) : Res :=
  .next (if (size = 4 ∨ size = 8) ∧ off % size = 0 then s else s.count (kHost 4) 1)

/-! ### The opcodes (R413) -/

/-- A row of R413: the first version that has it; the run states (bit 0 RUN, 1 MAINTENANCE, 2 SHUTDOWN); whether it is
long; its buffer (0 none, 1 input, 2 output); the life-cycle states, bit by `LC`; the peer rule (0 no, 1 `PEER_CMD`,
2 mooring, 3 always); and the bits that P1 to P6 may have. -/
structure OpRow where
  since : Nat
  runs : Nat
  long : Bool
  buf : Nat
  lcs : Nat
  peer : Nat
  p1 : Nat
  p2 : Nat
  p3 : Nat
  p456 : Nat
deriving DecidableEq, Repr

def all64 : Nat := 2 ^ 64 - 1

/-- The bits of the BIST slice mask (R457). -/
def bistMask : Nat := 0xFFFF800000000000

def opRow (op : Nat) : Option OpRow :=
  match op with
  | 0x01 => some ⟨0x12, 7, false, 0, 31, 3, 0xFFFF, 0, 0, 0⟩
  | 0x02 => some ⟨0x12, 7, false, 2, 31, 3, 0, 0, 0, 0⟩
  | 0x10 => some ⟨0x12, 3, true, 0, 31, 2, 7, 0, 0, 0⟩
  | 0x11 => some ⟨0x12, 7, false, 0, 31, 2, 0, 0, 0, 0⟩
  | 0x20 => some ⟨0x12, 7, true, 1, 15, 1, 0, 0, 0, 0⟩
  | 0x21 => some ⟨0x12, 7, false, 2, 31, 0, 0, 0, 1, 0⟩
  | 0x30 => some ⟨0x12, 3, true, 1, 14, 1, 0, 0, 0xFFFF000000000000, all64⟩
  | 0x31 => some ⟨0x20, 3, true, 0, 14, 1, 0xFFFFFFFFFFFF0000, all64, 0, 0⟩
  | 0x32 => some ⟨0x12, 7, false, 2, 31, 1, 0, 0, 0, 0⟩
  | 0x33 => some ⟨0x20, 3, false, 0, 14, 1, 0xFFFFFFFFFFFF0000, 0, 0, 0⟩
  | 0x34 => some ⟨0x22, 3, false, 0, 14, 0, 0xFFFFFFFFFFFFF000, 0xFFFFFFFF, 0, 0⟩
  | 0x40 => some ⟨0x12, 3, true, 0, 15, 1, 0xFFFFFFFFFFFF, 0xFFFF, 0, 0⟩
  | 0x41 => some ⟨0x20, 2, true, 0, 9, 0, bistMask, 0, 0, 0⟩
  | 0x42 => some ⟨0x23, 3, false, 0, 8, 0, all64, 0, 0, 0⟩
  | 0x43 => some ⟨0x23, 3, false, 0, 8, 0, 0, 0, 0, 0⟩
  | 0x50 => some ⟨0x12, 7, false, 2, 31, 1, 0, 0, 0xFFFFFFFFFFFF0001, 0⟩
  | 0x51 => some ⟨0x20, 7, false, 0, 31, 3, all64, 1, 0, 0⟩
  | 0x52 => some ⟨0x12, 7, false, 2, 31, 1, 0, 0, 0, 0⟩
  | 0x53 => some ⟨0x20, 7, false, 2, 31, 0, 0, 0, all64, 0⟩
  | 0x60 => some ⟨0x20, 7, false, 2, 31, 1, 0, 0, all64, all64⟩
  | 0x61 => some ⟨0x20, 2, true, 1, 15, 0, 0, 0, 0, 0⟩
  | 0x62 => some ⟨0x20, 2, false, 0, 8, 0, 7, 0, 0, 0⟩
  | 0x70 => some ⟨0x22, 1, true, 0, 14, 1, 0xFFF, 0, 0, 0⟩
  | _ => none

/-- A number has no bit outside a mask. -/
def inMask (m w : Nat) : Bool := w &&& m == w

/-- Units of each self-test class (R450). -/
def bistUnits : List Nat := [64, 64, 16, 48, 48, 2, 15]

/-- The parameters' own ranges (R8, R413, R415, R457). -/
def cmdRanges (c : Cmd) (ver : Nat) : Bool :=
  let p1 := c.p1.toNat
  match c.opcode with
  | 0x10 => p1 == 2 || p1 == 3 || p1 == 4
  | 0x30 => fld c.p3 63 62 != 3 && (decide (0x20 ≤ ver) || (decide (fld c.p3 63 62 < 2) && fld c.p3 60 48 == 0))
      && c.p5 == 0 && c.p6 == 0
  | 0x41 =>
    let cl := bf p1 63 57
    let un := bf p1 55 48
    (!p1.testBit 47 || p1.testBit 56)
      && (!p1.testBit 56 || (List.range 7).all fun i => !cl.testBit i || decide (un < nth 0 bistUnits i))
  | 0x50 => decide (1 ≤ fld c.p3 31 16 ∧ fld c.p3 31 16 ≤ 8192)
  | 0x62 => decide (1 ≤ p1 ∧ p1 ≤ 4)
  | _ => true

/-- Step 3 of R411: reserved fields and parameters, and the buffer list (R408, R410). -/
def cmdWellFormed (c : Cmd) (r : OpRow) (ver : Nat) : Bool :=
  fld c.w0 53 48 == 0 && fld c.w0 18 0 == 0 && (!c.fence || decide (0x20 ≤ ver)) && (!c.fwd || decide (0x21 ≤ ver))
    && (if r.buf = 0 then inMask r.p1 c.p1.toNat && inMask r.p2 c.p2.toNat
        else if c.src = .host then
          c.p1.toNat % 16 == 0 && fld c.p2 15 0 == 0 && decide (1 ≤ fld c.p2 31 16 ∧ fld c.p2 31 16 ≤ 4096) && c.listOk
        else true)
    && inMask r.p3 c.p3.toNat && inMask r.p456 c.p4.toNat && inMask r.p456 c.p5.toNat && inMask r.p456 c.p6.toNat
    && cmdRanges c ver

/-- The command-set version in force for a sender (R415, R416). -/
def State.verOf (s : State) (src : Src) : Nat :=
  match src with | .host => s.host.neg | .peer a => tget 0x20 s.host.peerNeg a

/-- The bit of the run state in R413's letters. -/
def State.runBit (s : State) : Nat :=
  match s.run.st with | .run => 1 | .maintenance => 2 | .shutdown => 4 | _ => 0

/-- The commands, accepted and not ended, whose change of run state has not taken effect: a SET_RUN_STATE that waits for the end of
its SHUTDOWN has had its change (R18, R413). -/
def State.changeCmds (s : State) : List Cmd :=
  (s.host.accepted ++ s.host.long).filter fun c =>
    c.opcode == 0x11 || (c.opcode == 0x10 && !(s.run.st == .shutdown && s.run.pendCmd == some c))

/-- A run-state change or a warm reset is pending, from the moment its command is accepted until the new state takes effect (R18). -/
def State.runPending (s : State) : Bool := s.run.pend.isSome || s.run.resetting.isSome || s.changeCmds != []

/-- R416's rule for a command from a peer. -/
def State.peerOk (s : State) (c : Cmd) (r : OpRow) (a : Nat) : Bool :=
  (s.lc == 1 || s.lc == 2 || s.lc == 3)
    && (match r.peer with
      | 0 => false
      | 1 => s.peerCmd
      | 2 => if s.isCascade then a == 0 else s.peerCmd
      | _ => true)
    && (!(s.isCascade && (c.opcode == 0x10 || c.opcode == 0x11)) || a == 0)

/-- Commands of an opcode that are in progress. -/
def State.inProgress (s : State) (op : Nat) : Nat :=
  ((s.host.accepted ++ s.host.long).filter fun c => c.opcode == op).length

/-- The checks of R411 from step 2 on: the first failing status. -/
def State.checkCmd (s : State) (c : Cmd) : Option Nat :=
  let ver := s.verOf c.src
  match opRow c.opcode with
  | none => some 0x02
  | some r =>
    if ver < r.since then some 0x02
    else if !cmdWellFormed c r ver then some 0x03
    else if c.fwd && c.src == .host then none
    else if !r.lcs.testBit s.lc || (c.opcode == 0x10 && c.p1 == 2 && (s.lc == 0 || s.lc == 4)) then some 0x05
    else if c.opcode = 0x41 ∧ s.run.st = .run then some 0x06
    else if c.opcode = 0x10 ∧ c.src = .host ∧ s.isCascade ∧ s.fab.position ≠ 0 then some 0x50
    else if r.runs &&& s.runBit = 0 then some 0x04
    else if (c.opcode = 0x10 ∨ c.opcode = 0x11) ∧ s.runPending then some 0x04
    else
      let refused := match c.src with | .host => false | .peer a => !s.peerOk c r a
      if refused then some 0x08
      else if c.opcode = 0x61 ∧ s.host.long ≠ [] then some 0x07
      else if r.long && decide ((if c.opcode = 0x40 then 16 else 1) ≤ s.inProgress c.opcode) then
        some (if c.opcode = 0x30 then 0x15 else 0x07)
      else none

/-- The engine takes commands: not before boot ends, not while an LC_TRANSITION runs or a warm reset drains (R413, R441). -/
def State.takes (s : State) : Bool :=
  s.runBit != 0 && s.run.resetting.isNone && !s.host.long.any fun c => c.opcode == 0x61

/-- One more final completion is owed to the host (R407). -/
def State.owe (s : State) (c : Cmd) : State :=
  if c.src = .host then { s with host.owed := s.host.owed + 1 } else s

/-- A command that fails a check completes with the status; a second installation counts as refused (R284, R411). -/
def State.refuseCmd (s : State) (c : Cmd) (status : Nat) : State :=
  let s := if status = 0x15 then (s.count (kEngine 8) 1).raise evModelInstallRefused [(1, status)] else s
  (s.owe c).answerCmd c status 0 0 []

/-- A command that passes its checks is accepted; a long one posts its `KIND` 1 completion, but not at version 1.2
(R411, R415). -/
def State.acceptCmd (s : State) (c : Cmd) : State :=
  let long := match opRow c.opcode with | some r => r.long | none => false
  let s := s.owe c
  let s := if long && decide (0x20 ≤ s.verOf c.src) then
      s.postCpl ⟨c.src, c.tag, 0, 1, 0, 0, c.irq, s.host.sq.head, []⟩ else s
  { s with host.accepted := s.host.accepted ++ [c] }

/-- An accepted command starts, unless its `FENCE` holds it; one whose data could not be read ends with DMA_ERROR (R411,
R413). -/
def State.startCmd (s : State) (c : Cmd) (f : State → State) : State :=
  let wait := c.fence && (s.host.long.any (fun x => x.src == c.src) || (c.src == .host && s.host.fwd != []))
  if wait then s
  else
    let long := match opRow c.opcode with | some r => r.long | none => false
    let l := if long then s.host.long ++ [c] else s.host.long
    let s : State := { s with host.accepted := s.host.accepted.erase c, host.long := l }
    let s := s.traceCmd c
    if !c.dmaOk then s.finish c 0x0A 0 0 [] else f s

/-- A command of the ROM command set (R411, R412): the first of those accepted starts; with none accepted, it is checked
and accepted first (log entry 24). -/
def State.runCmd (s : State) (op : Nat) (c : Cmd) (f : State → State) : State :=
  if c.opcode ≠ op ∨ c.fwd then s
  else
    match s.host.accepted with
    | [] =>
      if !s.takes then s
      else
        match s.checkCmd c with
        | some st => s.refuseCmd c st
        | none => (s.acceptCmd c).startCmd c f
    | x :: _ => if x = c then s.startCmd c f else s

/-! ### Fetching (R406, R407, R411) -/

/-- The command that 64 bytes spell (R408). -/
def cmdOf (src : Src) (b data : List Byte) (listOk dmaOk : Bool) : Cmd :=
  let w (i : Nat) : DWord := BitVec.ofNat 64 (leAt b (8 * i) 8)
  ⟨src, w 0, w 1, w 2, w 3, w 4, w 5, w 6, data, listOk, dmaOk⟩

/-- The 64 bytes of a command. -/
def cmdBytes (c : Cmd) : List Byte :=
  let b := ofDwords [c.w0, c.p1, c.p2, c.p3, c.p4, c.p5, c.p6] ++ leBytes 4 0
  b ++ leBytes 4 (crc32c b)

/-- A command relayed to `TARGET` as a peer command from this control complex (R417): `FWD` and `TARGET` cleared, its data
behind it, or as a bulk transfer that P1 names (log entry 27). -/
def State.relay (s : State) (c : Cmd) : State :=
  let t := c.target
  let s := s.owe c
  if t ≠ s.dev ∧ (s.routeTo t).isNone then s.answerCmd c 0x0F 0 0 []
  else
    let w0 : DWord := BitVec.ofNat 64 (fld c.w0 63 32 * 2 ^ 32)
    let big := decide (8128 < c.data.length)
    let buf := match opRow c.opcode with | some r => r.buf != 0 | none => false
    let p1 := if buf then (if big then BitVec.ofNat 64 (c.tag % 128) else 0) else c.p1
    let ps := chunks 4096 c.data
    let gen := if c.opcode = 0x30 then bf (leAt c.data 8 8) 31 16 else 0
    let s := if big then
        ((List.range ps.length).zip ps).foldl (fun s x => s.bulkShard t (c.tag % 128) gen x.1 x.2)
          { s with fab.bulkOut := tput s.fab.bulkOut (128 * t + c.tag % 128) (some (gen, ps)) }
      else s
    let m := mkMsg (remoteAddr t 4 0 0) (localAddr 4 0 0) 0 0 false 0 s.qindex 0
      (cmdBytes { c with w0 := w0, p1 := p1, p2 := if buf then 0 else c.p2 } ++ if big then [] else c.data)
    let s := s.send m
    { s with host.fwd := s.host.fwd ++ [⟨c.tag, t, c.irq, s.host.sq.head, fld c.p2 63 32⟩] }

/-- Checks 1 to 3 of R411 that need the bytes: the CRC, and the reserved bytes 56 to 59. -/
def State.takeCmd (s : State) (c : Cmd) (b : List Byte) : State :=
  if crc32c (b.take 60) ≠ leAt b 60 4 then s.refuseCmd c 0x01
  else
    match s.checkCmd c with
    | some 0x02 => s.refuseCmd c 0x02
    | r =>
      if leAt b 56 4 ≠ 0 then s.refuseCmd c 0x03
      else
        match r with
        | some st => s.refuseCmd c st
        | none =>
          if c.fwd && c.src == .host then
            (if c.dmaOk then s.relay c else s.refuseCmd c 0x0A)
          else s.acceptCmd c

/-- `COMMAND_FETCH` (R406, R407, R411): the command at the submission head is fetched where the completion ring has room for
every completion owed, and is checked. -/
def execCommandFetch (bytes data : List Byte) (listOk dmaOk : Bool) (s : State) : Res :=
  .next (
    let b := fit 0 64 bytes
    let c := cmdOf .host b data listOk dmaOk
    let long := match opRow c.opcode with | some r => r.long && decide (0x20 ≤ s.host.neg) | none => false
    let q := s.host.sq
    if !s.dmaOn || !q.en || !s.host.cq.en || q.head == q.tail || !s.takes
        || decide (s.host.cq.room < s.host.owed + s.host.held.length + (if long then 2 else 1)) then s
    else { s with host.sq.head := (q.head + 1) % q.size }.takeCmd c b)

/-! ### Peers (R416, R417) -/

/-- The bytes that a package or a record has by its own header (R275, R276, R281, R378). -/
def bulkLen (opcode : Nat) (b : List Byte) : Nat :=
  if opcode = 0x30 then
    pkgPayloadAt (bf (leAt b 0 8) 47 32 == 1) ((leAt b 0 8).testBit 48) (bf (leAt b 16 8) 63 32) + 4096 * bf (leAt b 16 8) 31 0
  else hdLength (leAt b 0 32)

/-- The data of a bulk transfer: its sectors in order; none where one is missing, at the end too, or the transfer failed (R317). -/
def State.bulkData (s : State) (src transfer opcode : Nat) : Option (List Byte) :=
  let no := if 0x30 ≤ s.pathVersion src s.dev then transfer % 128 else transfer % 13
  match tfind s.fab.bulk (128 * src + no) with
  | none => none
  | some b =>
    let d := b.data.flatMap (·.2)
    if b.failed || b.data.map (·.1) != List.range b.data.length || decide (d.length < bulkLen opcode d) then none else some d

/-- `PEER_COMMAND` (R18, R310, R416): a command with its data from the engine at `src`; more than 8,128 bytes come as a bulk transfer,
which the command ends. While a warm reset drains, a run-state or warm-reset command is still completed, with its refusal. -/
def execPeerCommand (src : Nat) (bytes data : List Byte) (s : State) : Res :=
  .next (
    let b := fit 0 64 bytes
    let c := cmdOf (.peer src) b data true true
    let late := s.run.resetting.isSome && s.runBit != 0 && (c.opcode == 0x10 || c.opcode == 0x11)
    if s.fab.conflict || !(s.takes || late) || bytes.length != 64 || decide (8128 < data.length) then s
    else if (c.opcode = 0x20 ∨ c.opcode = 0x30) ∧ data = [] then
      let d := s.bulkData src (fld c.p1 6 0) c.opcode
      let s : State := { s with fab.bulk := tdel s.fab.bulk (128 * src + fld c.p1 6 0) }
      match d with
      | some d => s.takeCmd { c with data := d } b
      | none => s.refuseCmd c 0x0B
    else s.takeCmd c b)

/-- A forwarded command's completion on the host's ring (R417). -/
def State.fwdDone (s : State) (f : FwdSt) (status r0 r1 : Nat) (data : List Byte) : State :=
  let short := decide (data ≠ []) && decide (f.total < data.length)
  { s with host.fwd := s.host.fwd.erase f }.postCpl
    { dst := .host, tag := f.tag, status := if short then 0x0D else status, kind := 0,
      r0 := if short then data.length else r0, r1 := r1, irq := f.irq, head := f.head,
      data := if short then data.take f.total else data }

/-- `FWD_COMPLETION_RECEIVE` (R310, R417): one that comes after the time-out finds no command and is discarded. -/
def execFwdCompletionReceive (tag status result0 result1 : Nat) (data : List Byte) (s : State) : Res :=
  .next (
    if s.fab.conflict then s else
    match s.host.fwd.find? fun f => f.tag == tag with
    | some f => s.fwdDone f status result0 result1 data
    | none => s)

/-- `FWD_TARGET_TIMEOUT` (R417). -/
def execFwdTargetTimeout (tag : Nat) (s : State) : Res :=
  .next (
    match s.host.fwd.find? fun f => f.tag == tag with
    | some f => s.fwdDone f 0x0F 0 0 []
    | none => s)

/-- `EVENT_FORWARD_RECEIVE` (R310, R485): a peer's record goes unchanged to this engine's own event ring. -/
def execEventForwardReceive (rec : List Byte) (s : State) : Res :=
  .next (if s.fab.conflict then s else s.postHost ⟨leAt rec 0 8, leAt rec 8 8, fit 0 16 (rec.drop 16)⟩)

end Sys2Proof.Machine
end

