-- ==== Sys2Proof/Machine/Supply.lean ====
section
/-!
DEFINITION. The supply: glitches, the VCORE reference, droop and clock stretching, the three demands and the ballast order
(R419 to R430).
-/

namespace Sys2Proof.Machine

/-- The monitors work (R430). -/
def State.monitored (s : State) : Bool := s.sup.good

/-- References of the rails in mV, in the order of R418: VCORE's is the one in force (R419). -/
def State.refs (s : State) : List Nat := [s.sup.vref, 800, 1800, 1200, 1000, 2500, 1800]

/-- `SUPPLY_GLITCH` (R420). -/
def execSupplyGlitch (rail : Nat) (s : State) : Res :=
  inUnit rail 7 (if s.monitored then s.count (kSupply (8 + rail)) 1 else s)

/-! ### V_REQ (R419) -/

/-- `VREQ_ANNOUNCE` (R419): V_REQ moves by 10 mV, within its range, while no other change is announced. -/
def execVreqAnnounce (mV : Nat) (s : State) : Res :=
  .next (
    if s.monitored ∧ s.run.step > 2 ∧ s.sup.vnext = none ∧ 600 ≤ mV ∧ mV ≤ 800
        ∧ (mV = s.sup.vref + 10 ∨ mV + 10 = s.sup.vref) then
      { s with sup.vreq := mV, sup.vnext := some mV }.raise evSupplyVreq [(2, mV)]
    else s)

/-- `VREQ_APPLY` (R419): the announced reference takes effect. -/
def execVreqApply (s : State) : Res :=
  .next (match s.sup.vnext with | some mV => { s with sup.vref := mV, sup.vnext := none } | none => s)

/-! ### Droop (R421, R422) -/

/-- Unstretched ARITH cycles of a window, times the sample rate: Q - 2 samples at 2.0 GHz (R31). -/
def State.windowSlots (s : State) : Nat := (s.q - 2) * 2000000000

/-- Lost ARITH slots counted; beyond 1/16 of the window they raise DROOP_STORM, once for the quantum (R422). -/
def State.loseSlots (s : State) (n : Nat) : State :=
  let s := s.count (kSupply 1) n
  if !s.time.windowOpen then s
  else
    let s : State := { s with sup.lost := s.sup.lost + n }
    if !s.sup.storm && decide (s.windowSlots < 16 * s.sup.lost * rateHz s.time.rate) then
      { s with sup.storm := true }.raise evDroopStorm []
    else s

/-- `DROOP_DETECT` (R421, R422): a fire at full frequency or in a ramp starts a hold; one during the hold only extends it
(log entry 29). What a ramp had lost when it was cut depends on timing and is free within the ramp's own bound. -/
def execDroopDetect (s : State) : Res :=
  .next (
    if !s.monitored || s.sup.stretch == 1 then s
    else
      let cut := match s.sup.stretch with | 2 => 17 | 3 => 9 | _ => 1
      let (n, s) := s.take
      let s := if cut = 1 then s else s.loseSlots (Config.freeCycles n % cut)
      { s with sup.stretch := 1 }.count (kSupply 0) 1)

/-- `STRETCH_HOLD_END` (R421): at least 64 half-frequency cycles have run, each of which lost one slot. -/
def execStretchHoldEnd (cycles : Nat) (s : State) : Res :=
  .next (if s.sup.stretch = 1 ∧ 64 ≤ cycles then State.loseSlots { s with sup.stretch := 2 } cycles else s)

/-- `RAMP_STEP_END` (R421): 64 slots of which every fourth, then 64 of which every eighth, had no edge. -/
def execRampStepEnd (s : State) : Res :=
  .next (
    match s.sup.stretch with
    | 2 => State.loseSlots { s with sup.stretch := 3 } 16
    | 3 => State.loseSlots { s with sup.stretch := 0 } 8
    | _ => s)

/-! ### Demands and stages (R423 to R429) -/

/-- The word of stage `k` (R392) and its fields. -/
def State.stageWord (s : State) (k : Nat) : DWord := nth 0 s.cfg.stages (k - 1)
def sgEn (w : DWord) : Bool := flag w 63
def sgVEnter (w : DWord) : Nat := fld w 62 53
def sgVHyst (w : DWord) : Nat := fld w 52 45
def sgTEnter (w : DWord) : Nat := fld w 44 37
def sgTHyst (w : DWord) : Nat := fld w 36 32

/-- The next enabled stage above `j`, and the enabled stage below `k`, 0 for none (R423). -/
def State.stageUp (s : State) (j : Nat) : Option Nat :=
  (List.range 9).find? fun k => decide (j < k) && sgEn (s.stageWord k)
def State.stageDown (s : State) (k : Nat) : Nat :=
  maxN ((List.range k).filter fun j => decide (1 ≤ j) && sgEn (s.stageWord j))

/-- Priority classes that the stage in force sheds: P3 from B6, P2 from B7, P1 from B8, in RUN (R427, R430). -/
def State.shedNow (s : State) : List Nat :=
  if s.inRun then [(3, 6), (2, 7), (1, 8)].filterMap fun p => if s.ballast p.2 then some p.1 else none else []

/-- Tether ports light or go dark as they may (R306). -/
def State.relight (s : State) : State :=
  (List.range 8).foldl (fun s p =>
    if s.tpOn p then (if (s.port_ p).st = .dark then s.setLink p .training else s)
    else if (s.port_ p).st = .dark then s else s.setLink p .dark) s

/-- The stage in force becomes the highest demand (R423): a change raises its event, and the functions of the stages that
entered or left stop or go on (R427 to R429). -/
def State.newStage (s : State) (cause : Nat) : State :=
  let k := max s.sup.sag (max s.sup.tempD s.sup.power)
  if k = s.sup.stage then s
  else
    let was4 := s.ballast 4
    let was5 := s.ballast 5
    let t : State := { s with sup.stage := k }
    let t := if !was4 && t.ballast 4 then { s.marker 3 with sup.stage := k } else t
    let t : State := { t with sup.shed := t.shedNow, sup.shedQ := dedupN (t.sup.shedQ ++ t.shedNow) }
    let t := if was4 && !t.ballast 4 then t.marker 4 else t
    let t := t.raise evBallastStage [(1, k), (1, cause), (8, t.tstamp)]
    let t := if t.ballast 1 then { t with arrs := t.arrs.map fun p => (p.1, { p.2 with sliceOn := false }) } else t
    let t := if was5 = t.ballast 5 then t else t.relight
    t.startSlice

/-- A demand rises into stage `k` for a cause: 0 sag, 1 temperature, 2 power (R433). -/
def State.demandUp (s : State) (cause k : Nat) : State := s.count (kSupply (16 + 3 * (k - 1) + cause)) 1

/-- `SAG_DEMAND_RISE` (R424). -/
def execSagDemandRise (rail depth : Nat) (s : State) : Res :=
  inUnit rail 7 (
    if !s.monitored then s
    else
      let s : State := { s with sup.depths := tset 0 s.sup.depths rail depth }
      match s.stageUp s.sup.sag with
      | none => s
      | some k =>
        if sgVEnter (s.stageWord k) ≤ depth then (({ s with sup.sag := k }).demandUp 0 k).newStage 0 else s)

/-- `SAG_DEMAND_FALL` (R424): no rail's sag lies above the exit level. -/
def execSagDemandFall (s : State) : Res :=
  .next (
    if s.sup.sag = 0 then s
    else
      let w := s.stageWord s.sup.sag
      let out := sgVEnter w - sgVHyst w
      let d := s.sup.depths.foldl (fun t p => tset 0 t p.1 (min p.2 out)) []
      State.newStage { s with sup.sag := s.stageDown s.sup.sag, sup.depths := d } 0)

/-- The throttling threshold of the grade in 1/16 °C (R1, R405). -/
def theta : Int := if Config.gradeX then 1680 else 1520

/-- The junction temperature: the highest reading (R425). -/
def junction : List Int → Option Int
  | [] => none
  | x :: r => some (r.foldl max x)

/-- The temperature demand's step at one evaluation (R425). -/
def State.tempStep (s : State) (t : Int) : State :=
  let j := s.sup.tempD
  let level (k : Nat) : Int := theta - 16 * (sgTEnter (s.stageWord k) : Int)
  let up := (s.stageUp j).filter fun k => decide (level k ≤ t)
  match up with
  | some k => (({ s with sup.tempD := k }).demandUp 1 k).newStage 1
  | none =>
    if j ≠ 0 ∧ t ≤ level j - 16 * (sgTHyst (s.stageWord j) : Int) then
      State.newStage { s with sup.tempD := s.stageDown j } 1
    else s

/-- `TEMP_EVALUATION` (R425): the readings of the eleven dies in the order of R432. -/
def execTempEvaluation (dies : List Int) (s : State) : Res :=
  .next (
    match junction dies with
    | none => s
    | some t =>
      if !s.monitored then s
      else
        let s : State := { s with sup.dies := dies }
        let hot := decide (theta ≤ t) && s.sup.therm == 0
        let s := if hot then { s with sup.therm := 999 }.raise evThermLimit [] else { s with sup.therm := s.sup.therm - 1 }
        s.tempStep t)

/-- The governor's step at one evaluation (R426). -/
def State.powerStep (s : State) (p : Nat) : State :=
  if 5800 < p then
    let s := State.count { s with sup.low := 0 } (kSupply 2) 1
    match s.stageUp s.sup.power with
    | some k => (({ s with sup.power := k }).demandUp 2 k).newStage 2
    | none => s
  else if p < 5200 then
    if 9 ≤ s.sup.low then
      let s : State := { s with sup.low := 0 }
      if s.sup.power = 0 then s else State.newStage { s with sup.power := s.stageDown s.sup.power } 2
    else { s with sup.low := s.sup.low + 1 }
  else { s with sup.low := 0 }

/-- The sag of a rail at a voltage, in 0.1 % of its reference (R424); a rail above it does not sag. -/
def sagOf (ref mV : Nat) : Nat := if ref = 0 then 0 else (ref - mV) * 1000 / ref

/-- `POWER_EVALUATION` (R426, R432): the 1 ms mean power in 10 mW, and the rails' voltages and currents. -/
def execPowerEvaluation (power : Nat) (rails : List (Nat × Nat)) (s : State) : Res :=
  .next (
    if !s.monitored then s
    else
      let l := ((List.range 7).zip rails)
      let refs := s.refs
      let put (t : Tab Nat) (k v : Nat) : Tab Nat := tset 0 t k v
      let s : State := { s with
        sup.pkg := power,
        sup.rails := l.foldl (fun t p => put t p.1 p.2.1) s.sup.rails,
        sup.currents := l.foldl (fun t p => put t p.1 p.2.2) s.sup.currents,
        sup.depths := l.foldl (fun t p => put t p.1 (sagOf (nth 0 refs p.1) p.2.1)) s.sup.depths }
      s.powerStep power)

end Sys2Proof.Machine
end

