-- ==== Sys2Proof/Machine/Observe.lean ====
section
/-!
DEFINITION. Observability: reading counters and gauges, the ripcord, the flight recorder's copy, and the debug halt (R468 to
R483).
-/

namespace Sys2Proof.Machine

/-! ### Counters and gauges (R468 to R473) -/

/-- Counters that only timing or the errors of a line move: no command carries them, and they read as free values (log
entry 30): the cycles of a core and its waits for the expander, stalls of a router, idle slots of an array, bank conflicts of
a loft slice, and the line errors of the host link and the media ports. -/
def timed (n : Nat) : Bool :=
  if n < 1536 then [1, 2, 3, 6].contains (n % 24)
  else if n < 1792 then n % 4 == 1
  else if n < 3328 then n % 32 == 2
  else if n < 3840 then n % 32 == 0
  else decide (4225 ≤ n ∧ n < 4227) || [4240, 4241, 4248, 4249].contains n

/-- Program words that a bank holds in its queue, those of the request in progress included (R361). -/
def Bank.words (b : Bank) : Nat :=
  sumN ((b.job.toList ++ b.queue).map fun j => if j.erase then 0 else j.data.length)

/-- The gauges that are no command gauge (R471). -/
def State.gauges (s : State) : List (Nat × Nat) :=
  (s.cores.map fun p => (4848 + p.1, p.2.rxBytes)) ++ (s.arrs.map fun p => (4912 + p.1, p.2.fifoBytes))
    ++ (s.loft.reels.map fun p => (4960 + p.1, p.2.out.length)) ++ (s.grid.queues.map fun p => (4976 + p.1, p.2.length))
    ++ s.store.banks.map fun p => (4992 + p.1, p.2.words)

/-- A command gauge: the tag of the current command, and the cycles since it began, which are free (R471, R477). -/
def gaugeWord (g : TrEng) (f n : Nat) : Nat :=
  if g.begun then g.tag % 2 ^ 16 * 2 ^ 48 + Config.freeCount f n % 2 ^ 48 else 0

/-- The present value of a number, with the free value `f` (R468 to R474, R479). -/
def State.number (s : State) (f n : Nat) : Nat :=
  if timed n then Config.freeCount f n % 2 ^ 64
  else if 4608 ≤ n ∧ n < 4848 then gaugeWord (s.trEng (n - 4608)) f n
  else if 4848 ≤ n ∧ n < 5104 then tget 0 s.gauges n
  else if n = 5104 then s.obs.reqInstant
  else if n = 5105 then s.obs.firedInstant
  else if n = 5106 then s.obs.armer
  else if 0x500000 ≤ n ∧ n < 0x500000 + 1024 then tget 0 s.obs.stops (n - 0x500000)
  else if 0x400000 ≤ n ∧ n < 0x400000 + 4096 ∧ n % 4 = 1 then
    (match s.dirEnt ((n - 0x400000) / 4) with | some e => tget 0 s.model.switchCnt e.model | none => 0)
  else s.ctr n

/-- The snapshot of a number (R473): zero before the first fire, and after a clear. -/
def State.snapshot (s : State) (n : Nat) : Nat :=
  match s.obs.snapN with
  | none => 0
  | some f =>
    if s.obs.snapClr.contains n then 0
    else if timed n then Config.freeCount f n % 2 ^ 64
    else if 4608 ≤ n ∧ n < 4848 ∧ tget 0 s.obs.snap n ≠ 0 then
      tget 0 s.obs.snap n / 2 ^ 48 * 2 ^ 48 + Config.freeCount f n % 2 ^ 48
    else tget 0 s.obs.snap n

/-- The words that a read of `k` numbers from `first` on returns. -/
def State.readNumbers (s : State) (f first k : Nat) : List Nat :=
  (List.range k).map fun i =>
    let n := first + i
    if 2 ^ 31 ≤ n then s.snapshot (n - 2 ^ 31) else s.number f n

/-- `CLEAR` (R468, R471, R473): counters go to zero; gauges, the ripcord's status and stop points stay. -/
def State.clearNumber (s : State) (n : Nat) : State :=
  if 2 ^ 31 ≤ n then { s with obs.snapClr := (n - 2 ^ 31) :: s.obs.snapClr }
  else if 0x400000 ≤ n ∧ n < 0x400000 + 4096 ∧ n % 4 = 1 then
    { s with model.switchCnt := match s.dirEnt ((n - 0x400000) / 4) with
        | some e => tdel s.model.switchCnt e.model
        | none => s.model.switchCnt }
  else { s with cnt := tset 0 s.cnt n 0 }

/-- `COUNTER_READ` (R413, R468, R473): a read is one step here, so no fire falls within it and `RESULT1` is 0 (R475). -/
def execCounterRead (c : Cmd) (s : State) : Res :=
  .next (s.runCmd 0x50 c fun s =>
    let first := fld c.p3 63 32
    let k := fld c.p3 31 16
    let (f, s) := s.take
    let ws := s.readNumbers f first k
    let s := if flag c.p3 0 then ((List.range k).map (first + ·)).foldl State.clearNumber s else s
    s.finish c 0 0 0 (ws.flatMap (leBytes 8)))

/-! ### The ripcord (R474 to R476, R483) -/

/-- What a snapshot holds of the present (R473): every counter, every gauge, and the tag of each engine's current command with
its mark. -/
def State.snapNow (s : State) : Tab Nat :=
  let tags := s.obs.engines.filterMap fun p => if p.2.begun then some (4608 + p.1, p.2.tag % 2 ^ 16 * 2 ^ 48 + 1) else none
  let switches := s.nv.dir.map fun p => (kDir p.1 1, tget 0 s.model.switchCnt p.2.model)
  (s.gauges ++ tags ++ switches).foldl (fun (t : Tab Nat) p => tset 0 t p.1 p.2) s.cnt

/-- The ripcord fires: the snapshot is taken, then the fire is counted and reported; the flight recorder's copy begins where
the host's trace ring is enabled (R475, R483). -/
def State.fire (s : State) : State :=
  let (f, s) := s.take
  let s : State := { s with obs.armed := none, obs.firedInstant := s.tstamp, obs.snap := s.snapNow, obs.snapN := some f,
                            obs.snapClr := [] }
  let s := ((s.count (kEngine 20) 1).raise evRipcordFired []).marker 0
  if flag s.cfg.trace 63 && !flag s.cfg.trace 62 && s.host.tq.en && !s.obs.captureOff then
    let s := (s.marker 5).marker 3
    State.moveTrace { s with obs.captureOff := true, obs.copying := s.obs.ring }
  else s

/-- The instant at which an arm will fire: one that has come already, in the next interpolator phase (R474). -/
def State.armInstant (s : State) (ts : Nat) : Nat :=
  if ts ≤ s.tstamp then s.phaseTick.tstamp else ts

/-- The ripcord armed for an instant by the engine at `src` (R474). -/
def State.arm (s : State) (ts src : Nat) : State :=
  { s with obs.armed := some (s.armInstant ts), obs.reqInstant := ts, obs.armer := src }

/-- `RIPCORD_ARM` (R474, R476): a broadcast goes to every engine that can be reached. -/
def execRipcordArm (c : Cmd) (s : State) : Res :=
  .next (s.runCmd 0x51 c fun s =>
    let d := s.dev
    let s := s.arm c.p1.toNat d
    let s := if flag c.p2 0 then s.peersAll.foldl (fun s a => s.sendCtrl a 8 [c.p1.toNat, d]) s else s
    s.finish c 0 0 0 [])

/-- `RIPCORD_FIRE` (R475): the armed instant arrives. -/
def execRipcordFire (s : State) : Res :=
  .next (match s.obs.armed with | some ts => if s.reaches ts then (s.toTs ts).fire else s | none => s)

/-- `RIPCORD_BROADCAST_RECEIVE` (R310, R476): an arm that comes after its instant fires on arrival. -/
def execRipcordBroadcastReceive (tstamp src : Nat) (s : State) : Res :=
  .next (if s.fab.conflict then s else let t := s.arm tstamp src; if tstamp < s.tstamp then t.fire else t)

/-- `TRACE_COPY_DONE` (R483): capture resumes once every record is copied, or at once where the host's ring is disabled. -/
def execTraceCopyDone (s : State) : Res :=
  .next (
    if s.obs.captureOff ∧ (s.obs.copying = [] ∨ ¬ s.host.tq.en) then
      State.marker { s with obs.captureOff := false, obs.copying := [] } 4
    else s)

/-! ### The debug halt (R478, R479) -/

/-- `DEBUG_HALT` (R478): a second one while one is armed or in force gives BUSY. -/
def execDebugHalt (c : Cmd) (s : State) : Res :=
  .next (s.runCmd 0x42 c fun s =>
    if s.obs.haltAt.isSome ∨ s.obs.halting then s.finish c 0x07 0 0 []
    else State.finish { s with obs.haltAt := some c.p1.toNat } c 0 0 0 [])

/-- `DEBUG_RESUME` (R479): it takes effect at the next boundary; without a halt it has no effect. -/
def execDebugResume (c : Cmd) (s : State) : Res :=
  .next (s.runCmd 0x43 c fun s =>
    let on := s.obs.haltAt.isSome || s.obs.halting
    State.finish { s with obs.resume := s.obs.resume || on } c 0 0 0 [])

/-- `DEBUG_HALT_INSTANT` (R478): cores, flanks and reels stop at their boundaries. -/
def execDebugHaltInstant (s : State) : Res :=
  .next (
    match s.obs.haltAt with
    | none => s
    | some ts =>
      if s.reaches ts then
        let s := (s.toTs ts).marker 1
        (List.range 64).foldl (fun s k => s.setCore k { s.core k with halt := true })
          { s with obs.haltAt := none, obs.halting := true }
      else s)

/-- What a reel has filled of the entry in progress depends on timing: a free number of blocks below the entry's (R479). -/
def State.reelProgress (s : State) (f r : Nat) : Nat :=
  let x := s.reel r
  match x.out.find? fun o => !o.filled && !o.failed with
  | none => 0
  | some o => Config.freeCount f (0x5000B0 + r) % (reNsec (x.entry o.entry) + 1)

/-- The stop points of the halted units (R479): the trace tag of a unit's last command and its progress. -/
def State.stopPoints (s : State) (f : Nat) : List (Nat × Nat) :=
  let word (e progress : Nat) := (e, s.gaugeTag e % 2 ^ 16 * 2 ^ 48 + progress % 2 ^ 16 * 2 ^ 32)
  ((List.range 64).map fun k => word k (s.core k).idx)
    ++ ((List.range 48).map fun a => word (128 + a) (((s.arr a).fifo.head?.map (·.passes)).getD 0))
    ++ (List.range 16).map fun r => word (176 + r) (s.reelProgress f r)

/-- `DEBUG_HALTED` (R478, R479): the mesh is empty and no read of a core's DMA engine is on its way. -/
def execDebugHalted (s : State) : Res :=
  .next (
    if s.obs.halting && !s.obs.halted && s.grid.mesh == [] && s.cores.all fun p => p.2.dma.all fun d => !d.rd then
      let (f, s) := s.take
      let put (t : Tab Nat) (p : Nat × Nat) : Tab Nat := tset 0 t p.1 p.2
      State.raise { s with obs.halted := true, obs.stops := (s.stopPoints f).foldl put s.obs.stops } evDebugHalted []
    else s)

/-- A halt ends (R479): the units go on. -/
def State.endHalt (s : State) : State :=
  (List.range 64).foldl (fun s k => s.setCore k { s.core k with halt := false })
    { s with obs.haltAt := none, obs.halting := false, obs.halted := false, obs.resume := false }

end Sys2Proof.Machine
end

