-- ==== Sys2Proof/Machine/Cmds.lean ====
section
/-!
DEFINITION. The commands of the ROM command set that have no chapter of their own: versions and identity, run state, the
configuration, models, calibration, telemetry, the event log and partitions (R380, R413, R415, R499).
-/

namespace Sys2Proof.Machine

/-! ### Versions and identity (R405, R413, R415) -/

/-- The highest version that the engine and a sender share. -/
def commonVersion (lo hi : Nat) : Option Nat := [0x23, 0x22, 0x21, 0x20, 0x12].find? fun v => decide (lo ≤ v ∧ v ≤ hi)

/-- `NEGOTIATE` (R415): the version applies to what is fetched after it. -/
def execNegotiate (c : Cmd) (s : State) : Res :=
  .next (s.runCmd 0x01 c fun s =>
    match commonVersion (fld c.p1 15 8) (fld c.p1 7 0) with
    | none => s.finish c 0x09 0 0 []
    | some v =>
      let s : State := match c.src with
        | .host => { s with host.neg := v }
        | .peer a => { s with host.peerNeg := tset 0x20 s.host.peerNeg a v }
      s.finish c 0 v 0 [])

/-- The register `ID` (R405). -/
def idReg : Nat :=
  Config.vendorId % 2 ^ 16 * 2 ^ 48 + 0x0960 * 2 ^ 32 + Config.stepLetter % 16 * 2 ^ 28 + Config.stepDigit % 16 * 2 ^ 24
    + (if Config.gradeX then 0x58 else 0x43) * 2 ^ 16

/-- The page of `IDENTIFY` (R413). -/
def State.identPage (s : State) : List Byte :=
  fit 0 4096 (leBytes 8 idReg ++ leBytes 8 Config.romVersion.toNat ++ leBytes 8 s.uid ++ s.otpBytes 0x8 0xB8
    ++ s.otpBytes 0xB00 0x200 ++ leBytes 8 s.dev ++ leBytes 8 (b2n s.isCascade) ++ leBytes 8 (b2n s.cfg.bcA)
    ++ leBytes 8 s.cfg.seq ++ leBytes 8 s.cfg.slot)

/-- `IDENTIFY` (R413). -/
def execIdentify (c : Cmd) (s : State) : Res := .next (s.runCmd 0x02 c fun s => s.finish c 0 0 0 s.identPage)

/-! ### Run state (R17, R18, R413) -/

/-- The run state of a `SET_RUN_STATE` target. -/
def targetOf (n : Nat) : RunState := match n with | 2 => .run | 3 => .maintenance | _ => .shutdown

/-- `SET_RUN_STATE` (R17, R413): the change takes effect at the next boundary; entry to RUN needs a verified configuration
and a passing placement check, which loads a placement that the boot could not load. -/
def execSetRunState (c : Cmd) (s : State) : Res :=
  .next (s.runCmd 0x10 c fun s =>
    let t := targetOf c.p1.toNat
    let go (s : State) : State := { s with run.pend := some t, run.pendCmd := some c }
    if t = s.run.st then s.finish c 0 0 0 []
    else if t ≠ .run then go s
    else if !s.run.cfgOk then s.finish c 0x0E 0 0 []
    else if s.run.placeOk then (if s.placementOk then go s else s.finish c 0x0E 0 0 [])
    else
      let r := s.tryPlacement false
      if r.1 then go r.2 else s.finish c 0x0E 0 0 [])

/-! ### The configuration record (R376 to R380) -/

/-- The slot that a `CFG_WRITE` writes (R380). -/
def State.cfgSlot (s : State) : Nat :=
  if s.run.selected then 1 - s.cfg.slot else if s.slotSeq 1 < s.slotSeq 0 then 1 else 0

/-- Why a record is refused, in the order of R380: its `SEQ`, its header, write protection, and a sector that has left
service. -/
def State.cfgRefuse (s : State) (rec : List Byte) (ls : List Nat) : Option Nat :=
  if s.run.selected ∧ hdSeq (leAt rec 0 32) ≤ s.cfg.seq then some 0x30
  else if !s.headerOk rec then some 0x31
  else if ls.any s.protected_ then some 0x24
  else if ls.any fun l => (s.ent l).st == .retired then some 0x25
  else none

/-- `CFG_WRITE` (R380): every sector of the slot is erased, the sections are programmed, and the header sector last. -/
def execCfgWrite (c : Cmd) (s : State) : Res :=
  .next (s.runCmd 0x20 c fun s =>
    let slot := s.cfgSlot
    let ls := (List.range 128).map (128 * slot + ·)
    match s.cfgRefuse c.data ls with
    | some st => (if st = 0x24 then s.protRefused (128 * slot) else s).finish c st 0 0 []
    | none =>
      let secs := chunks 4096 (c.data.take (hdLength (leAt c.data 0 32)))
      let s := ls.foldl State.eraseLogical s
      let s := ((ls.zip secs).drop 1).foldl (fun s p => s.writeSector p.1 p.2) s
      (s.writeSector (128 * slot) (secs.headD [])).finish c 0 0 0 [])

/-- `CFG_READ` (R413). -/
def execCfgRead (c : Cmd) (s : State) : Res :=
  .next (s.runCmd 0x21 c fun s =>
    let slot := b2n (flag c.p3 0)
    let r := (s.slotRecord slot).1
    s.finish c 0 0 0 (if s.slotValid slot then r.take (hdLength (leAt r 0 32)) else s.sectorBytes (128 * slot)))

/-! ### Models (R282, R286, R291, R293) -/

/-- `INSTALL` (R282). -/
def execInstall (c : Cmd) (s : State) : Res := .next (s.runCmd 0x30 c fun s => s.installRun c c.data)

/-- A self-test slice of a store controller pauses the installation on its stack (R458). -/
def State.installPaused (s : State) (i : Install) : Bool :=
  match s.dirEnt i.slot with
  | some e => e.layers.any fun y => y.sectors.any fun l => s.isolated (128 + stackOf l)
  | none => false

/-- `INSTALL_COMPLETE` (R282): steps 6 and 7. -/
def execInstallComplete (c : Cmd) (s : State) : Res :=
  .next (
    match s.model.install with
    | some i => if i.cmd = c ∧ ¬ s.installPaused i then s.installDone i else s
    | none => s)

/-- `ACTIVATE` (R291, R413, R501). -/
def execActivate (c : Cmd) (s : State) : Res :=
  .next (s.runCmd 0x31 c fun s =>
    match s.entOf (fld c.p1 63 32) (fld c.p1 31 16) with
    | none => s.finish c 0x40 0 0 []
    | some (x, e) =>
      if e.st = 1 ∨ e.st = 5 ∨ e.st = 6 then s.finish c 0x43 0 0 []
      else
        match s.switchOf e.model with
        | some w =>
          if e.active then s.activate x c.p2.toNat (some c)
          else if w.cmd = none then s.putSwitch { w with cmd := some c } else s.finish c 0x07 0 0 []
        | none => s.activate x c.p2.toNat (some c))

/-- A directory entry as it is read (R286); a free place reads as zeros (log entry 31). -/
def dirBytes : Option DirEnt → List Byte
  | none => List.replicate 64 0
  | some e =>
    let w0 := e.model * 2 ^ 32 + e.gen % 2 ^ 16 * 2 ^ 16 + e.st % 16 * 2 ^ 12 + b2n e.active * 2 ^ 11 + b2n e.pin * 2 ^ 10
      + b2n e.replica.isSome * 2 ^ 9 + b2n e.legacy * 2 ^ 8 + b2n e.bootAct * 2 ^ 7
    let b := leBytes 8 w0 ++ leBytes 8 (e.seq % 2 ^ 32 * 2 ^ 32 + e.useRecent % 2 ^ 32)
      ++ leBytes 8 (e.first.getD 0 % 2 ^ 24 * 2 ^ 40) ++ leBytes 8 (e.replica.getD 0 % 2 ^ 12 * 2 ^ 52)
      ++ leBytes 8 (e.actSeq % 2 ^ 32) ++ List.replicate 16 0
    b ++ leBytes 8 (crc32c (b ++ List.replicate 8 0))

/-- `DIR_READ` (R286, R413). -/
def execDirRead (c : Cmd) (s : State) : Res :=
  .next (s.runCmd 0x32 c fun s => s.finish c 0 0 0 ((List.range 1024).flatMap fun x => dirBytes ((s.dirEnt x).map fun e => { e with useRecent := s.useOf (x, e) })))

/-- `MODEL_REMOVE` (R283, R413). -/
def execModelRemove (c : Cmd) (s : State) : Res :=
  .next (s.runCmd 0x33 c fun s =>
    match s.entOf (fld c.p1 63 32) (fld c.p1 31 16) with
    | none => s.finish c 0x40 0 0 []
    | some (x, e) =>
      if e.active then s.finish c 0x41 0 0 []
      else if e.st = 1 ∨ s.hasPending e then s.finish c 0x07 0 0 []
      else
        match s.protEnt e with
        | some l => (s.protRefused l).finish c 0x24 0 0 []
        | none => (s.freeEntry x).finish c 0 0 0 [])

/-- `SPILL_REGISTER` (R259, R293, R413). -/
def execSpillRegister (c : Cmd) (s : State) : Res :=
  .next (s.runCmd 0x34 c fun s =>
    let s := s.voidSpill
    let n := c.p2.toNat
    State.finish { s with host.spillBase := if n = 0 then 0 else c.p1.toNat, host.spillN := n } c 0 0 0 [])

/-! ### Calibration (R165, R413) -/

/-- `CALIBRATE` (R165, R413): arrays in FAILED are skipped. -/
def execCalibrate (c : Cmd) (s : State) : Res :=
  .next (s.runCmd 0x40 c fun s =>
    let named := bitsSet 48 c.p1.toNat
    let go := named.filter fun a => (s.arr a).st != .failed
    if named ≠ [] ∧ go = [] then s.finish c 0x42 0 0 []
    else if go = [] then s.finish c 0 0 0 []
    else
      let s : State := { s with host.cals := s.host.cals ++ [(c, go, [])] }
      go.foldl (fun s a => s.queueCal a (bitsSet 16 c.p2.toNat) (some c) false) s)

/-! ### Telemetry (R432, R499) -/

/-- The rail with the deepest sag and its depth; the lower rail on a tie. -/
def deepest (l : Tab Nat) : Nat × Nat := l.foldl (fun b p => if b.2 < p.2 then p else b) (0, 0)

/-- The ballast word (R432). -/
def State.ballastWord (s : State) : Nat :=
  let u := s.sup
  let d := deepest u.depths
  let t := (junction u.dies).getD 0
  u.stage % 16 * 2 ^ 60 + u.sag % 16 * 2 ^ 56 + u.tempD % 16 * 2 ^ 52 + u.power % 16 * 2 ^ 48 + d.1 % 16 * 2 ^ 44
    + min d.2 1023 * 2 ^ 30 + ux 12 t * 2 ^ 18 + min u.pkg 16383 * 2 ^ 4 + b2n (u.stretch != 0) * 2 ^ 3

/-- A rail word (R432). -/
def State.railWord (s : State) (r : Nat) : Nat :=
  tget 0 s.sup.rails r % 2 ^ 16 * 2 ^ 48 + tget 0 s.sup.currents r % 2 ^ 24 * 2 ^ 24
    + (if r = 0 then s.sup.vreq % 2 ^ 16 * 2 ^ 8 else 0)

def arrCode (x : ArrState) : Nat :=
  match x with | .online => 0 | .stale => 1 | .suspect => 2 | .programming => 3 | .failed => 4

def linkCode (x : Link) : Nat :=
  match x with | .dark => 0 | .training => 1 | .negotiating => 2 | .exchanging => 3 | .up => 4

/-- The telemetry page (R499). -/
def State.telePage (s : State) : List Byte :=
  fit 0 4096 (leBytes 8 s.tstamp ++ leBytes 8 s.ballastWord ++ ((List.range 7).flatMap fun r => leBytes 8 (s.railWord r))
    ++ ((List.range 11).flatMap fun i => leBytes 8 (ux 12 (nth 0 s.sup.dies i) * 2 ^ 52))
    ++ ((List.range 64).flatMap fun k => leBytes 4 (s.core k).flags)
    ++ ((List.range 48).flatMap fun a => leBytes 1 (arrCode (s.arr a).st))
    ++ (List.range 8).flatMap fun p => leBytes 1 (linkCode (s.port_ p).st))

/-- `TELEMETRY` (R499). -/
def execTelemetry (c : Cmd) (s : State) : Res := .next (s.runCmd 0x52 c fun s => s.finish c 0 0 0 s.telePage)

/-! ### The event log and partitions (R356, R413, R485) -/

/-- A record as its 32 bytes (R484). -/
def recBytes (r : EvRec) : List Byte := leBytes 8 r.ts ++ leBytes 8 r.word ++ fit 0 16 r.payload

/-- `EVENTLOG_READ` (R413, R485): the ring's records from the first sequence on (log entry 32). -/
def execEventlogRead (c : Cmd) (s : State) : Res :=
  .next (s.runCmd 0x53 c fun s =>
    s.finish c 0 0 0 ((s.nv.log.filter fun r => decide (c.p3.toNat ≤ bf r.word 63 32)).flatMap recBytes))

/-- Every sector of a partition erased, RETIRED ones back in service on an erased spare of their bank; where the bank has none, there is no
physical sector for them, and they stay as they are (R356, R369; log entry 9). -/
def State.erasePart (s : State) (n : Nat) : State :=
  let mine := (s.store.map.map (·.1)).filter fun l => partitionOf l == some n
  mine.foldl (fun s l =>
    match (s.ent l).st with
    | .retired => (match s.takeSpare (bankOf (homePhys l)) with | (some q, s) => s.commit l ⟨q, .erased, false⟩ | (none, s) => s)
    | _ => s.eraseLogical l) s

/-- What the model keeps of a partition as data goes with its sectors (log entry 8). -/
def State.dropPart (s : State) (n : Nat) : State :=
  match n with
  | 1 => { s with nv.health := .reset, nv.keys := .reset, nv.retiredList := [], nv.calRecs := [], nv.calCurves := [],
                  nv.cycles := [], nv.adapters := [], nv.adapterQ := none, nv.envs := [], nv.colmap := [] }
  | 2 => { s with nv.log := [] }
  | 3 =>
    let ks := s.nv.holds.map (·.1)
    { ks.foldl State.freePlane s with nv.dir := [] }
  | _ => s

/-- `REFORMAT` (R356, R413). -/
def execReformat (c : Cmd) (s : State) : Res :=
  .next (s.runCmd 0x62 c fun s => ((s.erasePart c.p1.toNat).dropPart c.p1.toNat).finish c 0 0 0 [])

/-- `REMAP_RETURN` (R324, R413): the return index is fixed and announced, and the command ends when the parts revert; there is
nothing to return where this engine holds no re-map of the one named. -/
def execRemapReturn (c : Cmd) (s : State) : Res :=
  .next (s.runCmd 0x70 c fun s =>
    let f := fld c.p1 11 0
    if s.fab.remapped.contains f then s.announce f (s.boundaryOn + 8) true else s.finish c 0 0 0 [])

end Sys2Proof.Machine
end

