-- ==== Sys2Proof/Machine/Secure.lean ====
section
/-!
DEFINITION. The security engine: entropy, tokens, life-cycle transitions, key updates, retirement and attestation (R435 to
R449).
-/

namespace Sys2Proof.Machine

/-! ### Entropy (R436) -/

/-- `ENTROPY_HEALTH_FAIL` (R436). -/
def execEntropyHealthFail (s : State) : Res := .next ({ s with sec.entropyOk := false }.raise evSecEntropyFail [])

/-- `ENTROPY_TESTS_PASS` (R436). -/
def execEntropyTestsPass (s : State) : Res := .next { s with sec.entropyOk := true }

/-- A random value of `n` bytes (log entry 3). -/
def State.random (s : State) (n : Nat) : List Byte × State :=
  let (k, s) := s.take
  (fit 0 n (Config.freeRandom k), s)

/-! ### The key record (R434, R435, R438) -/

/-- A modulus is the product of the first two CRT parameters (R435, R440). -/
def keysMatch (m crt : List Byte) : Bool := beNat (crt.take 256) * beNat ((crt.drop 256).take 256) == leNat m

/-- An item encrypted under the KEK: its IV, ciphertext and tag (R438). -/
def State.sealed (s : State) (plain : List Byte) : List Byte × State :=
  let (iv, s) := s.random 12
  let iv := iv ++ [0, 0, 0, 0]
  (iv ++ Config.gcmSeal (s.kek.getD []) iv plain, s)

/-- Key-record bytes 160 to 38,311: the owner entry, the endorsed entries and the group entries (R438). -/
def keyBytes (k : KeyRec) : List Byte := fit 0 520 k.owner ++ fit 0 8320 k.endorsed.flatten ++ fit 0 29312 k.groups.flatten

/-- Key-record bytes 0 to 38,311 (R438). -/
def keyBody (k : KeyRec) : List Byte :=
  leBytes 8 (0x524B464A + k.endorsed.length % 256 * 2 ^ 32 + k.groups.length % 256 * 2 ^ 40) ++ leBytes 8 (k.seq % 2 ^ 32)
    ++ List.replicate 48 0 ++ fit 0 96 k.store ++ keyBytes k

/-- The HMAC of a key record under the KEK. -/
def State.keyMac (s : State) (body : List Byte) : List Byte := fit 0 64 (Config.hmac512 (s.kek.getD []) body)

/-- A logical sector that holds data a sound read returns. -/
def State.sectorHeld (s : State) (l : Nat) : Bool := (s.ent l).st == .written || (s.ent l).st == .refresh

/-- The logical sectors of a copy of the key record, and the ten of them that its bytes take (R438). -/
def keySectors (copy : Nat) : List Nat := (List.range 64).map (256 + 64 * copy + ·)
def keyUsed (copy : Nat) : List Nat := (keySectors copy).take 10

/-- The record that a key record's bytes spell. -/
def keyRecOf (b : List Byte) : KeyRec :=
  let h := leAt b 0 8
  let own := (b.drop 160).take 520
  ⟨true, bf (leAt b 8 8) 31 0, (b.drop 64).take 96, if own.all (· == 0) then [] else own,
    (List.range (min 16 (bf h 39 32))).map fun i => (b.drop (680 + 520 * i)).take 520,
    (List.range (min 16 (bf h 47 40))).map fun i => (b.drop (9000 + 1832 * i)).take 1832⟩

/-- A copy of the key record: none where its HMAC does not verify. -/
def State.keyCopy (s : State) (copy : Nat) : Option KeyRec :=
  let b := (keyUsed copy).flatMap s.sectorBytes
  if (keyUsed copy).all s.sectorHeld && bf (leAt b 0 8) 31 0 == 0x524B464A
      && (b.drop 38312).take 64 == s.keyMac (b.take 38312) then some (keyRecOf b)
  else none

/-- The copy taken at boot: of those that verify, the one with the higher `KEYSEQ`, copy 0 where they agree (R438). -/
def State.keyTaken (s : State) : Option KeyRec :=
  match s.keyCopy 0, s.keyCopy 1 with
  | some a, some b => some (if a.seq < b.seq then b else a)
  | some a, none => some a
  | none, r => r

/-- A key record written into the other copy, verified, and the old copy erased (R438); copy 0 is written where it is not in use
(log entry 83). -/
def State.saveKeys (s : State) (k : KeyRec) : State :=
  let new := b2n (s.sectorHeld 256)
  let b := keyBody k
  let s := ((keyUsed new).zip (chunks 4096 (b ++ s.keyMac b))).foldl (fun s p => s.writeSector p.1 p.2) s
  let s := if (s.keyCopy new).isSome then (keySectors (1 - new)).foldl State.eraseLogical s else s
  { s with nv.keys := k }

/-- The key record lost, or new: a new store key in a record that holds only it (R438). -/
def State.freshRecord (s : State) (seq : Nat) : State :=
  let (k, s) := s.random 64
  let (item, s) := s.sealed k
  { s.saveKeys ⟨true, seq, item, [], [], []⟩ with sec.storeKey := true }

/-! ### Tokens (R444 to R446) -/

/-- A key entry of a token's body, with its wrapped transport key for a group. -/
structure BodyKey where
  entry : List Byte
  wrapped : List Byte
deriving DecidableEq, Repr

/-- The entries of a token's body: none where the layout is wrong; by fuel. -/
def bodyKeys : Nat → List Byte → Option (List BodyKey)
  | 0, _ => none
  | f + 1, b =>
    if b = [] then some []
    else
      let w := leAt b 0 8
      let bad := bf w 59 0 != 0 || (keGroup b && keUse b != 0) || (keOwner b && keUse b != 3) || (keGroup b && keOwner b)
      let n := if keGroup b then 2344 else 520
      if bad ∨ b.length < n then none
      else (bodyKeys f (b.drop n)).map fun l =>
        ⟨b.take (if keGroup b then 1832 else 520), if keGroup b then (b.drop 1832).take 512 else []⟩ :: l

def tkSigner (t : List Byte) : Nat := bf (leAt t 0 8) 49 48
def tkTarget (t : List Byte) : Nat := bf (leAt t 0 8) 47 44
def tkKind (t : List Byte) : Nat := bf (leAt t 0 8) 43 40
def tkBody (t : List Byte) : List Byte := (t.drop 64).take (t.length - 576)

/-- The header of a token is sound (R446, code 1). -/
def tkHeaderOk (t : List Byte) : Bool :=
  let w := leAt t 0 8
  let w2 := leAt t 16 8
  let w3 := leAt t 24 8
  decide (576 ≤ t.length) && bf w 31 0 == 0x544C464A && bf w 39 32 == 1 && bf w 63 50 == 0 && decide (tkSigner t < 2)
    && decide (tkKind t < 2) && decide (tkTarget t ≤ 4) && (tkKind t == 0 || tkTarget t == 0) && bf w2 31 8 == 0
    && bf w3 63 32 == 0 && (if tkKind t = 0 then bf w3 31 0 == 0 else bf w2 7 0 == 0) && zeros t 32 32
    && bf w2 63 32 + 576 == t.length

/-- Who may sign a transition (R440): bit 0 the vendor, bit 1 the owner; none where it is not in the table. -/
def moveSigners (from_ to_ : Nat) : Option Nat :=
  match from_, to_ with
  | 0, 1 => some 1
  | 1, 2 => some 1
  | 2, 3 => some 3
  | 3, 2 => some 3
  | 0, 4 => some 1
  | 1, 4 => some 3
  | 2, 4 => some 3
  | 3, 4 => some 3
  | _, _ => none

/-- Who may sign a token in the state in force (R440, R445). -/
def State.signers (s : State) (t : List Byte) : Option Nat :=
  if tkKind t = 0 then
    let full := decide (64 ≤ s.slotsUsed) || (tkTarget t != 4 && decide (63 ≤ s.slotsUsed))
    if full then none else moveSigners s.lc (tkTarget t)
  else match s.lc with | 2 => some 2 | 3 => some 3 | _ => none

/-- The owner entry of a body, where its digest is that of the OTP row (R445). -/
def State.bodyOwner (s : State) (l : List BodyKey) : Option (List Byte) :=
  (l.find? fun k => keOwner k.entry && keyDigest (keMod k.entry) == s.otpBytes 0x80 64).map fun k => keMod k.entry

/-- The key that a token must verify under: none fails at code 5. -/
def State.signKey (s : State) (t : List Byte) (l : Option (List BodyKey)) : Option (List Byte) :=
  if tkSigner t = 0 then some Config.vendorKey
  else if !s.otpDone 0x80 then none
  else match s.ownerKey with
    | some k => some k
    | none => if tkKind t = 1 then l.bind s.bodyOwner else none

/-- The private part of a group entry of a token: unwrapped, decrypted and checked against its modulus (R445). -/
def State.groupPart (s : State) (k : BodyKey) : Option (List Byte) :=
  match Config.oaepUnwrap s.devicePriv k.wrapped with
  | none => none
  | some key =>
    match Config.gcmOpen key ((k.entry.drop 520).take 16) ((k.entry.drop 536).take 1296) with
    | none => none
    | some crt => if keysMatch (keMod k.entry) crt then some crt else none

/-- The body suits the token (R440, R445; R446, code 7). -/
def State.bodyOk (s : State) (t : List Byte) (l : List BodyKey) : Bool :=
  let owners := l.filter fun k => keOwner k.entry
  if tkKind t = 0 then
    if tkTarget t = 2 ∧ s.lc = 1 then l.length == 1 && owners.length == 1 else true
  else
    decide (owners.length ≤ 1) && (owners.all fun k => keyDigest (keMod k.entry) == s.otpBytes 0x80 64)
      && decide ((l.filter fun k => keGroup k.entry).length ≤ 16)
      && decide ((l.filter fun k => !keGroup k.entry && !keOwner k.entry).length ≤ 16)
      && (l.filter fun k => keGroup k.entry).all fun k => (s.groupPart k).isSome

/-- Words of the OTP row at an offset that are written. -/
def State.written (s : State) (off n : Nat) : Nat := ((List.range n).filter fun i => s.otpDone (off + 8 * i)).length

/-- The key words of the OTP row: 0 none written, 1 written and sound, 2 torn (R440). -/
def State.keyWords (s : State) : Nat :=
  let n := s.written 0xB00 64 + s.written 0x500 164
  if n = 0 then 0 else if n = 228 ∧ keysMatch s.deviceMod s.devicePriv then 1 else 2

/-- A token needs a random value: for the keys of provisioning, and for the IV of each group entry (R436, R446). -/
def needsRandom (t : List Byte) (l : List BodyKey) : Bool :=
  if tkKind t = 0 then tkTarget t == 1 else l.any fun k => keGroup k.entry

/-- The checks of R446 in order: the reason, or the token's entries. -/
def State.checkToken (s : State) (t : List Byte) : Except Nat (List BodyKey) :=
  let seq := bf (leAt t 24 8) 31 0
  let slot := bf (leAt t 16 8) 7 0
  let l := bodyKeys 64 (tkBody t)
  if !tkHeaderOk t then .error 1
  else if leAt t 8 8 ≠ s.uid then .error 2
  else if tkKind t = 0 ∧ slot ≠ s.slotsUsed then .error 3
  else if tkKind t = 1 ∧ seq ≤ s.nv.keys.seq then .error 3
  else
    match s.signers t with
    | none => .error 4
    | some m =>
      if !m.testBit (tkSigner t) then .error 5
      else
        match s.signKey t l with
        | none => .error 5
        | some key =>
          if !Config.rsaPss key (t.take (t.length - 512)) (t.drop (t.length - 512)) then .error 6
          else
            match l with
            | none => .error 7
            | some l =>
              if !s.bodyOk t l then .error 7
              else if tkKind t = 0 ∧ tkTarget t = 1 ∧ s.keyWords = 2 then .error 8
              else if needsRandom t l && !s.sec.entropyOk then .error 8
              else .ok l

/-- A token refused (R446). -/
def State.refuseToken (s : State) (c : Cmd) (code : Nat) : State :=
  let s := if code = 6 then s.count (kEngine 12) 1 else s
  let s := if code = 8 ∧ s.keyWords = 2 ∧ s.lc = 0 then s.raise evSecProvisionTorn [] else s
  ((s.count (kEngine 9) 1).raise evLcTokenRefused []).finish c 0x38 code 0 []

/-! ### Transitions (R439 to R441, R447) -/

/-- The slot of a transition programmed, word 1 first (R439). -/
def State.programSlot (s : State) (t : List Byte) : State :=
  let i := s.slotsUsed
  let s := s.otpProg (0x108 + 16 * i) (BitVec.ofNat 64 (leNat ((Config.sha512 t).take 8)))
  s.otpProg (0x100 + 16 * i) (BitVec.ofNat 64 (tkTarget t * 2 ^ 61 + tkSigner t * 2 ^ 60))

/-- The end of a transition: the event and the final completion (R441). -/
def State.lcDone (s : State) (c : Cmd) : State :=
  let s : State := { s with sec.lcCmd := none, sec.keygen := false }
  (s.raise evLcChanged []).finish c 0 0 0 []

/-- The key record erased: its sectors, and what the engine holds of it (R447). -/
def State.dropKeys (s : State) : State :=
  let s := (((List.range 128).map (256 + ·))).foldl State.eraseLogical s
  { s with nv.keys := .reset }

/-- Retirement (R447). -/
def State.zeroise (s : State) : State :=
  let s := State.dropKeys { s with sec.kek := false, sec.storeKey := false }
  (s.nv.dir.map (·.1)).foldl (fun s x => s.modelState x 6) s

/-- Provisioning once the device keys stand in the OTP row: the KEK, the store key, the record and the slot (R440). -/
def State.provision (s : State) (c : Cmd) : State :=
  let s := State.freshRecord { s with sec.kek := true } 0
  (s.programSlot c.data).lcDone c

/-- The entries of a key update as a record keeps them: each group's private part encrypted again under the KEK (R445). -/
def State.regroup (s : State) : List BodyKey → List (List Byte) × State
  | [] => ([], s)
  | k :: r =>
    let (item, s) := s.sealed ((s.groupPart k).getD [])
    let (l, s) := State.regroup (s.count (kEngine 10) 1) r
    ((k.entry.take 520 ++ item) :: l, s)

/-- A key update (R445): endorsed and group entries are replaced as a whole, and a missing owner entry is restored. -/
def State.keyUpdate (s : State) (c : Cmd) (l : List BodyKey) : State :=
  let (groups, s) := s.regroup (l.filter fun k => keGroup k.entry)
  let old := s.nv.keys
  let own := if old.owner ≠ [] then old.owner else ((l.find? fun k => keOwner k.entry).map (·.entry)).getD []
  let endorsed := (l.filter fun k => !keGroup k.entry && !keOwner k.entry).map (·.entry)
  let s := s.saveKeys { old with present := true, seq := bf (leAt c.data 24 8) 31 0, owner := own, endorsed := endorsed,
                                 groups := groups }
  s.finish c 0 0 0 []

/-- A transition that its checks admit, in the order of R440. -/
def State.transit (s : State) (c : Cmd) (l : List BodyKey) : State :=
  match tkTarget c.data with
  | 1 =>
    if s.keyWords = 1 then s.provision c
    else { s with sec.lcCmd := some c, sec.keygen := true }
  | 2 =>
    let s := if s.lc = 1 then
        let e := ((l.head?).map (·.entry)).getD []
        let s := s.otpProgAll 0x80 (dwords (keyDigest (keMod e)))
        s.saveKeys { s.nv.keys with present := true, seq := s.nv.keys.seq + 1, owner := e }
      else s.endHalt
    (s.programSlot c.data).lcDone c
  | 4 => ((s.programSlot c.data).zeroise).lcDone c
  | _ => (s.programSlot c.data).lcDone c

/-- `LC_TRANSITION` (R440, R445, R446). -/
def execLcTransition (c : Cmd) (s : State) : Res :=
  .next (s.runCmd 0x61 c fun s =>
    match s.checkToken c.data with
    | .error code => s.refuseToken c code
    | .ok l => if tkKind c.data = 1 then s.keyUpdate c l else s.transit c l)

/-- `LC_KEYGEN_COMPLETE` (R440): the generated modulus, CRT parameters and device secret, in this order, are programmed, and
provisioning goes on. -/
def execLcKeygenComplete (keys : List Byte) (s : State) : Res :=
  .next (
    match s.sec.lcCmd with
    | none => s
    | some c =>
      let k := fit 0 1824 keys
      if !s.sec.keygen || !keysMatch (k.take 512) (k.drop 512) then s
      else
        let s := s.otpProgAll 0xB00 (dwords (k.take 512))
        (s.otpProgAll 0x500 (dwords (k.drop 512))).provision c)

/-! ### Attestation (R448) -/

/-- The entry of a directory place in the report: the `MDIR` word, the key ID and the manifest's digest. -/
def attEntry (e : DirEnt) : List Byte := (dirBytes (some e)).take 8 ++ fit 0 8 e.keyId ++ fit 0 64 e.mdigest

/-- The configuration record read at the last boot (R448). -/
def State.cfgDigest (s : State) : List Byte :=
  if s.run.selected then
    let r := (s.slotRecord s.cfg.slot).1
    Config.sha512 (r.take (hdLength (leAt r 0 32)))
  else []

/-- The report up to its digest. -/
def State.reportBody (s : State) (nonce : List Byte) : List Byte :=
  let es := (s.nv.dir.filter fun p => p.2.st != 1).map (·.2)
  let w := 0x5441464A + 2 ^ 32 + es.length % 2 ^ 11 * 2 ^ 40 + s.lc * 2 ^ 51 + b2n s.cfg.bcA * 2 ^ 54
    + b2n s.run.unverified * 2 ^ 55
  let keys := if s.lc = 0 ∨ s.lc = 4 then [] else Config.sha512 (keyBytes s.nv.keys)
  leBytes 8 w ++ leBytes 8 s.uid ++ leBytes 8 Config.romVersion.toNat ++ leBytes 8 s.tstamp ++ fit 0 32 nonce
    ++ fit 0 64 s.cfgDigest ++ s.otpBytes 0x80 64 ++ fit 0 64 keys ++ es.flatMap attEntry

/-- `ATTEST` (R448): a BLANK engine has no device key, and its last 512 bytes are zero. -/
def execAttest (c : Cmd) (s : State) : Res :=
  .next (s.runCmd 0x60 c fun s =>
    let b := s.reportBody (ofDwords [c.p3, c.p4, c.p5, c.p6])
    let b := b ++ fit 0 64 (Config.sha512 b)
    if s.lc = 0 then s.finish c 0 0 0 (b ++ List.replicate 512 0)
    else (s.count (kEngine 11) 1).finish c 0 0 0 (b ++ fit 0 512 (Config.rsaSign s.devicePriv b)))

end Sys2Proof.Machine
end

