-- ==== Sys2Proof/Machine/Health.lean ====
section
/-!
DEFINITION. Self-test slices, the health record, and laser faults (R331, R450 to R462).
-/

namespace Sys2Proof.Machine

/-! ### The health record (R459, R460) -/

/-- An entry: `BSTATE`, `FCLASS`, `FCOUNT`, `PASS_SEQ`, `FAIL_CODE`. -/
def mkHEntry (st cls cnt seq code : Nat) : BitVec 64 :=
  BitVec.ofNat 64 (st % 4 * 2 ^ 62 + cls % 16 * 2 ^ 58 + cnt % 256 * 2 ^ 50 + seq % 2 ^ 32 * 2 ^ 16 + code % 2 ^ 16)

def State.setHEntry (s : State) (b : Nat) (e : BitVec 64) : State :=
  { s with nv.health.blocks := tset 0 s.nv.health.blocks b e }

/-- The health record's bytes (R459). -/
def healthBytes (h : Health) : List Byte :=
  let b := leBytes 8 (0x5248464A + b2n h.clean * 2 ^ 32 + 2 ^ 40) ++ leBytes 8 (h.hseq % 2 ^ 32) ++ leBytes 8 h.tstamp
    ++ List.replicate 40 0 ++ (List.range 256).flatMap (fun i => leBytes 8 (tget 0 h.blocks i).toNat) ++ List.replicate 1980 0
  b ++ leBytes 4 (crc32c b)

/-- The record that bytes spell; none where the CRC-32C or the magic is not that of a record (R459). -/
def healthOf (b : List Byte) : Option Health :=
  let h := leAt b 0 8
  if bf h 31 0 = 0x5248464A ∧ bf h 47 40 = 1 ∧ leAt b 4092 4 = crc32c (b.take 4092) then
    some ⟨true, h.testBit 32, bf (leAt b 8 8) 31 0, leAt b 16 8,
      (List.range 256).foldl (fun t i => tset 0 t i (BitVec.ofNat 64 (leAt b (64 + 8 * i) 8))) []⟩
  else none

/-- A copy of the health record in its sector. -/
def State.healthCopy (s : State) (copy : Nat) : Option Health :=
  if s.sectorHeld (384 + copy) then healthOf (s.sectorBytes (384 + copy)) else none

/-- The copy taken at boot: of those that are sound, the one with the higher `HSEQ`, copy 0 where they agree (R459). -/
def State.bootRecord (s : State) : Health :=
  match s.healthCopy 0, s.healthCopy 1 with
  | some a, some b => if a.hseq < b.hseq then b else a
  | some a, none => a
  | none, some b => b
  | none, none => .reset

/-- The sector of the copy in use holds the record's present `HSEQ`. -/
def State.healthInUse (s : State) : Nat :=
  match s.healthCopy 0 with
  | some a => if a.hseq = s.nv.health.hseq % 2 ^ 32 then 0 else 1
  | none => 1

/-- The record written to the copy not in use, its `HSEQ` one higher; copy 0 where none is in use (R459; log entry 83). -/
def State.putHealth (s : State) (clean : Bool) : State :=
  let h : Health := { s.nv.health with present := true, clean := clean, hseq := s.nv.health.hseq + 1 }
  { s.writeSector (384 + (1 - s.healthInUse)) (healthBytes h) with nv.health := h }

/-- A failure of a block written at once (R454, R460). -/
def State.failEntry (s : State) (b cls code : Nat) : State :=
  let e := s.hEntry b
  (s.setHEntry b (mkHEntry 2 cls (min 255 (fld e 57 50 + 1)) (fld e 47 16) code)).putHealth s.nv.health.clean

/-- The classes that cover a block, and its unit number in them (R450, R459, R462). -/
def classesOf (b : Nat) : List Nat :=
  if b < 64 then [0, 1] else if b < 112 then [3, 4] else if b < 128 then [2] else if b < 130 then [5] else [6]

def unitOf (b : Nat) : Nat :=
  if b < 64 then b else if b < 112 then b - 64 else if b < 128 then b - 112 else if b < 130 then b - 128 else b - 130

/-- The passes of a run entered: the sequence of the record to be written; a block UNVERIFIED is GOOD once every class that
covers it has passed since boot, and one FAILED where a run that clears it has passed them all (R456, R460, R462). -/
def State.passEntries (s : State) : State :=
  (dedupN (s.test.ok.map blockOf)).foldl (fun s b =>
    let e := s.hEntry b
    let all (l : List Nat) := (classesOf b).all fun c => l.contains (256 * c + unitOf b)
    let st := match heState e with
      | 2 => if s.test.clear && all s.test.ok then 0 else 2
      | 1 => if all s.test.passed then 0 else 1
      | x => x
    if st = 2 then s
    else s.setHEntry b (mkHEntry st (fld e 61 58) (fld e 57 50) (s.nv.health.hseq + 1) (fld e 15 0))) s

/-! ### Slices (R450 to R455, R457, R458) -/

/-- The slices of classes, ascending class, then unit (R451). -/
def slicesOf (classes : List Nat) : List Nat :=
  classes.flatMap fun c => (List.range (nth 0 bistUnits c)).map fun u => 256 * c + u

/-- A core after its slice (R453); a march test leaves its local memory as memory that nothing has written. -/
def State.reinitCore (s : State) (k : Nat) (march : Bool) : State :=
  let c := s.core k
  let disp := match s.inForce.progs.find? fun p => p.cores.contains k with | some p => p.dispatch | none => 0
  let s := s.setCore k { Core.reset with imem := c.imem, entry := c.entry, dispatch := disp, hasProg := c.hasProg,
                                         lmem := if march then [] else c.lmem, halt := c.halt }
  { s with grid.objs := dropWaiter k s.grid.objs }

/-- An array unit after its slice (R453). -/
def State.reinitArr (s : State) (a : Nat) : State :=
  let x := s.arr a
  let s := s.setArr a { x with hist := [], doneQ := [], maxq := [], deferP := [], asm := none, fifo := [], late := [], drain := [],
                               joins := [], pool := [] }
  let s := s.loadArr a
  s.setArr a { s.arr a with adapters := x.adapters }

/-- A loft slice after its slice: contents zeroed, the list banks as they were, pinned entries filled again (R453). -/
def State.reinitLoft (s : State) (i : Nat) : State :=
  let s : State := { s with loft.mem := s.loft.mem.filter fun p => loftSlice p.1 != i }
  ((s.setQueue i []).setReel i { s.reel i with pinned := [], pinTried := [] }).pinFills i

/-- The tested block put back in order (R453). -/
def State.reinit (s : State) (c : Nat) : State :=
  match c / 256 with
  | 0 => s.reinitCore (c % 256) true
  | 1 => s.reinitCore (c % 256) false
  | 2 => s.reinitLoft (c % 256)
  | 3 => s.reinitArr (c % 256)
  | 4 => s.reinitArr (c % 256)
  | _ => s

/-- A run of slices begins. -/
def State.beginRun (s : State) (kind : Nat) (q : List Nat) (cmd : Option Cmd) (clear : Bool) : State :=
  State.startSlice { s with test := { s.test with kind := kind, queue := q, cur := none, ran := 0, bad := 0, cmd := cmd,
                                                  clear := clear, ok := [], budgetOver := false } }

/-! ### What a slice compares (R452, R493 to R495) -/

/-- The number of bits in which an LBIST's signature differs from the golden value of its class. -/
def misrFail (cls : Nat) (o : SliceObs) : Option Nat :=
  let n := popc 64 ((o.misr % 2 ^ 64) ^^^ (Config.misrGolden cls % 2 ^ 64))
  if n = 0 then none else some n

/-- The bank of the first read of a march that does not return what was written. -/
def marchFail (o : SliceObs) : Option Nat := (o.reads.find? fun r => r.2.1 != r.2.2).map (·.1)

/-- With zero codes, a converter that returns a code beyond ±16. -/
def zeroFail (o : SliceObs) : Option Nat :=
  (o.zeros.take 16).findSome? fun l =>
    (((List.range l.length).zip l).find? fun p => decide (16 < p.2.natAbs)).map (·.1 % 532)

/-- The 64 stimulus passes of a slice. -/
def stimPasses (o : SliceObs) : List (List Int) := fit [] 64 o.stims

/-- The gain estimate of a group from the reference columns' codes, over the stimulus passes on plane 0. -/
def State.refFail (s : State) (a : Nat) (o : SliceObs) : Bool :=
  let b : Nat := sumN ((List.range 64).map fun i => 15 * stimPat 0 i)
  (List.range 8).any fun g =>
    let v (l : List Int) (i : Nat) := cellValue (nth 0 l (532 * g + i)) [] 7
    match gainOff ((tget .reset (s.arr a).recs 0).baseOf g).1 (sumI ((stimPasses o).map fun l => v l 529 - v l 528)) b with
    | some d => decide (8192 < d)
    | none => false

/-- A converter of a free spare of plane 0 whose D departs from -8 × rowsum_pass, held to the converter's span, by more than 64
product units in a stimulus pass (log entry 77). -/
def State.spareFail (s : State) (a : Nat) (o : SliceObs) : Option Nat :=
  let map := tget [] (s.arr a).colmap 0
  let conv := ((List.range 64).filter fun e => (tfind map e).isNone).flatMap fun e =>
    [532 * (e / 8) + 512 + 2 * (e % 8), 532 * (e / 8) + 513 + 2 * (e % 8)]
  let want (i : Nat) : Int := max (-262144) (-8 * (sumN ((stimRows 0 i).map (·.2)) : Int))
  ((List.range 64).zip (stimPasses o)).findSome? fun p =>
    (conv.find? fun k => decide (64 < (cellValue (nth 0 p.2 k) [] 7 - want p.1).natAbs)).map (· % 532)

/-- A converter that returns one code, not at the end of its range, in all stimulus passes (log entry 77). -/
def stuckFail (o : SliceObs) : Option Nat :=
  (List.range 532).find? fun k =>
    let cs := (stimPasses o).flatMap fun l => (List.range 8).map fun j => nth 0 l (532 * j + k)
    let c := cs.headD 0
    cs.all (· == c) && c != -2048 && c != 2047

/-- The transmit range and the receiver's overload of a port, in 0.01 dBm (R493, R494); units as the health record numbers them. -/
def portOptics (unit : Nat) : Int × Int × Int :=
  if unit = 0 then (-500, 200, 200) else if unit < 3 then Config.mediaOptics
  else if unit < 7 then (-1000, -300, -300) else (-450, 420, 420)

/-- The link of a port is up. -/
def State.portLinkUp (s : State) (unit : Nat) : Bool :=
  if unit = 0 then s.host.up else if unit < 3 then nth false s.port.mediaUp (unit - 1)
  else if unit < 7 then nth false s.port.saLock (unit - 3) else s.tpUp (unit - 7)

/-- A port's powers lie outside its limits: the transmitter's range, and on a link that is up the receiver's overload. One that
fails the margin of 2 dB alone passes (R495). -/
def State.portFails (s : State) (unit : Nat) (o : SliceObs) : Bool :=
  let r := portOptics unit
  o.lanes.any fun p => decide (p.1 < r.1 ∨ r.2.1 < p.1) || (s.portLinkUp unit && decide (r.2.2 < p.2))

/-- The verdict on a slice (R452): none where it passes, else its `FAIL_CODE` (R460), where the rule says what it holds. -/
def State.sliceFails (s : State) (c : Nat) (o : SliceObs) : Option (Option Nat) :=
  let code (r : Option Nat) := r.map some
  match c / 256 with
  | 0 => code (marchFail o)
  | 1 => code (misrFail 1 o)
  | 2 => code (marchFail o)
  | 3 => code (misrFail 3 o <|> marchFail o)
  | 4 =>
    match zeroFail o <|> s.spareFail (c % 256) o <|> stuckFail o with
    | some k => some (some k)
    | none => if s.refFail (c % 256) o then some none else none
  | 5 => code (misrFail 5 o <|> marchFail o)
  | _ => if s.portFails (c % 256) o then some none else none

/-- The slice in progress ends: its block is put back in order and its result recorded; a block that fails is FAILED at once,
an array also leaves service, and a block that fails in a recovery is excluded (R157, R402, R451, R453, R458, R467). -/
def State.sliceDone (s : State) (pass : Bool) (code : Nat) : State :=
  match s.test.cur with
  | none => s
  | some c =>
    let s := (s.reinit c).count (kEngine 13) 1
    let s : State := { s with test.cur := none, test.ran := s.test.ran + 1, test.passed := s.test.passed.filter (· != c) }
    if pass then { s with test.ok := c :: s.test.ok, test.passed := c :: s.test.passed }
    else
      let s : State := { s with test.bad := s.test.bad + 1 }
      let s := (s.count (kEngine 14) 1).raise evSelftestFail [(1, c / 256), (1, c % 256), (2, code)]
      let s := s.failEntry (blockOf c) (c / 256) code
      let s := if c / 256 = 3 ∨ c / 256 = 4 then s.failArray (c % 256) (c / 256 == 3) false else s
      if s.test.kind = 3 ∧ blockOf c < 128 then { s with test.excluded := s.test.excluded ++ [blockOf c] } else s

/-- A run that ends before its slices have run: the slice in progress leaves no result (R24, R412, R455). -/
def State.dropRun (s : State) : State :=
  let s := match s.test.cur with | some c => s.reinit c | none => s
  { s with test.kind := 0, test.queue := [], test.cur := none, test.cmd := none }

/-- The shutdown is complete: the record is written with `CLEAN` set, and the command ends (R21, R454, R455); `left` is the
number of slices that did not run, where the limit ended them. -/
def State.shutDone (s : State) (left : Option Nat) : State :=
  let s := s.raise evSelftestDone ([(2, s.test.ran), (2, s.test.bad)] ++ (left.toList.map fun n => (2, n)))
  let s := s.passEntries
  let s := State.putHealth { s with nv.health.tstamp := s.tstamp } true
  let s : State := { s with test.kind := 0, run.shut := 4 }
  match s.run.pendCmd with
  | some c => State.finish { s with run.pendCmd := none } c 0 0 0 []
  | none => s

/-- An on-demand run is complete (R457). -/
def State.bistDone (s : State) : State :=
  let s := s.passEntries.putHealth s.nv.health.clean
  let t : State := { s with test.kind := 0, test.cmd := none, test.clear := false }
  match s.test.cmd with
  | some c => t.finish c 0 s.test.bad s.test.ran []
  | none => t

/-- `BIST` (R457): the selected classes, or one unit of each. -/
def execBist (c : Cmd) (s : State) : Res :=
  .next (s.runCmd 0x41 c fun s =>
    let cl := bitsSet 7 (fld c.p1 63 57)
    let q := if flag c.p1 56 then cl.map fun k => 256 * k + fld c.p1 55 48 else slicesOf cl
    let s := s.beginRun 2 q (some c) (flag c.p1 47)
    if s.test.cur = none ∧ s.test.queue = [] then s.bistDone else s)

/-- `SHUTDOWN_SELFTEST_START` (R21, R454): the drain is over; a configuration write holds it up (R412). -/
def execShutdownSelftestStart (s : State) : Res :=
  .next (
    if s.run.st = .shutdown ∧ s.run.shut = 2 ∧ s.run.resetting = none ∧ ¬ s.host.long.any (fun c => c.opcode == 0x20) then
      let s := State.beginRun { s with run.shut := 3 } 1 (slicesOf (List.range 7)) none false
      if s.test.cur = none ∧ s.test.queue = [] then s.shutDone none else s
    else s)

/-- `SHUTDOWN_SELFTEST_LIMIT` (R455). -/
def execShutdownSelftestLimit (s : State) : Res :=
  .next (
    if s.test.kind = 1 then
      let left := s.test.queue.length + s.test.cur.toList.length
      s.dropRun.shutDone (some left)
    else s)

/-- `ARRAY_FAIL_RECORD` (R460): an array that the live reference's hard bound failed (R159); what `FAIL_CODE` then holds the
rule does not say (log entry 3). -/
def execArrayFailRecord (arr : Nat) (s : State) : Res :=
  inUnit arr 48 (
    if (s.arr arr).st = .failed ∧ heState (s.hEntry (64 + arr)) ≠ 2 then
      let (n, s) := s.take
      s.failEntry (64 + arr) 14 (Config.freeCount n arr % 65536)
    else s)

/-! ### Laser faults (R13, R331) -/

/-- Health blocks of the ports that a chiplet serves (R459). -/
def chipletBlocks (i : Nat) : List Nat :=
  match i with | 0 => [130, 131, 132, 133, 134, 135, 136] | 1 => [137, 138, 139, 140] | 2 => [141, 142] | _ => [143, 144]

/-- Every port of a chiplet goes dark. -/
def State.darken (s : State) (i : Nat) : State :=
  let s : State := { s with port.dark := put s.port.dark i true }
  let s := if i = 0 then
      let s := if s.host.up then (s.hostReset.hostLink false 0 0).dmaStopped else s
      (List.range 4).foldl State.madiLost ((s.mediaDown 0).mediaDown 1)
    else s
  (s.raise evPortLaserFault [(1, i)]).relight

/-- A second fault keeps the chiplet dark until the next boot, and is written to the health record (R331, R460). -/
def State.laserDead (s : State) (i : Nat) : State :=
  let s : State := { s with port.dead := put s.port.dead i true, port.retry := put s.port.retry i false }
  let s := (chipletBlocks i).foldl (fun s b =>
    let e := s.hEntry b
    s.setHEntry b (mkHEntry (heState e) 15 (min 255 (fld e 57 50 + 1)) (fld e 47 16) (fld e 15 0))) s
  s.putHealth s.nv.health.clean

/-- `PORT_LASER_FAULT` (R331): the chiplet retries once after the first fault. -/
def execPortLaserFault (chiplet : Nat) (within60 : Bool) (s : State) : Res :=
  inUnit chiplet 4 (
    if !s.port.lit || nth false s.port.dark chiplet then s
    else
      let second := within60 && nth false s.port.faulted chiplet
      let s : State := { s with port.faulted := put s.port.faulted chiplet true,
                                port.retry := put s.port.retry chiplet (!second) }
      let s := s.darken chiplet
      if second then s.laserDead chiplet else s)

/-- `LASER_RETRY` (R331): the ports light again, or the fault is the second. -/
def execLaserRetry (chiplet : Nat) (ok : Bool) (s : State) : Res :=
  inUnit chiplet 4 (
    if !nth false s.port.retry chiplet then s
    else if ok then
      State.relight { s with port.retry := put s.port.retry chiplet false, port.dark := put s.port.dark chiplet false }
    else (s.raise evPortLaserFault [(1, chiplet)]).laserDead chiplet)

end Sys2Proof.Machine
end

