-- ==== Sys2Proof/Machine/Boot.lean ====
section
/-!
DEFINITION. Supply-good and the loss of supply, the boot's steps 1 to 11, the ends of self-test slices, and the warm reset
(R16 to R24, R52, R311, R362, R366 to R368, R371, R379, R396 to R403, R412, R418 to R420, R435 to R439, R451, R456, R461).
-/

namespace Sys2Proof.Machine

/-! ### Supply (R17, R24, R362, R366, R418, R420) -/

/-- `SUPPLY_GOOD` (R17, R418). -/
def execSupplyGood (s : State) : Res :=
  .next (if s.run.st = .off then { s with run.st := .boot, run.step := 1, sup.good := true } else s)

/-- Words of a sector that a cut program step leaves undefined, `n` of them from word `i` on (R362; log entry 3). -/
def State.cutWords (s : State) (p : Nat) : Nat → Nat → State
  | _, 0 => s
  | i, n + 1 =>
    let (k, s) := s.take
    let x := s.sector p
    (s.setSector p { x with words := tset ones64 x.words i (Config.freeWord k), done := x.done ||| 2 ^ i }).cutWords p (i + 1) n

/-- What a loss of supply leaves of a bank's job: a program step's words are undefined; the intent record of an erase stands,
or, where `reads` says that it reads as not valid, the erase never began (R362, R366). -/
def State.cutJob (reads : Bool) (s : State) (b : Nat) : State :=
  match (s.bank b).job with
  | none => s
  | some j =>
    if !j.erase then s.cutWords j.phys j.first (stepLen j)
    else if reads ∨ j.suspended then s
    else s.setIntents (stackOf j.phys) ((s.intentsOf (stackOf j.phys)).filter fun r => r.seq != j.intent)

/-- `RAIL_TRIP` (R17, R24, R420): OFF at once. What the store and the OTP row hold stays; all else is lost. -/
def execRailTrip (rail : Nat) (intentReads : Bool) (s : State) : Res :=
  inUnit rail 7 (
    if s.run.st = .off then s
    else
      let s := (s.store.banks.map (·.1)).foldl (State.cutJob intentReads) s
      { State.reset with nv := s.undoWrites.nv, out := s.out, free := s.free, pending := s.pending })

/-! ### Step 2 (R401, R419, R435, R439) -/

/-- The ROM has started: the KEK, a torn transition, and V_REQ as the process monitors give it. A warm boot moves V_REQ by
`VREQ_ANNOUNCE` only (R419). -/
def State.bootRom (s : State) (vreq : Nat) : State :=
  let s : State := { s with run.step := 2, sec.kek := s.lc == 1 || s.lc == 2 || s.lc == 3 }
  let s := if s.lcTorn then s.raise evLcTorn [] else s
  if s.run.warm ∨ ¬ (600 ≤ vreq ∧ vreq ≤ 800 ∧ vreq % 10 = 0) then s
  else { s with sup.vreq := vreq, sup.vref := vreq }.raise evSupplyVreq [(2, vreq)]

/-! ### Step 3 (R259, R366 to R368, R438, R447) -/

/-- The logical sector whose home a physical sector is (log entry 8). -/
def homeLogical (p : Nat) : Option Nat :=
  let l := stackOf p * 8388608 + (p % 8388608 - 32768)
  if 32768 ≤ p % 8388608 ∧ mapped l then some l else none

/-- A stack's map from its checkpoint and the journal records after it; without a checkpoint, from the sector headers, the
higher sequence winning (R367). -/
def State.loadedMap (s : State) (t : Nat) : Tab MapEnt :=
  match s.ckptOf t with
  | some (q, m) =>
    ((s.journalOf t).filter fun r => decide (q < r.seq)).foldl (fun m r =>
      tput m r.logical (some ⟨r.phys, if r.retired then .retired else .written, false⟩)) m
  | none =>
    let l := sortBy (fun p : Nat × Sector => p.2.seq) (s.nv.sectors.filter fun p => stackOf p.1 == t && p.2.seq != 0)
    l.foldl (fun m p => if mapped p.2.logical then tput m p.2.logical (some ⟨p.1, .written, false⟩) else m) []

/-- The state of a mapped sector at bring-up (R368). -/
def State.bootEnt (s : State) (p : Nat) (retired : Bool) : MapEnt :=
  let st : SecState :=
    if (s.intentsOf (stackOf p)).any fun r => !r.done && r.phys == p then .erasing
    else if retired || s.nv.retiredList.contains p then .retired
    else if (s.sector p).done = 0 then .erased else .written
  ⟨if st = .retired then 0 else p, st, false⟩

/-- A stack's half of the map with its sector states: the sectors that the map, the cells or the intent log name. -/
def State.bootMap (s : State) (t : Nat) : Tab MapEnt :=
  let base := s.loadedMap t
  let homes := (s.nv.sectors.filter fun p => stackOf p.1 == t).filterMap fun p => homeLogical p.1
  let marked := ((s.intentsOf t).map (·.logical)).filter fun l => mapped l && stackOf l == t
  (dedupN (base.map (·.1) ++ homes ++ marked)).foldl (fun m l =>
    let e := (tfind base l).getD ⟨homePhys l, .written, false⟩
    tput m l (some (s.bootEnt e.phys (e.st == .retired)))) []

/-- The map rebuilt where a stack has no checkpoint (R367). -/
def State.sayRebuilt (s : State) (t : Nat) : State :=
  match s.ckptOf t with
  | some _ => s
  | none => { s with run.mapRebuilt := true }.raise evStoreMapRebuilt []

/-- The store's bring-up. -/
def State.bootStore (s : State) : State :=
  let m := s.bootMap 0 ++ s.bootMap 1
  ({ s with run.step := 3, store := { StoreSt.reset with loaded := true, map := m } }.sayRebuilt 0).sayRebuilt 1

/-- The key record taken, or lost: no copy that verifies, or an owner entry that does not agree with the OTP row (R438). An engine without
random values makes no new one (R436). -/
def State.bootKeys (s : State) : State :=
  if s.lc = 1 ∨ s.lc = 2 ∨ s.lc = 3 then
    let s : State := { s with nv.keys := s.keyTaken.getD .reset }
    if s.nv.keys.present ∧ (s.nv.keys.owner = [] ∨ s.ownerKey.isSome) then { s with sec.storeKey := true }
    else
      let s := if s.sec.entropyOk then s.freshRecord 0 else { s with nv.keys := .reset }
      ((s.nv.dir.map (·.1)).foldl (fun s x => s.modelState x 6) s).raise evSecKeyrecLost []
  else if s.lc = 4 then s.dropKeys
  else s

/-- The spill key of this boot (R259, R436). -/
def State.bootSpill (s : State) : State :=
  if s.sec.entropyOk then
    let (k, s) := s.random 64
    { s with sec.spillKey := k }
  else s

/-! ### Steps 4 and 5 (R371, R379, R396, R397, R403) -/

/-- The configuration of the selected slot, or why there is none: the values of the sections are then their defaults, 48 kHz and
Q = 32 among them (R5, R383). -/
def State.bootConfig (s : State) : State :=
  let s : State := { s with run.step := 4 }
  match s.selectSlot with
  | none => { s with run.cause := 1, time.rate := 1, time.quantum := 2 }
  | some (slot, fb) =>
    let bs := (s.slotRecord slot).1
    let h := leAt bs 0 32
    let s : State := { s with run.slot := slot, run.fallback := fb, run.selected := true, run.fmt1 := hdVersion h == 1 }
    let s := if fb then s.raise evConfigFallback [] else s
    match checkRecord slot bs with
    | .error (c, t, o) =>
      { s with run.cause := c, run.errSect := t, run.errOfs := o, cfg := { CfgSt.reset with slot := slot, seq := hdSeq h },
               time.rate := 1, time.quantum := 2 }
    | .ok c =>
      { s with cfg := c, run.cfgOk := true, time.rate := fld c.clocking 63 61, time.quantum := fld c.clocking 60 58 }

/-- The write-protect bits of the protect map. -/
def State.bootProtect (s : State) : State :=
  let l := (s.cfg.protect.drop 1).map fun e => (fld e 63 40, fld e 39 16)
  { s with run.step := 5, store.protect := if s.lc = 1 ∨ s.lc = 2 ∨ s.lc = 4 then l else [] }

/-! ### Step 6 (R402, R459 to R461) -/

/-- Blocks of the health record in a state, once it is read. -/
def State.blocksIn (s : State) (st : Nat) : List Nat :=
  (s.nv.health.blocks.filter fun p => heState p.2 == st).map (·.1)

/-- The health record read, and written again with `CLEAN` clear; the FAILED blocks are excluded, but for HOST and the store
controllers. -/
def State.bootHealth (s : State) : State :=
  let h := s.bootRecord
  let s : State := { s with nv.health := h }
  let s := if h.present then s else s.raise evHealthRecordBad []
  let bad := s.blocksIn 2
  let t := s.putHealth false
  let t : State := { t with run.step := 6, run.unclean := !(h.present && h.clean),
                            test.excluded := bad.filter fun b => decide (b < 128 ∨ 130 < b) }
  (bad.filter fun b => decide (64 ≤ b ∧ b < 112)).foldl (fun s b => s.failArray (b - 64) (fld (s.hEntry b) 61 58 == 3) true) t

/-! ### Steps 7 and 8 (R285, R330, R366) -/

/-- One interrupted erase repeated, its count written and its record marked done; which partition an event names for a sector
that maps to none is free. -/
def State.replay (s : State) (r : Intent) : State :=
  let t := stackOf r.phys
  let l := if r.logical ≠ noLogical ∧ (s.ent r.logical).phys = r.phys then some r.logical else none
  let s := (s.setSector r.phys { s.sector r.phys with ecount := r.ecount }).erased r.phys l
  let s := (State.intentDone { s with run.replayed := true } t r.seq).count (kStack t 8) 1
  let (n, s) := s.take
  s.raise evStoreIntentReplayed [(4, r.phys), (4, r.logical), (1, (partitionOf r.logical).getD (Config.freeChoice n % 256))]

/-- The intent replay, before any other program or erase of this boot. -/
def State.replayAll (s : State) : State :=
  let due (t : Nat) := sortBy (fun r : Intent => r.seq) ((s.intentsOf t).filter fun r => !r.done)
  (due 0 ++ due 1).foldl State.replay s

/-- Steps 7 and 8: the replay, what an interrupted installation left, and the lasers. -/
def State.bootTail (s : State) : State :=
  let s : State := { s with run.step := 7, run.unverified := s.blocksIn 1 != [] }
  let s := s.replayAll.bootDir
  State.relight { s.presetAddress with run.step := 8, port.lit := true }

/-! ### Self-test slices end (R402, R451, R455 to R457) -/

/-- A recovery run is over: its passes are entered, and the boot goes on. -/
def State.recoveryDone (s : State) : State :=
  let s := s.passEntries.putHealth false
  State.bootTail { s with test.kind := 0, run.inRecovery := false }

/-- The end of a run with no slice left. -/
def State.runEnd (s : State) : State :=
  if s.test.cur ≠ none ∨ s.test.queue ≠ [] then s
  else
    match s.test.kind with
    | 1 => s.shutDone none
    | 2 => s.bistDone
    | 3 => s.recoveryDone
    | _ => s

/-- The slice in progress judged by what it observed (R452); a `FAIL_CODE` that R460 does not state is free (log entry 3). -/
def State.sliceJudged (s : State) (o : SliceObs) : State :=
  match s.test.cur with
  | none => s
  | some c =>
    match s.sliceFails c o with
    | none => s.sliceDone true 0
    | some (some code) => s.sliceDone false code
    | some none =>
      let (n, s) := s.take
      s.sliceDone false (Config.freeCount n c % 65536)

/-- `SELFTEST_SLICE_END` (R451 to R453). -/
def execSelftestSliceEnd (o : SliceObs) (s : State) : Res :=
  .next (if s.test.kind = 0 then s else (s.sliceJudged o).startSlice.runEnd)

/-- `SLICE_BUDGET_EXPIRY` (R451). -/
def execSliceBudgetExpiry (s : State) : Res :=
  .next (if s.test.cur = none then s else (s.sliceDone false 0xFFFF).startSlice.runEnd)

/-- A block whose slices have not run starts unverified; a FAILED one stays so. -/
def State.unverify (s : State) (b : Nat) : State :=
  let e := s.hEntry b
  if heState e = 2 then s else s.setHEntry b (mkHEntry 1 (fld e 61 58) (fld e 57 50) (fld e 47 16) (fld e 15 0))

/-- `RECOVERY_BUDGET_EXPIRY` (R402, R456). -/
def execRecoveryBudgetExpiry (s : State) : Res :=
  .next (
    if s.run.inRecovery ∧ flag s.cfg.policy 60 then
      let s := (dedupN (s.test.queue.map blockOf)).foldl State.unverify s
      State.runEnd { s with test.budgetOver := true, test.queue := [] }
    else s)

/-! ### The boot (R398 to R403) -/

/-- `BOOT_SEQUENCE` (R398, R401): steps 1 to 8, up to the lighting of the lasers; an unclean boot waits in step 6 for its
recovery slices, and one whose ROM digest fails halts dark. -/
def execBootSequence (romOk : Bool) (vreq : Nat) (s : State) : Res :=
  .next (
    if s.run.st ≠ .boot ∨ 1 < s.run.step ∨ s.run.dark then s
    else if !romOk then { s with run.step := 2, run.dark := true }
    else
      let s := (s.bootRom vreq).bootStore.bootKeys.bootSpill.bootConfig.bootProtect.bootHealth
      if s.run.unclean then
        (State.beginRun { s with run.inRecovery := true } 3 (slicesOf [0, 1, 2]) none false).runEnd
      else s.bootTail)

/-- `LINK_TRAINING_END` (R52, R162, R399, R401): steps 9 to 11 start, and step 10 loads the calibration; where the
configuration failed its checks, the boot ends in MAINTENANCE. Without a listed source sample time counts from 0 in FREE_RUN,
as it does after a failed configuration (log entry 11). -/
def execLinkTrainingEnd (s : State) : Res :=
  .next (
    if s.run.st ≠ .boot ∨ s.run.step ≠ 8 then s
    else if !s.run.cfgOk then
      State.postHeld { s with run.st := .maintenance, run.step := 12, run.result := 4, time.counting := true }
    else
      let s := (List.range 48).foldl State.loadArr { s with run.step := 11, run.s10 := true }
      match s.bestSrc with
      | some c => s.takeSrc c
      | none => if s.sources = [] then { s with run.s9 := true, time.counting := true } else s)

/-- What step 11 says of the excluded blocks, the store controllers that failed, and the models that need an excluded block
(R461). -/
def State.sayExcluded (s : State) : State :=
  let bad := s.blocksIn 2
  let ex := s.test.excluded ++ bad.filter (· == 130)
  let s := ex.foldl (fun s b => s.raise evHealthBlockExcluded [(1, b)]) s
  let s := (bad.filter fun b => b == 128 || b == 129).foldl (fun s b => s.raise evHealthStoreFailed [(1, b - 128)]) s
  let gone := (dedupN (s.heldModels s.placement)).filter s.lacksBlock
  let s := gone.foldl State.unavailable s
  if gone = [] then s else s.raise evHealthDegradedBoot []

/-- `FABRIC_CONVERGENCE` (R310, R311, R389, R399, R401, R501): step 11. -/
def execFabricConvergence (s : State) : Res :=
  .next (
    if s.run.st ≠ .boot ∨ !s.run.s10 ∨ s.run.s11 then s
    else
      let s := s.takeAddress
      let r := s.tryPlacement true
      let s : State := if r.1 then r.2 else { r.2 with run.cause := if s.fab.conflict then 5 else if s.fab.tooLong then 6 else 4 }
      State.sayExcluded { s with run.s11 := true })

/-! ### The warm reset (R17, R22 to R24, R320, R362, R412, R419, R430, R468) -/

/-- `WARM_RESET` (R17, R412): long commands and switches end ABORTED, a self-test run is dropped, the command completes, and
the host link goes down; the drain follows. -/
def execWarmReset (c : Cmd) (s : State) : Res :=
  .next (s.runCmd 0x11 c fun s =>
    let s := s.loseInstall.abortLong [0x10, 0x20, 0x30, 0x31, 0x40, 0x41, 0x70]
    let s : State := s.dropRun
    let s := State.finish { s with run.pendCmd := none } c 0 0 0 []
    State.hostLink { s.hostReset with run.resetting := some c } false 0 0)

/-- A bank drained (R23, R362, R373): a program's step in progress completes and no other starts; an erase stays suspended; what
has not ended ends with ST_ABORTED, as do the requests that wait. -/
def State.drainBank (s : State) (b : Nat) : State :=
  let s := s.serveAll b
  let k := s.bank b
  match k.job with
  | none => if k.queue = [] then s else (s.setBank b { k with queue := [] }).answer 9
  | some j =>
    if j.erase then (s.setBank b { k with job := some { j with suspended := true }, queue := [] }).answer 9
    else
      let s := if (s.ent j.logical).st = .erased then s.setEnt j.logical ⟨j.phys, .written, false⟩ else s
      let s := (s.setSector j.phys ((s.sector j.phys).step j)).count (kBank b 2) (stepLen j)
      (s.setBank b { k with job := none, queue := [] }).answer (if j.data.length ≤ stepLen j ∧ k.queue = [] then 0 else 9)

def State.drainStore (s : State) : State := (s.store.banks.map (·.1)).foldl State.drainBank s

/-- The engine as a warm reset leaves it: what the store and the OTP row hold, the supply with its references and readings, the
health of the entropy source, and the sequence of the events. -/
def State.afterReset (s : State) : State :=
  { State.reset with
    nv := s.nv, out := s.out, free := s.free, pending := s.pending,
    run := { RunSt.reset with st := .boot, step := 1, warm := true },
    ev := { EvSt.reset with seq := s.ev.seq },
    sec := { SecSt.reset with entropyOk := s.sec.entropyOk },
    sup := { SupplySt.reset with good := s.sup.good, vref := s.sup.vref, vreq := s.sup.vreq, vnext := s.sup.vnext,
                                 stretch := s.sup.stretch, rails := s.sup.rails, currents := s.sup.currents,
                                 depths := s.sup.depths, dies := s.sup.dies, pkg := s.sup.pkg } }

/-- The tethers go dark with a warm reset, each with its event (R306). -/
def State.linksDark (s : State) : State :=
  ((List.range 8).filter fun p => (s.port_ p).st != .dark).foldl
    (fun s p => s.raise evTpLinkState [(1, p), (2, (s.portAddr p).getD 0)]) s

/-- `WARM_RESET_DRAIN_DONE` (R17, R22, R23, R320). -/
def execWarmResetDrainDone (s : State) : Res :=
  .next (
    match s.run.resetting with
    | none => s
    | some _ => (s.drainStore.heartbeatSend true).linksDark.afterReset)

end Sys2Proof.Machine
end

