-- ==== Sys2Proof/Machine/Vector.lean ====
section
/-!
DEFINITION. The vector instructions (R223 to R227).
-/

namespace Sys2Proof.Machine

def Core.va (c : Core) (o : Ops23) : List Nat := c.vr (oVA o)
def Core.vb (c : Core) (o : Ops23) : List Nat := c.vr (oVB o)
def Core.vd (c : Core) (o : Ops23) : List Nat := c.vr (oVD o)
def Core.ss (c : Core) (o : Ops23) : Nat := c.sr (oSS o)

/-- An operation on two registers, lane by lane (R223). -/
def Core.lane2 (c : Core) (o : Ops23) (f : Nat → Nat → Lane) : Fx :=
  c.lanes (oVD o) ((c.va o).zip (c.vb o) |>.map fun p => f p.1 p.2)

/-- An operation on one register, lane by lane. -/
def Core.lane1 (c : Core) (o : Ops23) (f : Nat → Lane) : Fx := c.lanes (oVD o) ((c.va o).map f)

def useABTRM : VUse := ⟨true, true, true, false, true, true, true⟩
def useABT : VUse := ⟨true, true, true, false, true, false, false⟩
def useAB : VUse := ⟨true, true, true, false, false, false, false⟩

/-- A sum or difference per lane (R224). -/
def laneAdd (bcA : Bool) (ty rm : Nat) (modw neg : Bool) (a b : Nat) : Lane :=
  if ty = 0 then .int modw (if neg then sx 32 a - sx 32 b else sx 32 a + sx 32 b)
  else
    let x := rd32 bcA a
    let y := rd32 bcA b
    let y' : FpV := if neg then { y with neg := !y.neg, val := ⟨-y.val.man, y.val.exp⟩ } else y
    .fp [x, y] (fpAdd fp32 bcA rm x y')

/-- `VADD`. -/
def execIVadd (core : Nat) (ops : BitVec 23) (s : State) : Res :=
  s.reg core (vrOk useABTRM ops) fun c => c.lane2 ops (laneAdd s.bcA (oTY ops) (oVRM ops) (oVMODW ops) false)

/-- `VSUB`. -/
def execIVsub (core : Nat) (ops : BitVec 23) (s : State) : Res :=
  s.reg core (vrOk useABTRM ops) fun c => c.lane2 ops (laneAdd s.bcA (oTY ops) (oVRM ops) (oVMODW ops) true)

/-- A product per lane (R224). -/
def laneMul (bcA : Bool) (ty rm : Nat) (modw : Bool) (a b : Nat) : Lane :=
  if ty = 0 then .int modw (sx 32 a * sx 32 b)
  else .fp [rd32 bcA a, rd32 bcA b] (fpMul fp32 bcA rm (rd32 bcA a) (rd32 bcA b))

/-- `VMUL`. -/
def execIVmul (core : Nat) (ops : BitVec 23) (s : State) : Res :=
  s.reg core (vrOk useABTRM ops) fun c => c.lane2 ops (laneMul s.bcA (oTY ops) (oVRM ops) (oVMODW ops))

/-- A multiply-accumulate per lane: S32 exact and saturated once; FP32 the product rounded, then the sum (R224). -/
def laneMac (bcA : Bool) (ty rm : Nat) (modw : Bool) (d a b : Nat) : Lane :=
  if ty = 0 then .int modw (sx 32 d + sx 32 a * sx 32 b)
  else
    let x := rd32 bcA a
    let y := rd32 bcA b
    let z := rd32 bcA d
    let p := fpMul fp32 bcA rm x y
    let r := fpAdd fp32 bcA rm z (fpSelf fp32 p.1)
    let l := Lane.fp [x, y, z] r
    { l with ovf := l.ovf + b2n p.2 }

/-- `VMAC`. -/
def execIVmac (core : Nat) (ops : BitVec 23) (s : State) : Res :=
  s.reg core (vrOk useABTRM ops) fun c =>
    c.lanes (oVD ops) ((c.vd ops).zip ((c.va ops).zip (c.vb ops)) |>.map fun p =>
      laneMac s.bcA (oTY ops) (oVRM ops) (oVMODW ops) p.1 p.2.1 p.2.2)

/-- The smaller or larger of two lanes, S32 or FP32 (R224). Of equal values, zeros of either sign among them, the first stands (DESIGN
CHOICE, log entry 79). -/
def laneMinMax (bcA : Bool) (ty : Nat) (big : Bool) (a b : Nat) : Lane :=
  if ty = 0 then .pure (if (if big then decide (sx 32 a < sx 32 b) else decide (sx 32 b < sx 32 a)) then b else a)
  else
    let x := rd32 bcA a
    let y := rd32 bcA b
    .fp [x, y] (fpCode fp32 (if (if big then fpLt x y else fpLt y x) then y else x), false)

/-- `VMIN`. -/
def execIVmin (core : Nat) (ops : BitVec 23) (s : State) : Res :=
  s.reg core (vrOk useABT ops) fun c => c.lane2 ops (laneMinMax s.bcA (oTY ops) false)

/-- `VMAX`. -/
def execIVmax (core : Nat) (ops : BitVec 23) (s : State) : Res :=
  s.reg core (vrOk useABT ops) fun c => c.lane2 ops (laneMinMax s.bcA (oTY ops) true)

/-- The absolute value of a lane (R224). -/
def laneAbs (bcA : Bool) (ty : Nat) (modw : Bool) (a : Nat) : Lane :=
  if ty = 0 then .int modw (sx 32 a).natAbs
  else
    let x := rd32 bcA a
    .fp [x] (fpCode fp32 { x with neg := false, val := x.val.abs }, false)

/-- `VABS`. -/
def execIVabs (core : Nat) (ops : BitVec 23) (s : State) : Res :=
  s.reg core (vrOk ⟨true, true, false, false, true, false, true⟩ ops) fun c =>
    c.lane1 ops (laneAbs s.bcA (oTY ops) (oVMODW ops))

/-- `VAND`. -/
def execIVand (core : Nat) (ops : BitVec 23) (s : State) : Res :=
  s.reg core (vrOk useAB ops) fun c => c.lane2 ops fun a b => .pure (a &&& b)

/-- `VOR`. -/
def execIVor (core : Nat) (ops : BitVec 23) (s : State) : Res :=
  s.reg core (vrOk useAB ops) fun c => c.lane2 ops fun a b => .pure (a ||| b)

/-- `VXOR`. -/
def execIVxor (core : Nat) (ops : BitVec 23) (s : State) : Res :=
  s.reg core (vrOk useAB ops) fun c => c.lane2 ops fun a b => .pure (a ^^^ b)

/-- `VSHL`: va × 2^(ss[5:0]), saturated; with MODW, bits are lost. -/
def execIVshl (core : Nat) (ops : BitVec 23) (s : State) : Res :=
  s.reg core (vrOk ⟨true, true, false, true, false, false, true⟩ ops) fun c =>
    c.lane1 ops fun a => .int (oVMODW ops) (sx 32 a * ((2 ^ (c.ss ops % 64) : Nat) : Int))

/-- `VSRA`: round_shift(va, ss[5:0], RM). -/
def execIVsra (core : Nat) (ops : BitVec 23) (s : State) : Res :=
  s.reg core (vrOk ⟨true, true, false, true, false, true, false⟩ ops) fun c =>
    c.lane1 ops fun a => .pure (ux 32 (roundShift (sx 32 a) (c.ss ops % 64) (oVRM ops)))

/-- `VCMPLT`: 1 if va < vb, else 0. -/
def execIVcmplt (core : Nat) (ops : BitVec 23) (s : State) : Res :=
  s.reg core (vrOk useABT ops) fun c => c.lane2 ops fun a b =>
    if oTY ops = 0 then .pure (b2n (sx 32 a < sx 32 b))
    else .fp [rd32 s.bcA a, rd32 s.bcA b] (b2n (fpLt (rd32 s.bcA a) (rd32 s.bcA b)), false)

/-- A lane is not zero, as S32 or as FP32 (R224). -/
def laneNz (bcA : Bool) (ty b : Nat) : Bool := if ty = 0 then b != 0 else (rd32 bcA b).val.man != 0

/-- `VSEL`: va where vb ≠ 0; vd kept elsewhere. The values selected are copied, not read as FP32 operands (DESIGN CHOICE, log entry
79). -/
def execIVsel (core : Nat) (ops : BitVec 23) (s : State) : Res :=
  s.reg core (vrOk useABT ops) fun c =>
    c.lanes (oVD ops) ((c.vd ops).zip ((c.va ops).zip (c.vb ops)) |>.map fun p =>
      if oTY ops = 0 then .pure (if laneNz s.bcA 0 p.2.2 then p.2.1 else p.1)
      else .fp [rd32 s.bcA p.2.2] (if laneNz s.bcA 1 p.2.2 then p.2.1 else p.1, false))

/-- `VBCAST`: ss in every lane. -/
def execIVbcast (core : Nat) (ops : BitVec 23) (s : State) : Res :=
  s.reg core (vrOk ⟨true, false, false, true, false, false, false⟩ ops) fun c =>
    c.lanes (oVD ops) ((List.range 64).map fun _ => .pure (c.ss ops))

/-- A conversion between S32 and FP32 with the exponent L (R81, R224). -/
def laneCvt (bcA : Bool) (ty rm : Nat) (l : Int) (a : Nat) : Lane :=
  if ty = 0 then .fp [] (fpOfDy fp32 bcA rm false ⟨sx 32 a, l⟩)
  else
    let x := rd32 bcA a
    let v := x.val.toInt l rm
    let r := Lane.fp [x] (ux 32 (sat v 32), false)
    { r with sat := b2n (satHit v 32) }

/-- `VCVT`: with L = ss[7:0], signed. -/
def execIVcvt (core : Nat) (ops : BitVec 23) (s : State) : Res :=
  s.reg core (vrOk ⟨true, true, false, true, true, true, false⟩ ops) fun c =>
    c.lane1 ops (laneCvt s.bcA (oTY ops) (oVRM ops) (sx 8 (c.ss ops)))

/-- `VSCALE`: scale_apply(va, 0, [ss[15:0]], ss[23:16] signed, 32, RM) (R80). -/
def execIVscale (core : Nat) (ops : BitVec 23) (s : State) : Res :=
  s.reg core (vrOk ⟨true, true, false, true, false, true, false⟩ ops) fun c =>
    c.lane1 ops fun a => .int false (scaleApply (sx 32 a) 0 [c.ss ops % 65536] (sx 8 (bf (c.ss ops) 23 16)) (oVRM ops))

/-- The active lanes of a register (R223). -/
def Core.active (c : Core) (l : List Nat) : List Nat := l.take c.vlen

/-- The FP32 sum of lanes, each addition rounded with RNE (R92): the sum so far, and the clamps. -/
def fpSum (bcA : Bool) : FpV → List FpV → Nat → FpV × Nat
  | acc, [], n => (acc, n)
  | acc, x :: r, n =>
    let a := fpAdd fp32 bcA 0 acc x
    fpSum bcA (fpSelf fp32 a.1) r (n + b2n a.2)

def useRed : VUse := ⟨false, true, false, true, true, false, false⟩

/-- The sum of the active lanes (R92). -/
def redSum (bcA : Bool) (ty : Nat) (modw : Bool) (l : List Nat) : Lane :=
  if ty = 0 then .int modw (sumI (l.map (sx 32)))
  else
    let xs := l.map (rd32 bcA)
    match xs with
    | [] => .pure 0
    | x :: r =>
      let t := fpSum bcA x r 0
      let v := Lane.fp xs (fpCode fp32 t.1, false)
      { v with ovf := t.2 }

/-- `VRSUM`: ss ← the sum of the lanes under R92. -/
def execIVrsum (core : Nat) (ops : BitVec 23) (s : State) : Res :=
  s.reg core (vrOk { useRed with modw := true } ops) fun c =>
    c.one (oSS ops) (redSum s.bcA (oTY ops) (oVMODW ops) (c.active (c.va ops)))

/-- The largest of lanes read as S32. -/
def maxS32 : List Nat → Nat
  | [] => 0
  | [x] => x
  | x :: r => if sx 32 (maxS32 r) > sx 32 x then maxS32 r else x

/-- The largest of FP values. -/
def maxFp : List FpV → FpV
  | [] => ⟨false, ⟨0, 0⟩, false, false⟩
  | [x] => x
  | x :: r => if fpLt x (maxFp r) then maxFp r else x

/-- `VRMAX`: ss ← the largest lane. -/
def execIVrmax (core : Nat) (ops : BitVec 23) (s : State) : Res :=
  s.reg core (vrOk useRed ops) fun c =>
    let l := c.active (c.va ops)
    if oTY ops = 0 then c.one (oSS ops) (.pure (maxS32 l))
    else c.one (oSS ops) (.fp (l.map (rd32 s.bcA)) (fpCode fp32 (maxFp (l.map (rd32 s.bcA))), false))

/-- `VAMAX` (R226): ss ← the largest |lane|; S32 lanes give a U32. -/
def execIVamax (core : Nat) (ops : BitVec 23) (s : State) : Res :=
  s.reg core (vrOk useRed ops) fun c =>
    let l := c.active (c.va ops)
    if oTY ops = 0 then c.one (oSS ops) (.pure (maxN (l.map fun x => (sx 32 x).natAbs)))
    else
      let xs := l.map (rd32 s.bcA)
      c.one (oSS ops)
        (.fp xs (fpCode fp32 (maxFp (xs.map fun x => { x with neg := false, val := x.val.abs })), false))

/-- A lane coded by VQUANT: the S32 code, and whether it clamped (R227). -/
def quantLane (bcA : Bool) (ty scale n a : Nat) : Nat × Bool :=
  let x : Dy := if ty = 0 then ⟨sx 32 a, -23⟩ else (rd32 bcA a).val
  let t := x.quot scale 0
  let u : Int := if t > n then n else if t < -(n : Int) then -(n : Int) else t
  (ux 32 u, u != t)

/-- `VQUANT` (R227): lanes coded at a scale; clamps count for the active lanes only. -/
def execIVquant (core : Nat) (ops : BitVec 23) (s : State) : Res :=
  s.reg core (vrOk ⟨true, true, true, true, true, false, false⟩ ops && decide (oVB ops ≤ 1)) fun c =>
    let n := if oVB ops = 0 then 127 else 32767
    let l := c.va ops
    let r := l.map (quantLane s.bcA (oTY ops) (c.ss ops % 65536) n)
    let hits := ((c.active (r.map fun p => b2n p.2)).filter (· != 0)).length
    let xs := if oTY ops = 0 then [] else (c.active l).map (rd32 s.bcA)
    let c' := c.setV (oVD ops) (r.map (·.1))
    ((Fx.sats ⟨{ c' with qclamp := min (c'.qclamp + hits) (2 ^ 32 - 1) }, []⟩ hits).fp
      (xs.filter (·.nan)).length (xs.filter (·.inf)).length 0)

/-! ### Loads and stores (R225) -/

/-- Bytes of a value in a memory format; EC formats are read in blocks. -/
def mfSize (mf : Nat) : Nat := nth 0 [1, 1, 2, 4, 4, 2, 2, 4] mf

/-- Bytes that a vector load or store of `n` values touches (R239). -/
def mfBytes (mf n : Nat) : Nat :=
  if mf = 8 then 57 * cdiv n 32 else if mf = 9 then 45 * cdiv n 32 else mfSize mf * n

/-- An FP16 or BF16 operand widened to FP32 (R81, R82). -/
def widen (f : FpFmt) (bcA : Bool) (w : Nat) : Lane :=
  let x := fpRead f bcA w
  .fp [x] (fpOfDy fp32 bcA 0 x.neg x.val)

/-- A value loaded from memory in a format (R225). -/
def mfLoad (bcA : Bool) (mf w : Nat) : Lane :=
  match mf with
  | 0 => .pure (ux 32 (sx 8 w))
  | 1 => .pure (w % 256)
  | 2 => .pure (ux 32 (sx 16 w))
  | 3 => .pure w
  | 4 => .pure (ux 32 (sx 24 w))
  | 5 => widen fp16 bcA w
  | 6 => widen bf16 bcA w
  | _ => .pure w

/-- A run of EC blocks opened: the codes, and the odd codes counted (R191, R264). -/
def ecRun (f : FpFmt) (m : Tab Byte) (a : Nat) : Nat → List Nat × Nat
  | 0 => ([], 0)
  | n + 1 =>
    let d := ecDecode f (rdBytes m a (ecSize f))
    let r := ecRun f m (a + ecSize f) n
    (d.1 ++ r.1, d.2 + r.2)

/-- `VLD`: VLEN values from sa; lanes beyond are 0. -/
def execIVld (core : Nat) (ops : BitVec 23) (s : State) : Res :=
  let mf := oMF ops
  s.issue core (decide (fld ops 7 0 = 0) && decide (oMRM ops = 0) && decide (mf ≤ 9)) .compute fun s =>
    let c := s.core core
    let a := c.sr (oMSA ops)
    if !memOk a (mfBytes mf c.vlen) then s.trap core 2
    else if mf < 8 then
      s.retire core (c.lanes (oVD ops)
        ((List.range c.vlen).map fun i => mfLoad s.bcA mf (rdLe c.lmem (a + i * mfSize mf) (mfSize mf))))
    else
      let f := if mf = 8 then fp16 else bf16
      let r := ecRun f c.lmem a (cdiv c.vlen 32)
      let fx := c.lanes (oVD ops) ((r.1.take c.vlen).map (widen f s.bcA))
      s.retire core ⟨fx.c, (19, r.2) :: fx.n⟩

/-- A lane as it is stored in a format (R225). -/
def mfStore (bcA : Bool) (mf rm w : Nat) : Lane :=
  match mf with
  | 0 => { Lane.pure (ux 8 (sat (sx 32 w) 8)) with sat := b2n (satHit (sx 32 w) 8) }
  | 1 =>
    let v := sx 32 w
    let u : Int := if v < 0 then 0 else if 255 < v then 255 else v
    { Lane.pure u.toNat with sat := b2n (u != v) }
  | 2 => { Lane.pure (ux 16 (sat (sx 32 w) 16)) with sat := b2n (satHit (sx 32 w) 16) }
  | 4 => { Lane.pure (a24Put (sat (sx 32 w) 24)) with sat := b2n (satHit (sx 32 w) 24) }
  | 5 => .fp [rd32 bcA w] (fpOfDy fp16 bcA rm (rd32 bcA w).neg (rd32 bcA w).val)
  | 6 => .fp [rd32 bcA w] (fpOfDy bf16 bcA rm (rd32 bcA w).neg (rd32 bcA w).val)
  | _ => .pure w

/-- `VST`: VLEN lanes to sa; an EC format is an illegal encoding. -/
def execIVst (core : Nat) (ops : BitVec 23) (s : State) : Res :=
  let mf := oMF ops
  s.issue core (decide (fld ops 7 0 = 0) && decide (oMRM ops ≠ 3) && decide (mf ≤ 7)) .compute fun s =>
    let c := s.core core
    let a := c.sr (oMSA ops)
    if !memOk a (mfBytes mf c.vlen) then s.trap core 2
    else
      let l := (c.active (c.vd ops)).map (mfStore s.bcA mf (oMRM ops))
      let c' := { c with lmem := wrBytes c.lmem a (l.flatMap fun x => leBytes (mfSize mf) x.val) }
      s.retire core ((Fx.sats ⟨c', []⟩ (sumBy l (·.sat))).fp (sumBy l (·.nan)) (sumBy l (·.inf)) (sumBy l (·.ovf)))

end Sys2Proof.Machine
end

