-- ==== Sys2Proof/Machine/Matrix.lean ====
section
/-!
DEFINITION. The matrix instructions (R85 to R91, R228 to R231).
-/

namespace Sys2Proof.Machine

/-! ### Weight blocks (R228, R229) -/

/-- Bytes of one k-row of 64 weights. -/
def mldwRow (mt : Nat) (ec : Bool) : Nat :=
  if ec then (if mt = 2 then 90 else 114) else if mt ≤ 1 then 64 else 128

/-- The FP format of a matrix type: BF16 for 2, FP16 for 3. -/
def mtFmt (mt : Nat) : FpFmt := if mt = 3 then fp16 else bf16

/-- The 64 entries of one k-row, and the odd EC codes (R229). -/
def mldwEntries (m : Tab Byte) (mt : Nat) (ec : Bool) (a : Nat) : List Nat × Nat :=
  if ec then ecRun (mtFmt mt) m a 2
  else if mt ≤ 1 then ((List.range 64).map fun j => ux 16 (sx 8 (rdLe m (a + j) 1)), 0)
  else ((List.range 64).map fun j => rdLe m (a + 2 * j) 2, 0)

/-- Entries written from a number on. -/
def putFrom : Tab Nat → Nat → List Nat → Tab Nat
  | t, _, [] => t
  | t, k, v :: r => putFrom (tset 0 t k v) (k + 1) r

/-- `MLDW`: loads a weight block of 32 k-rows by 64 columns. -/
def execIMldw (core : Nat) (ops : BitVec 23) (s : State) : Res :=
  let wb := fld ops 22 22
  let mt := fld ops 21 19
  let ec := flag ops 18
  s.issueT core ops (decide (fld ops 7 0 = 0) && decide (mt ≤ 4) && (!ec || mt == 2 || mt == 3)) .compute fun s =>
    let c := s.core core
    let a := c.sr (fld ops 17 13)
    let st := c.sr (fld ops 12 8) % 65536
    let row := mldwRow mt ec
    let st := if st = 0 then row else st
    if !memOk a (31 * st + row) then s.trap core 2
    else
      let rows := (List.range 32).map fun k => mldwEntries c.lmem mt ec (a + k * st)
      let c' := { c with wb := putFrom c.wb (2048 * wb) (rows.flatMap (·.1)) }
      s.retire core ⟨c', [(19, sumN (rows.map (·.2)))]⟩

/-! ### Accumulation (R87, R88, R230) -/

/-- Bytes of one activation row of 32 values. -/
def mmacRow (mt : Nat) (ec : Bool) : Nat :=
  if ec then ecSize (mtFmt mt) else nth 0 [32, 64, 64, 64, 128] mt

/-- The activation values of a row: raw codes. -/
def mmacVals (m : Tab Byte) (mt : Nat) (ec : Bool) (a : Nat) : List Nat × Nat :=
  if ec then ecRun (mtFmt mt) m a 1
  else
    let w := nth 1 [1, 2, 2, 2, 4] mt
    ((List.range 32).map fun k => rdLe m (a + w * k) w, 0)

/-- An integer activation or weight of a matrix type. -/
def mtAct (mt v : Nat) : Int := if mt = 0 then sx 8 v else if mt = 1 then sx 16 v else a24Get v
def mtWt (mt v : Nat) : Int := if mt ≤ 1 then sx 8 v else sx 16 v

/-- The view an instruction accumulates in (R228): 0 S32, 1 S48, 2 S56, 3 FP32. -/
def viewOf (bcA : Bool) (mt view : Nat) : Nat := if mt = 4 then (if bcA then 1 else 2) else view

/-- Width of an integer view. -/
def viewBits (view : Nat) : Nat := nth 32 [32, 48, 56] view

/-- The view is allowed for the matrix type (R228). -/
def viewOk (mt view : Nat) : Bool :=
  match mt with
  | 0 => decide (view ≤ 1)
  | 1 => view == 1
  | 2 => view == 3
  | 3 => view == 3
  | 4 => true
  | _ => false

/-- The column `j` of a weight buffer: its 32 entries. -/
def Core.wcol (c : Core) (wb j : Nat) : List Nat := (List.range 32).map fun k => tget 0 c.wb (2048 * wb + 64 * k + j)

/-- One integer element: the exact sum added in one step, saturated to the view (R87). -/
def accInt (mt view : Nat) (old : Nat) (xs ws : List Nat) : Nat × Bool :=
  let v := sx 64 old + sumI ((xs.zip ws).map fun p => mtAct mt p.1 * mtWt mt p.2)
  (ux 64 (sat v (viewBits view)), satHit v (viewBits view))

/-- One FP32 element: exact products added one at a time in ascending k, each addition rounded with RNE (R88); the clamps
counted. A product whose exponent lies outside FP32's range is kept exact, and only the sums clamp (log entry 63). -/
def accFp (f : FpFmt) (bcA : Bool) : FpV → List (Nat × Nat) → Nat → FpV × Nat
  | acc, [], n => (acc, n)
  | acc, p :: r, n =>
    let a := fpAdd fp32 bcA 0 acc (fpMulX (fpRead f bcA p.1) (fpRead f bcA p.2))
    accFp f bcA (fpSelf fp32 a.1) r (n + b2n a.2)

/-- A new element of the accumulator: its 64-bit pattern, and 1 where it saturated or the clamps it took. -/
def accElem (bcA : Bool) (mt view old : Nat) (xs ws : List Nat) : Nat × Nat :=
  if view = 3 then
    let r := accFp (mtFmt mt) bcA (fpSelf fp32 old) (xs.zip ws) 0
    (fpCode fp32 r.1, r.2)
  else
    let r := accInt mt view old xs ws
    (r.1, b2n r.2)

/-- `MMAC`: accumulates M activation rows times the weight block. A started FP32 accumulation begins from +0, and each operand
that is a NaN or an infinity counts once for the instruction (R82, R88; log entry 63). -/
def execIMmac (core : Nat) (ops : BitVec 23) (s : State) : Res :=
  let acc := fld ops 22 21
  let wb := fld ops 20 20
  let mt := fld ops 19 17
  let start := flag ops 14
  let ec := flag ops 13
  s.issueT core ops (decide (fld ops 2 0 = 0) && viewOk mt (fld ops 16 15) && (!ec || mt == 2 || mt == 3)) .compute fun s =>
    let c := s.core core
    let a := c.sr (fld ops 12 8)
    let sb := c.sr (fld ops 7 3)
    let m := sb % 64 + 1
    let row := mmacRow mt ec
    let st := if sb / 65536 = 0 then row else sb / 65536
    if !memOk a ((m - 1) * st + row) then s.trap core 2
    else
      let view := viewOf s.bcA mt (fld ops 16 15)
      let tag := tget 0 c.tag acc
      let fresh := start || tag != view + 1
      let rows := (List.range m).map fun i => mmacVals c.lmem mt ec (a + i * st)
      let cols := (List.range 64).map (c.wcol wb)
      let elems := (List.range m).zip rows |>.flatMap fun p =>
        (List.range 64).zip cols |>.map fun q =>
          accElem s.bcA mt view (if fresh then 0 else tget 0 c.acc (4096 * acc + 64 * p.1 + q.1)) p.2.1 q.2
      let hits := sumN (elems.map (·.2))
      let rd := if view = 3 then (rows.flatMap (·.1) ++ cols.flatten).map (fpRead (mtFmt mt) s.bcA) else []
      let c' := { c with acc := putFrom c.acc (4096 * acc) (elems.map (·.1)), tag := tset 0 c.tag acc (view + 1) }
      let fx : Fx := ⟨c', [(19, sumN (rows.map (·.2))), (13, b2n (!start && tag != view + 1))]⟩
      s.retire core
        (if view = 3 then fx.fp (rd.filter (·.nan)).length (rd.filter (·.inf)).length hits
         else if hits = 0 then fx else ⟨fx.c.flagOn 0x80, (12, hits) :: fx.n⟩)

/-! ### Drains (R89, R90, R231) -/

/-- Bytes of a drained value. -/
def dfSize (df : Nat) : Nat := nth 0 [1, 2, 4, 4, 4, 8, 2, 2, 4] df

/-- LSB exponent and width of an integer destination. -/
def dfInt (df : Nat) (l : Int) : Int × Nat :=
  match df with
  | 0 => (l, 8)
  | 1 => (l, 16)
  | 2 => (l, 32)
  | 3 => (-23, 24)
  | 4 => (-23, 32)
  | _ => (-31, 48)

/-- One element drained (R231): the value stored and the clamp. `view` is the tag's view, 4 for a clear tag. -/
def drainElem (bcA : Bool) (df rm : Nat) (l : Int) (scales : List Nat) (view e : Nat) : Nat × Bool :=
  if view = 4 then (0, false)
  else if df ≤ 5 then
    let (lx, w) := dfInt df l
    let y := if view = 3 then ((fpSelf fp32 e).val.scale scales).toInt lx rm else scaleApply (sx 64 e) 0 scales lx rm
    (ux (8 * dfSize df) (sat y w), satHit y w)
  else
    let f := if df = 6 then bf16 else if df = 7 then fp16 else fp32
    let x : FpV := if view = 3 then fpSelf fp32 e else ⟨false, ⟨sx 64 e, 0⟩, false, false⟩
    fpOfDy f bcA rm x.neg (x.val.scale scales)

/-- `MDRAIN`: drains an accumulator with scales to local memory. -/
def execIMdrain (core : Nat) (ops : BitVec 23) (s : State) : Res :=
  let acc := fld ops 22 21
  let df := fld ops 20 17
  let rm := fld ops 16 15
  let nsc := fld ops 14 13
  let sb := fld ops 7 3
  s.issueT core ops (decide (df ≤ 8) && decide (rm ≠ 3) && decide (sb % 2 = 0)) .compute fun s =>
    let c := s.core core
    let a := c.sr (fld ops 12 8)
    let w := c.sr sb
    let hi := c.sr (sb + 1)
    let m := w % 64 + 1
    let row := 64 * dfSize df
    let st := if w / 65536 = 0 then row else w / 65536
    if !memOk a ((m - 1) * st + row) then s.trap core 2
    else
      let tag := tget 0 c.tag acc
      let view := if tag = 0 then 4 else tag - 1
      let acts := c.vr (fld ops 2 0)
      let rows := (List.range m).map fun i =>
        let sc := [nth 0 acts i % 65536, hi / 65536, hi % 65536].take nsc
        (List.range 64).map fun j =>
          drainElem s.bcA df rm (sx 8 (w / 256)) sc view (tget 0 c.acc (4096 * acc + 64 * i + j))
      let lm := ((List.range m).zip rows).foldl
        (fun lm p => wrBytes lm (a + p.1 * st) (p.2.flatMap fun v => leBytes (dfSize df) v.1)) c.lmem
      let hits := (rows.flatten.filter (·.2)).length
      let fx : Fx := ⟨{ c with lmem := lm }, []⟩
      s.retire core (if df ≤ 5 then fx.drains hits else fx.fp 0 0 hits)

end Sys2Proof.Machine
end

