-- ==== Sys2Proof/Machine/Scalar.lean ====
section
/-!
DEFINITION. The scalar instructions (R219 to R222).
-/

namespace Sys2Proof.Machine

/-- A scalar register operation of format SR with an integer result that saturates unless MODW is set (R220). -/
def Core.arith (c : Core) (o : Ops23) (v : Int) : Fx := c.one (oSD o) (.int (oMODW o) v)

/-- A scalar register operation whose result cannot saturate. -/
def Core.plain (c : Core) (o : Ops23) (v : Nat) : Fx := c.one (oSD o) (.pure v)

def Core.a (c : Core) (o : Ops23) : Nat := c.sr (oSA o)
def Core.b (c : Core) (o : Ops23) : Nat := c.sr (oSB o)
def Core.aI (c : Core) (o : Ops23) : Int := c.srI (oSA o)
def Core.bI (c : Core) (o : Ops23) : Int := c.srI (oSB o)

/-- `NOP`: none. -/
def execINop (core : Nat) (ops : BitVec 23) (s : State) : Res := s.reg core (srOk ops) fun c => ⟨c, []⟩

/-- `ADD`: sd ← sa + sb. -/
def execIAdd (core : Nat) (ops : BitVec 23) (s : State) : Res :=
  s.reg core (srOk ops) fun c => c.arith ops (c.aI ops + c.bI ops)

/-- `SUB`: sd ← sa - sb. -/
def execISub (core : Nat) (ops : BitVec 23) (s : State) : Res :=
  s.reg core (srOk ops) fun c => c.arith ops (c.aI ops - c.bI ops)

/-- `MUL`: the full product, saturated, or its low 32 bits. -/
def execIMul (core : Nat) (ops : BitVec 23) (s : State) : Res :=
  s.reg core (srOk ops) fun c => c.arith ops (c.aI ops * c.bI ops)

/-- `AND`. -/
def execIAnd (core : Nat) (ops : BitVec 23) (s : State) : Res :=
  s.reg core (srOk ops) fun c => c.plain ops (c.a ops &&& c.b ops)

/-- `OR`. -/
def execIOr (core : Nat) (ops : BitVec 23) (s : State) : Res :=
  s.reg core (srOk ops) fun c => c.plain ops (c.a ops ||| c.b ops)

/-- `XOR`. -/
def execIXor (core : Nat) (ops : BitVec 23) (s : State) : Res :=
  s.reg core (srOk ops) fun c => c.plain ops (c.a ops ^^^ c.b ops)

/-- `SHL`: sa × 2^(sb[5:0]), saturated; with MODW, bits shifted out are lost. -/
def execIShl (core : Nat) (ops : BitVec 23) (s : State) : Res :=
  s.reg core (srOk ops) fun c => c.arith ops (c.aI ops * ((2 ^ (c.b ops % 64) : Nat) : Int))

/-- `SHR`: the logical shift; 32 or more gives 0. -/
def execIShr (core : Nat) (ops : BitVec 23) (s : State) : Res :=
  s.reg core (srOk ops) fun c => c.plain ops (c.a ops >>> (c.b ops % 64))

/-- `SRA`: round_shift(sa, sb[5:0], RM) (R79). -/
def execISra (core : Nat) (ops : BitVec 23) (s : State) : Res :=
  s.reg core (srOk ops) fun c => c.plain ops (ux 32 (roundShift (c.aI ops) (c.b ops % 64) (oRM ops)))

/-- `SLT`: 1 if sa < sb, signed. -/
def execISlt (core : Nat) (ops : BitVec 23) (s : State) : Res :=
  s.reg core (srOk ops) fun c => c.plain ops (b2n (c.aI ops < c.bI ops))

/-- `SLTU`: 1 if sa < sb, unsigned. -/
def execISltu (core : Nat) (ops : BitVec 23) (s : State) : Res :=
  s.reg core (srOk ops) fun c => c.plain ops (b2n (c.a ops < c.b ops))

/-- `MIN`, signed. -/
def execIMin (core : Nat) (ops : BitVec 23) (s : State) : Res :=
  s.reg core (srOk ops) fun c => c.plain ops (ux 32 (min (c.aI ops) (c.bI ops)))

/-- `MAX`, signed. -/
def execIMax (core : Nat) (ops : BitVec 23) (s : State) : Res :=
  s.reg core (srOk ops) fun c => c.plain ops (ux 32 (max (c.aI ops) (c.bI ops)))

/-- `ADDI`: sa + IMM13, sign-extended, saturated. -/
def execIAddi (core : Nat) (ops : BitVec 23) (s : State) : Res :=
  s.reg core true fun c => c.one (oSD ops) (.int false (c.aI ops + sx 13 (oImm13 ops)))

/-- `ANDI`: IMM13 zero-extended. -/
def execIAndi (core : Nat) (ops : BitVec 23) (s : State) : Res :=
  s.reg core true fun c => c.plain ops (c.a ops &&& oImm13 ops)

/-- `ORI`: IMM13 zero-extended. -/
def execIOri (core : Nat) (ops : BitVec 23) (s : State) : Res :=
  s.reg core true fun c => c.plain ops (c.a ops ||| oImm13 ops)

/-- `LUI`: IMM18 × 2^14. -/
def execILui (core : Nat) (ops : BitVec 23) (s : State) : Res :=
  s.reg core true fun c => c.plain ops (oImm18 ops * 2 ^ 14)

/-- `LLO`: sd[13:0] ← IMM18[13:0], the rest kept; IMM18[17:14] reserved. -/
def execILlo (core : Nat) (ops : BitVec 23) (s : State) : Res :=
  s.reg core (decide (oImm18 ops < 2 ^ 14)) fun c =>
    c.plain ops (c.sr (oSD ops) / 2 ^ 14 * 2 ^ 14 + oImm18 ops % 2 ^ 14)

/-- The address of LD and ST: sa + IMM13 modulo 2^32 with bits [1:0] as zero (R220). -/
def Core.ldAddr (c : Core) (o : Ops23) : Nat := ux 32 ((c.a o : Int) + sx 13 (oImm13 o)) / 4 * 4

/-- `LD`: sd ← the 32-bit word at sa + IMM13; earlier accesses in flight complete first (R215), and an address outside
local memory traps (R239). -/
def execILd (core : Nat) (ops : BitVec 23) (s : State) : Res :=
  s.issue core true .either fun s =>
    if !memOk ((s.core core).ldAddr ops) 4 then s.trap core 2
    else
      let s := s.dmaAll core
      let c := s.core core
      s.retire core ⟨c.setS (oSD ops) (rdLe c.lmem (c.ldAddr ops) 4), []⟩

/-- `ST`: the 32-bit word at sa + IMM13 ← sd. -/
def execISt (core : Nat) (ops : BitVec 23) (s : State) : Res :=
  s.issue core true .either fun s =>
    if !memOk ((s.core core).ldAddr ops) 4 then s.trap core 2
    else
      let s := s.dmaAll core
      let c := s.core core
      s.retire core ⟨{ c with lmem := wrLe c.lmem (c.ldAddr ops) 4 (c.sr (oSD ops)) }, []⟩

/-- A branch: the index moves by IMM13, modulo 2^32, where the comparison of sd with sa holds (R220). -/
def State.branch (s : State) (k : Nat) (o : Ops23) (holds : Int → Int → Bool) : Res :=
  s.issue k true .either fun s =>
    let c := s.core k
    s.retireTo k c (if holds (c.srI (oSD o)) (c.aI o) then ux 32 ((c.idx : Int) + sx 13 (oImm13 o)) else c.idx + 1)

/-- `BEQ`. -/
def execIBeq (core : Nat) (ops : BitVec 23) (s : State) : Res := s.branch core ops fun a b => decide (a = b)
/-- `BNE`. -/
def execIBne (core : Nat) (ops : BitVec 23) (s : State) : Res := s.branch core ops fun a b => decide (a ≠ b)
/-- `BLT`, signed. -/
def execIBlt (core : Nat) (ops : BitVec 23) (s : State) : Res := s.branch core ops fun a b => decide (a < b)
/-- `BGE`, signed. -/
def execIBge (core : Nat) (ops : BitVec 23) (s : State) : Res := s.branch core ops fun a b => decide (a ≥ b)

/-- `JAL`: sd ← index + 1; then the index moves by IMM18, sign-extended. -/
def execIJal (core : Nat) (ops : BitVec 23) (s : State) : Res :=
  s.issue core true .either fun s =>
    let c := s.core core
    s.retireTo core (c.setS (oSD ops) (c.idx + 1)) (ux 32 ((c.idx : Int) + sx 18 (oImm18 ops)))

/-- `JR`: index ← sa. -/
def execIJr (core : Nat) (ops : BitVec 23) (s : State) : Res :=
  s.issue core (srOk ops) .either fun s => s.retireTo core (s.core core) ((s.core core).a ops)

/-- The number of a special register is listed (R219). -/
def specialOk (n : Nat) : Bool := decide (n ≤ 7 ∨ (16 ≤ n ∧ n ≤ 31))

/-- A special register's value (R219). -/
def State.special (s : State) (k n : Nat) : Nat :=
  let c := s.core k
  match n with
  | 0 => c.flags
  | 1 => k
  | 2 => c.qindex % 2 ^ 32
  | 3 => s.q
  | 4 => c.vlen
  | 5 => c.qclamp
  | 6 => c.qmask
  | 7 => c.dispatch
  | n => tget 0 c.gens (n - 16)

/-- The core with a special register written under its access code: RO ignores, RW1C clears (R7, R219). -/
def Core.setSpecial (c : Core) (n v : Nat) : Core :=
  match n with
  | 0 => { c with flags := c.flags ^^^ (c.flags &&& (v % 256)) }
  | 4 => { c with vlen := if v = 0 ∨ 64 < v then 64 else v }
  | 5 => { c with qclamp := v }
  | 6 => { c with qmask := v % 65536 }
  | 7 => { c with dispatch := v % 16384 }
  | _ => c

/-- `MFS`: sd ← special register IMM13; SA reserved. -/
def execIMfs (core : Nat) (ops : BitVec 23) (s : State) : Res :=
  s.issue core (specialOk (oImm13 ops) && decide (oSA ops = 0)) .either fun s =>
    s.retire core ⟨(s.core core).setS (oSD ops) (s.special core (oImm13 ops)), []⟩

/-- `MTS`: special register IMM13 ← sd; SA reserved. -/
def execIMts (core : Nat) (ops : BitVec 23) (s : State) : Res :=
  s.reg core (specialOk (oImm13 ops) && decide (oSA ops = 0)) fun c =>
    ⟨c.setSpecial (oImm13 ops) (c.sr (oSD ops)), []⟩

/-- The headroom factor h in quarters (R107, R222). -/
def headroom4 (h : Nat) : Nat := nth 4 [4, 5, 6, 8] h

/-- The code limit N of a selector (R222). -/
def nOf (sel : Nat) : Nat := nth 127 [127, 255, 32767] sel

/-- `SCALEC` (R222): sd ← sc16_ceil(P × h ÷ N). -/
def execIScalec (core : Nat) (ops : BitVec 23) (s : State) : Res :=
  let srck := flag ops 12
  let pexp := fld ops 7 0
  s.reg core (decide (fld ops 9 8 ≠ 3) && (!srck || decide (pexp = 0))) fun c =>
    let p : Dy := if srck then ⟨(scMan (c.a ops % 65536) : Nat), scExp (c.a ops % 65536) - 8⟩
                  else ⟨(c.a ops : Nat), sx 8 pexp⟩
    c.plain ops (p.sc16 (headroom4 (fld ops 11 10)) (4 * nOf (fld ops 9 8)))

/-- `SCMAX` (R221): the larger in value of two SC16 codes, zero-extended. -/
def execIScmax (core : Nat) (ops : BitVec 23) (s : State) : Res :=
  s.reg core (srOk ops) fun c => c.plain ops (scMax (c.a ops % 65536) (c.b ops % 65536))

end Sys2Proof.Machine
end

