-- ==== Sys2Proof/Machine/Transfer.lean ====
section
/-!
DEFINITION. The transfer, message and array-dispatch instructions (R232 to R235).
-/

namespace Sys2Proof.Machine

/-! ### Transfers (R232) -/

/-- A transfer issued to the DMA engine of a core, in flight until it completes. -/
def State.dmaIssue (s : State) (k : Nat) (rd : Bool) (tag loft loc len : Nat) : State :=
  let (n, s) := s.serial (64 + k)
  let s := s.traceBegin (64 + k) (tag * 2 ^ 13 + n % 2 ^ 13) loft
  s.setCore k { s.core k with dma := (s.core k).dma ++ [⟨rd, tag, loft, loc, len, n⟩] }

/-- `DRD` and `DWR`: s(SC)[16:0] bytes between loft address sb[25:0] and local memory at sa. -/
def State.dmaInstr (s : State) (k : Nat) (ops : Ops23) (rd : Bool) : Res :=
  s.issueT k ops (decide (fld ops 4 0 = 0)) .load fun s =>
    let c := s.core k
    let len := c.sr (oTSC ops) % 2 ^ 17
    let loc := c.sr (oTSA ops)
    if !memOk loc len then s.trap k 2
    else
      let s := s.dmaIssue k rd (oDT ops) (c.sr (oTSB ops) % 2 ^ 26) loc len
      s.retire k ⟨s.core k, []⟩

/-- `DRD`: issues a loft-to-local transfer. -/
def execIDrd (core : Nat) (ops : BitVec 23) (s : State) : Res := s.dmaInstr core ops true

/-- `DWR`: issues a local-to-loft transfer. -/
def execIDwr (core : Nat) (ops : BitVec 23) (s : State) : Res := s.dmaInstr core ops false

/-- `DWAIT`: waits until the transfers of tag DT, or all of them, have completed. -/
def execIDwait (core : Nat) (ops : BitVec 23) (s : State) : Res :=
  let all := flag ops 19
  s.issueT core ops (decide (fld ops 18 0 = 0) && (!all || decide (oDT ops = 0))) .load fun s =>
    let w := if all then none else some (oDT ops)
    if (s.core core).dmaOf w = [] then s.retire core ⟨s.core core, []⟩ else s.waitIn core (.waitDma w)

/-! ### Messages (R185, R233) -/

/-- A message of this core that is not sent: counted, with MSG_DROP set (R185). -/
def State.dropMsg (s : State) (k : Nat) : State :=
  (s.setCore k ((s.core k).flagOn 4)).count (kCore k 8) 1

/-- The core's own endpoint address (R184). -/
def coreAddr (k : Nat) : Nat := localAddr 0 k 0

/-- Header word 1 with `QTAG` replaced (R193). -/
def setQtag (w1 : DWord) (q : Nat) : DWord :=
  BitVec.ofNat 64 (w1.toNat - fld w1 28 27 * 2 ^ 27 + q % 4 * 2 ^ 27)

/-- The message at a local-memory address, as the message unit sends it (R233). -/
def Core.readMsg (c : Core) (k a : Nat) : Msg :=
  let w0 := rdLe c.lmem a 8
  let w1 := BitVec.ofNat 64 (rdLe c.lmem (a + 8) 8)
  ⟨BitVec.ofNat 32 (w0 / 2 ^ 32), BitVec.ofNat 32 (coreAddr k), setQtag w1 c.qindex,
   rdBytes c.lmem (a + 16) (fld w1 55 42)⟩

/-- A core may send a message of this type (R233): DATA, ROW, RESULT, SYNC_OP or TASK. -/
def coreSends (type : Nat) : Bool := decide (type ≤ 3) || type == 6

/-- A SYNC_OP that a core sends is misuse: of a reserved code, at an object of this engine that it does not suit, at an object of the
control complex, or a WAIT, WAITSET or READ of an object of another engine (R204). What a peer's object is, the core cannot tell. -/
def State.opMisused (s : State) (m : Msg) : Bool :=
  let op := m.arg % 16
  if m.remote then decide (4 ≤ op) || decide (3840 ≤ m.sync) else s.misfits op m.sync

/-- What a core does after an operation that it has sent as a message: as after the instruction of that operation (R198, R236;
log entry 74). -/
def opAfter (m : Msg) : Option CoreRun :=
  if m.remote then none
  else
    match m.arg % 16 with
    | 1 => some (.waitSync m.sync 1 0)
    | 4 => some (.waitSync m.sync 4 (bf m.arg 19 4))
    | 5 => some (.waitSync m.sync 5 0)
    | 6 => some (.waitRead m.sync false 0)
    | _ => none

/-- The exact values that a RESULT message carries (R90, R193). -/
def resultVals (bcA : Bool) (m : Msg) : List Dy :=
  let bs := m.payload.drop 16
  match m.fmt with
  | 4 => (chunks 4 bs).map fun c => ⟨sx 32 (leNat c), -23⟩
  | 7 => (chunks 8 bs).map fun c => ⟨sx 48 (leNat c % 2 ^ 48), -31⟩
  | 10 => (chunks 4 bs).map fun c => (fpRead fp32 bcA (leNat c)).val
  | f => (rowVals f (rhScale (leAt m.payload 0 16)) bcA bs).getD []

/-- A message of a core delivers the output of a model of a slot's chain: it goes to the channel stage after the chain's last model, or
to a unit that works for the model that follows: its first layer's flank, or a core whose program serves it (R104; log entry 74). -/
def State.delivers (s : State) (m : Msg) (slot x : Nat) : Bool :=
  match (slModels (s.slotRec slot))[s.chainPos slot x + 1]? with
  | none => m.kind == 3
  | some y =>
    if m.type = 1 then s.descModel m.unit m.arg == y && lcLayer ((s.arr m.unit).desc m.arg) == 0
    else m.kind == 0 && match s.inForce.progs.find? fun p => p.cores.contains m.unit with
      | some p => p.models.contains y
      | none => false

/-- The values of a ROW or RESULT message. -/
def msgVals (bcA : Bool) (m : Msg) : List Dy :=
  if m.type = 1 then (rowVals m.fmt (rhScale (leAt m.payload 0 16)) bcA (m.payload.drop 16)).getD [] else resultVals bcA m

/-- A core that runs a model's last layer records the exact peak of the output that it delivers, as rows or as results: the models
that its program serves, of the generation and the slot's chain that the row header names (R104; log entry 74). -/
def State.corePeak (s : State) (k : Nat) (m : Msg) : State :=
  if m.type ≠ 1 ∧ m.type ≠ 2 then s
  else
    let h := leAt m.payload 0 16
    let ms := match s.inForce.progs.find? fun p => p.cores.contains k with | some p => p.models | none => []
    let mine := ms.filter fun x => (slModels (s.slotRec (rhSlot h))).contains x && tget 0 s.model.captured x == rhGen h && s.delivers m (rhSlot h) x
      && (match s.findEnt x (rhGen h) with
          | some e => (e.layers.getLast?.map fun y => lyExec y.entry != 0).getD false
          | none => false)
    mine.foldl (fun s x => s.notePeak (rhSlot h) x (((msgVals s.cfg.bcA m).map Dy.abs).foldl Dy.max ⟨0, 0⟩)) s

/-- `SEND`: sends the message at sa. -/
def execISend (core : Nat) (ops : BitVec 23) (s : State) : Res :=
  s.issueT core ops (decide (fld ops 17 0 = 0)) .load fun s =>
    let c := s.core core
    let a := c.sr (oSD ops)
    let m := c.readMsg core a
    let sends := coreSends m.type && decide (m.payload.length ≤ 8192) && m.sendable
    if !memOk a (16 + m.payload.length) then s.trap core 2
    else if !sends then
      let s := s.dropMsg core
      s.retire core ⟨s.core core, []⟩
    else if m.type = 3 ∧ s.opMisused m then s.trap core 5
    else
      let s := (s.send m).corePeak core m
      match if m.type = 3 then opAfter m else none with
      | some w => s.waitIn core w
      | none => s.retire core ⟨s.core core, []⟩

/-! ### Receive rings (R234) -/

/-- `RSETUP`: sets ring K to base sa and size sb, or disables it. -/
def execIRsetup (core : Nat) (ops : BitVec 23) (s : State) : Res :=
  s.issueT core ops (decide (fld ops 8 0 = 0)) .load fun s =>
    let c := s.core core
    let base := c.sr (fld ops 18 14)
    let size := c.sr (fld ops 13 9)
    if base % 64 ≠ 0 ∨ size % 64 ≠ 0 ∨ !memOk base size then s.trap core 4
    else
      let r : RxRing := ⟨base, size, base, base, 0⟩
      let s := s.setCore core { c with rings := tset .reset c.rings (fld ops 22 19) r }
      let s := s.rxFlush core
      s.retire core ⟨s.core core, []⟩

/-- A ring with its read pointer `n` further on, the bytes skipped before the end counted with it; it never passes the
write pointer (R234). -/
def RxRing.release (r : RxRing) (n : Nat) : RxRing :=
  let left := r.base + r.size - r.rd
  let skip := if left < n then left else 0
  if r.used ≤ skip + n then { r with rd := r.wr, used := 0 }
  else
    let p := if skip = 0 then r.rd else r.base
    { r with rd := r.adv p n, used := r.used - skip - n }

/-- `RADV`: advances a ring's read pointer, which lets held messages in. -/
def execIRadv (core : Nat) (ops : BitVec 23) (s : State) : Res :=
  s.issueT core ops (decide (fld ops 13 0 = 0)) .load fun s =>
    let c := s.core core
    let k := fld ops 22 19
    let n := cdiv (c.sr (fld ops 18 14)) 64 * 64
    let r := tget .reset c.rings k
    let s := s.setCore core { c with rings := tset .reset c.rings k (r.release n) }
    let s := s.rxFlush core
    s.retire core ⟨s.core core, []⟩

/-- `RSTAT`: reads a ring's read-pointer address and the bytes written and not released. -/
def execIRstat (core : Nat) (ops : BitVec 23) (s : State) : Res :=
  let sd := fld ops 18 14
  s.issueT core ops (decide (fld ops 13 0 = 0) && decide (sd % 2 = 0)) .load fun s =>
    let c := s.core core
    let r := tget .reset c.rings (fld ops 22 19)
    s.retire core ⟨(c.setS sd r.rd).setS (sd + 1) r.used, []⟩

/-! ### Array dispatch (R235) -/

/-- Bytes of a value and message `FMT` of an AEVAL format. -/
def aevalSize (f : Nat) : Nat := nth 0 [2, 4, 4, 2, 2] f
def aevalFmt (f : Nat) : Nat := nth 0 [3, 5, 6, 8, 9] f

/-- A row header with its `GEN` replaced (R194). -/
def rowHdrGen (h gen : Nat) : Nat := h - bf h 95 80 * 2 ^ 80 + gen % 2 ^ 16 * 2 ^ 80

/-- The pieces of a row sent in order; an array that does not exist refuses each (R185). -/
def State.sendRow (s : State) (k arr desc fmt : Nat) (hdr : List Byte) : List (List Byte) → State
  | [] => s
  | p :: r =>
    let m := mkMsg (localAddr 1 arr 0) (coreAddr k) 1 fmt false 0 (s.core k).qindex desc (hdr ++ p)
    State.sendRow (if arr < 48 then (s.send m).corePeak k m else s.dropMsg k) k arr desc fmt hdr r

/-- `AEVAL`: submits a row to a flank as ROW messages. -/
def execIAeval (core : Nat) (ops : BitVec 23) (s : State) : Res :=
  let f := fld ops 7 5
  s.issueT core ops (decide (fld ops 4 0 = 0) && decide (f ≤ 4)) .load fun s =>
    let c := s.core core
    let n := min (c.sr (oSD ops) % 2 ^ 17) 65536
    let a := c.sr (oSA ops)
    let w := c.sr (oSB ops)
    if n = 0 then s.retire core ⟨c, []⟩
    else if !memOk a (16 + n * aevalSize f) then s.trap core 2
    else
      let gen := tget 0 c.gens (bf w 15 12)
      let hdr := leBytes 16 (rowHdrGen (rdLe c.lmem a 16) gen)
      let s := s.sendRow core (bf w 31 26) (bf w 25 16) (aevalFmt f) hdr
        (chunks 8176 (rdBytes c.lmem (a + 16) (n * aevalSize f)))
      s.retire core ⟨s.core core, []⟩

end Sys2Proof.Machine
end

