-- ==== Sys2Proof/Machine/Window.lean ====
section
/-!
DEFINITION. The processing window: its deadline with the exit of every slot, the quantum boundary with all that takes effect
there, and the end of the shutdown's fade (R17, R20 to R23, R31 to R33, R36 to R40, R48, R61, R67, R104, R203, R207, R210,
R251 to R256, R274, R296, R309, R313, R316, R319 to R324, R385, R399, R412, R422, R428, R433, R463, R479, R502).
-/

namespace Sys2Proof.Machine

/-! ### What a deadline ends (R32, R203, R210, R254) -/

/-- A core leaves the rest of its quantum's work; a command that waits is abandoned, and one in work runs to its end (R23, R33). -/
def State.idleCore (s : State) (k : Nat) : State :=
  let stop (s : State) := s.setCore k { s.core k with run := .idle, woken := false, inTask := false }
  match (s.core k).run with
  | .halted => s
  | .idle => s
  | .cut => s
  | .late => s
  | .trapped => s
  | .running => s.setCore k { s.core k with run := .cut, woken := false, inTask := false }
  | _ => stop (s.traceCyc k 2 (s.gaugeTag k))

/-- A core's wait or read on its way to an object. -/
def waitOp (m : Msg) : Bool := m.kind == 7 && m.type == 3 && !m.src.toNat.testBit 31 && decide (4 ≤ m.arg % 16 ∧ m.arg % 16 ≤ 6)

/-- The tasks of a queue that are dropped: those of quantum `m`, or all. -/
def State.dropTasks (s : State) (all : Bool) (m : Nat) (p : Nat × List DWord) : State :=
  let keep := p.2.filter fun w => !all && fld w 40 39 != m % 4
  (s.setQueue p.1 keep).count (kSlice p.1 22) (p.2.length - keep.length)

/-- Work of cores, queues and flanks is abandoned: that of the window in process, or all. -/
def State.abandonWork (s : State) (all : Bool) : State :=
  let m := s.time.window
  let s := (s.cores.map (·.1)).foldl State.idleCore s
  let s : State := { s with grid.objs := s.grid.objs.map fun p => (p.1, { p.2 with queue := [] }),
                            grid.mesh := s.grid.mesh.filter fun x => !waitOp x }
  let s := s.grid.queues.foldl (fun s p => s.dropTasks all m p) s
  (s.arrs.map (·.1)).foldl State.arrDeadline s

/-! ### Shard sets (R316) -/

/-- The engine that a shard of a set comes from, after the re-maps in force (R316, R323). -/
def State.shardFrom (s : State) (w : DWord) (i : Nat) : Nat :=
  let a := Config.shardSource w.toNat i % 4096
  match s.fab.applied.find? fun e => rmFailed e == a with | some e => rmStandby e | none => a

/-- The shards of a declared set that have not arrived for the quantum in process; one whose path is below 3.0 carries no tag and does
not show as missing (R316). -/
def State.shardsMissing (s : State) (w : DWord) : List Nat :=
  let got := tget [] s.fab.shards (4 * fld w 63 57 + s.time.window % 4)
  (List.range (fld w 56 50)).filter fun i => !got.contains i && decide (0x30 ≤ s.pathVersion (s.shardFrom w i) s.dev)

/-- One set judged at the deadline; which engine a missing shard comes from the declaration does not say, and it is free (log
entry 3). -/
def State.shardJudge (s : State) (w : DWord) : State :=
  match s.shardsMissing w with
  | [] => s
  | l =>
    (s.count (kSwitch 8) 1).raise evShardMissing ((1, fld w 63 57) :: l.map fun i => (2, s.shardFrom w i))

/-! ### Misses and availability (R67, R286, R461, R463, R479) -/

/-- The generation of a model that serves the quantum in process, with its number. -/
def State.servingEnt (s : State) (m : Nat) : Option (Nat × DirEnt) := (tfind s.model.captured m).bind fun g => s.entOf m g

/-- A model of a chain can serve. -/
def State.modelServes (s : State) (m : Nat) : Bool :=
  match s.servingEnt m with
  | some (_, e) => (e.st == 3 || e.st == 4) && !s.lacksBlock m
  | none => false

/-- A tile of the model waits, without its array and without a stand-in. -/
def State.modelHeld (s : State) (m : Nat) : Bool :=
  (s.liveTiles m).any fun t => !s.tileServed (t.1, t.2.1) || (s.arr (finalFlank t)).flankOut

/-- The first cause of R67 that applies to a slot. -/
def State.missCause (s : State) (i : Nat) : Nat :=
  let w := s.slotRec i
  let ms := slModels w
  if !s.inRun then 1
  else if s.obs.halting then 7
  else if s.sup.shedQ.contains (slPrio w) then 2
  else if ms.any fun m => !s.modelServes m then 3
  else if ms.any s.modelHeld then 4
  else if ms.any s.modelLost then 5
  else if s.shardSets.any fun d => ms.contains (fld d 31 0) && s.shardsMissing d != [] then 6
  else 7

/-- A missed channel-quantum that R463 excuses: a shed class, or a model that the host has not activated or has removed, or that
the space policy evicted. -/
def State.excused (s : State) (ms : List Nat) (why : Nat) : Bool :=
  why == 2 || (why == 3 && match ms.find? fun m => !s.modelServes m with
    | some m =>
      (match s.activeEnt m with
        | some (_, e) => e.st == 6 || (e.st == 2 && s.planesOf e.model e.gen == [])
        | none => true)
    | none => false)

/-- A delivered channel-quantum counts for each model of its chain (R292). -/
def State.noteUse (s : State) (m : Nat) : State :=
  match s.servingEnt m with
  | some (x, e) => { s with model.use := tput s.model.use x (some (min (s.useOf (x, e) + 1) (2 ^ 32 - 1))) }.count (kDir x 0) 1
  | none => s

/-- The exit of one slot, with its availability. -/
def State.exitSlot (s : State) (i : Nat) : State :=
  let w := s.slotRec i
  let wet := s.wetDone i && s.inRun && !(slModels w).any s.modelLost
  let why := s.missCause i
  let ex := s.excused (slModels w) why
  let s := s.slotExit s.time.window i why
  if slChainLen w = 0 ∨ !s.inRun then s
  else if wet then (slModels w).foldl State.noteUse (s.count (kEngine 2) 1)
  else s.counts [(kEngine 2, 1), (kEngine (if ex then 3 else 4), 1)]

/-! ### The deadline (R31, R32, R48) -/

/-- The window closes. An engine that will re-phase at the coming boundary fades out over this quantum, and one that has
re-phased fades in over its first (R48). -/
def State.deadline (s : State) : State :=
  let s := s.toInstant (s.nextBoundary - 2) 0
  let s : State :=
    if s.time.rephased = none ∧ s.rephaseEn ∧ s.time.st = .lockedOffset then { s with time.rephased := some 2 } else s
  let s := if s.obs.halting then s else (List.range 16).foldl State.reelDeadline (s.abandonWork false)
  let s := s.shardSets.foldl State.shardJudge s
  let s := (s.activeSlots.foldl State.exitSlot s).tetherSend s.time.window
  { s with time.windowOpen := false, time.handed := (s.time.window + 3) * s.q + 24, time.rephased := if s.time.rephased = some 1 then none else s.time.rephased }.dirWrite

/-- `DEADLINE` (R31, R32). -/
def execDeadline (s : State) : Res := .next (if s.time.windowOpen ∧ s.time.counting then s.deadline else s)

/-! ### Run-state changes and the halt's end (R17, R20 to R22, R256, R412, R479) -/

/-- Every reel starts over, following its list or not. -/
def State.restartReels (s : State) (active : Bool) (n : Nat) : State :=
  (List.range 16).foldl (fun s r => s.reelRestart r active n) s

/-- The command that asked for a run-state change completes. -/
def State.donePend (s : State) : State :=
  match s.run.pendCmd with
  | some c => State.finish { s with run.pendCmd := none } c 0 0 0 []
  | none => s

/-- The pending change at the boundary that opens the window of quantum `n`. -/
def State.transition (s : State) (n : Nat) : State :=
  match s.run.pend with
  | none => s
  | some t =>
    let s : State := { s with run.st := t, run.pend := none }
    match t with
    | .run => (State.restartReels { s with run.runQ := n } true n).donePend
    | .maintenance => (s.restartReels false n).donePend
    | .shutdown =>
      let s := State.abortLong { s with run.shut := 1, run.fadeQ := n } [0x30, 0x31, 0x40, 0x41, 0x70]
      let s := if s.test.kind = 2 then s.dropRun else s
      s.restartReels false n
    | _ => s

/-- A halt ends at the boundary that opens the window of quantum `n`; its quantum's work is abandoned. -/
def State.resumeHalt (s : State) (n : Nat) : State :=
  if !s.obs.resume then s
  else
    let s := if s.obs.halting then (s.abandonWork true).restartReels s.inRun n else s
    (s.endHalt.marker 2).raise evDebugResumed []

/-! ### Re-maps (R323, R324) -/

/-- A dormant model can serve: it is RESIDENT, or runs on stand-in cores. -/
def State.dormantReady (s : State) (m : Nat) : Bool :=
  match s.activeEnt m with | some (_, e) => e.st == 3 || e.st == 4 | none => false

/-- The plan of a failed engine comes into force in place of what was in force for it (R322, R323). -/
def State.takePlan (s : State) (f : Nat) : State :=
  let plan := s.planFor f
  let new := plan.filter fun e => rmStandby e == s.dev && !s.fab.applied.contains e
  let had := s.fab.applied.any fun e => rmFailed e == f && rmStandby e == s.dev
  let s : State := { s with fab.applied := s.fab.applied.filter (fun e => rmFailed e != f) ++ plan }
  let s := if new = [] ∨ had then s else s.loadSubs (s.placement.dormant f)
  ((dedupN (new.map rmModel)).filter fun m => !s.dormantReady m).foldl (fun s m => s.raise evRemapLate [(4, m)]) s

/-- The re-map of a failed engine applies; what it stood for as a standby goes to the next entry that is serving (R322, R323). -/
def State.applyRemap (s : State) (f : Nat) : State :=
  if f = s.dev ∨ s.fab.remapped.contains f then s
  else
    let again := s.fab.remapped.filter fun g => s.fab.applied.any fun e => rmFailed e == g && rmStandby e == f
    let s : State := { s with fab.remapped := s.fab.remapped ++ [f] }
    again.foldl State.takePlan ((s.takePlan f).raise evFabRemapApplied [(2, f)])

/-- The parts of a returned engine revert to it; a command that asked for the return completes. -/
def State.revertRemap (s : State) (f : Nat) : State :=
  let mine := s.fab.applied.any fun e => rmFailed e == f && rmStandby e == s.dev
  let had := s.fab.remapped.contains f
  let s : State := { s with
    fab.applied := s.fab.applied.filter fun e => rmFailed e != f, fab.remapped := s.fab.remapped.filter (· != f),
    fab.failed := s.fab.failed.filter (· != f), fab.declaredAt := tdel s.fab.declaredAt f, fab.remap := tdel s.fab.remap f,
    fab.servedBy := if f = s.dev then [] else s.fab.servedBy }
  let s := if had && mine then s.unloadSubs (s.placement.dormant f) else s
  let s := if f = s.dev then s.placement.syncs.foldl (fun s p => if (s.obj p.1) = .reset then s.loadSync p else s) s else s
  match s.host.long.find? fun c => c.opcode == 0x70 && fld c.p1 11 0 == f with
  | some c => s.finish c 0 0 0 []
  | none => s

/-- Re-maps and returns whose index the boundary `m` reaches. -/
def State.remapStep (s : State) (m : Nat) : State :=
  s.fab.remap.foldl (fun s p =>
    if m < p.2.1 then s else if p.2.2 then s.revertRemap p.1 else s.applyRemap p.1) s

/-! ### What a window begins with (R203, R207, R219, R251, R274, R428) -/

/-- Every object with `QRESET` returns to `INIT`. -/
def State.qreset (s : State) : State :=
  { s with grid.objs := s.grid.objs.map fun p =>
      if p.2.qreset then (p.1, { p.2 with count := p.2.init, ovf := false, queue := [] }) else p }

/-- The event of a priority class, object 4,092 + class: set while the class is served. -/
def State.classEvent (s : State) (k : Nat) : State :=
  let oi := 4092 + k
  let s := s.setObj oi { s.obj oi with w0 := BitVec.ofNat 64 (3 * 2 ^ 62) }
  if s.sup.shed.contains k then s.setObj oi { s.obj oi with count := 0 } else s.evSet oi

/-- A core begins its program, at `ENTRY`, or in ready-list mode at its dispatch address (R207, R208, R274). -/
def State.startCore (s : State) (k : Nat) : State :=
    let c := s.core k
    let ms := match s.inForce.progs.find? fun p => p.cores.contains k with | some p => p.models | none => []
    let put (t : Tab Nat) (x : Nat × Nat) : Tab Nat := tset 0 t x.1 (tget 0 s.model.captured x.2)
    let gens := ((List.range ms.length).zip ms).foldl put []
    s.setCore k { c with run := .running, woken := false, inTask := false, tag := [], gens := gens,
                         idx := if s.readyList then c.dispatch else c.entry, qindex := s.time.window % 2 ^ 32 }

/-- A programmed core begins its program; an excluded one, one under test, a halted one, and one whose part another engine serves do
not, nor does any while the engine refuses new work (R23). One that the deadline cut off may still run its last command, which is a
matter of timing and free (log entry 44): it counts in `LATE_START` and begins at its safe boundary (R33). -/
def State.beginCore (s : State) (k : Nat) : State :=
  let c := s.core k
  if s.draining || !c.hasProg || c.halt || s.excl k || s.isolated k || s.servedElsewhere 0 k then s
  else if c.run = .cut then
    let (n, s) := s.take
    if Config.freeChoice n % 2 = 1 then (s.setCore k { c with run := .late }).count (kEngine 1) 1 else s.startCore k
  else s.startCore k

/-- The schedule entries that release in the phase of the boundary itself, in ascending index: those of the quantum that begins,
and those `carried` from the quantum before, whose instant lies after its last phase (R29, R38, R39). -/
def State.releaseFirst (s : State) (carried : List Nat) : State :=
  (List.range 256).foldl (fun s i =>
    if s.due i && s.duePhase i == 0 then s.release i
    else if carried.contains i && s.mayRelease i then s.actEntry i else s) s

/-- The entries of the present quantum that are due in the phase of the next boundary (R29). -/
def State.carried (s : State) : List Nat := (List.range 256).filter fun i => s.due i && !s.dueWithin i

/-- Units begin their work on the quantum, and held fill signals go out. -/
def State.beginUnits (s : State) (carried : List Nat) : State :=
  let halt := s.obs.halting
  let s := if halt then s else s.qreset
  let s := (List.range 4).foldl State.classEvent s
  let s := (s.cores.map (·.1)).foldl State.beginCore s
  let s := s.releaseFirst carried
  if halt then s else (List.range 16).foldl State.reelBoundary ((List.range 16).foldl State.reelClear s)

/-! ### The boundary (R17, R31, R48, R399) -/

/-- A new route table takes effect at the first boundary after it is computed (R309). -/
def State.newRoutes (s : State) : State :=
  match s.fab.nextRoutes with
  | some (r, l) => { s with fab.routes := r, fab.routeLsrs := l, fab.nextRoutes := none }
  | none => s

/-- What goes to the fabric at a boundary, and what is counted of it (R309, R313, R316, R318 to R321). The heartbeat says
not-serving outside RUN, also where the engine has not been in RUN since its boot (R22; DESIGN CHOICE, log entry 79). -/
def State.fabricTail (s : State) (n : Nat) : State :=
  let s := (s.newRoutes.rootCheck.mcPrunes.countMisses).heartbeatSend (s.run.st != .run || s.obs.halting)
  let s := (s.timeSend.mcAcks).mcRejoin n
  { s with fab.shards := s.fab.shards.filter fun p => p.1 % 4 != (n + 2) % 4 }

/-- The peaks of the models' outputs, `k` quanta older: a quantum without a peak stands as zero (R104). -/
def State.agePeaks (s : State) (k : Nat) : State :=
  { s with model.peaks := s.model.peaks.map fun p => (p.1, (List.replicate (min k 8) ⟨0, 0⟩ ++ p.2).take 8) }

/-- The generations captured for the window, and the peaks of the models' outputs one quantum older (R104, R274). -/
def State.capture (s : State) : State :=
  let act := (s.nv.dir.filter fun p => p.2.active).map fun p => (p.2.model, p.2.gen)
  State.agePeaks { s with model.captured := act.foldl (fun t p => tput t p.1 (some p.2)) [] } 1

/-- The stages in force counted, and the classes that they shed from here on (R422, R428, R433). -/
def State.stageTail (s : State) : State :=
  let s := s.counts (((List.range 9).filter fun k => decide (1 ≤ k) && s.ballast k).map fun k => (kSupply (39 + k), 1))
  { s with sup.shed := s.shedNow, sup.shedQ := s.shedNow, sup.lost := 0, sup.storm := false }

/-- Changes that take effect at the boundary that opens the window of quantum `n`: at the arrays, the models and the re-maps. They do
so also while a debug halt is in force and where a re-phase opens no window: a quantum whose chain did not run pushes `HIST_INIT`, and
plans apply (R105, R323, R479). -/
def State.takeEffect (s : State) (n : Nat) : State :=
  let s := if !s.time.opened then s else (s.arrs.map (·.1)).foldl (fun s a => s.arrBoundary s.time.window a) s
  ((s.endPrograms.degrade.placeAgain.returnSpilled.switchStep n).remapStep (n + 1)).startPrograms.shareStandins

/-- `k` quanta have no window, at a re-phase: their peaks, of the slots and of the models' outputs, stand as zero (R48, R104). -/
def State.noWindows (s : State) (k : Nat) : State :=
  { s.agePeaks k with chan.slots := s.chan.slots.map fun p =>
      (p.1, { p.2 with peaks := (List.replicate (min k 8) 0 ++ p.2.peaks).take 8 }) }

/-- The window of quantum `n` opens. -/
def State.openWindow (s : State) (n : Nat) (late : Bool) (carried : List Nat) : State :=
  let s := (s.takeEffect n).capture.stageTail
  let s : State := { s with time.windowOpen := true, time.window := n, time.opened := true }
  ((s.channelEntry (n * s.q) late).beginUnits carried).fabricTail n

/-- An output stream across a step of sample time from index `old` to `new` (R48, R344): samples at indices that sample time does not
pass through are never presented; the windows that the step skips entirely are not sent, and the one that it cuts is. After a
backward step, what waits under the old count is dropped, and packets go on from the window of `new` (log entry 61). -/
def StreamOut.stepped (x : StreamOut) (n old new : Nat) : StreamOut :=
  { x with samples := if new < old then [] else x.samples.filter fun p => decide (new ≤ p.1),
           next := x.next.map fun p => if new < old then new / n * n else max p (new / n * n) }

/-- The step of a re-phase: time goes on as the source's, and what lies before it in the present quantum does not release; an entry
due at the very instant where time goes on lies outside the skipped span and releases (R29, R48; DESIGN CHOICE, log entry 79). -/
def State.stepTime (s : State) : State :=
  let t := (((s.time.sample * 4096 : Nat) : Int) + s.time.err).toNat
  let old := s.time.sample
  let ts (s : State) (i : Nat) := packTs (s.time.sample / s.q * s.q + sePhase (s.entry i)) (seTick (s.entry i))
  let n := s.spp
  let s := s.setTime t
  let outs := s.chan.outs.map fun p => (p.1, p.2.stepped (n p.1) old s.time.sample)
  let s : State := { s with chan.outs := outs, time.st := .locked, time.err := 0, time.stepped := true, time.rephased := some 0,
                            time.handed := (s.time.sample / s.q + 1) * s.q + 24 }
  State.raise { s with time.released := (List.range 256).filter fun i => decide (ts s i < s.tstamp) } evClockRephased []

/-- The start state at the boundary `m` after steps 9 to 11 (R17, R399, R485). -/
def State.startState (s : State) (m : Nat) : State :=
  let run := s.cfg.startRun && s.run.placeOk && s.lc != 0
  let result := if s.lc = 0 then 3 else if !s.run.placeOk then 5 else if run then 1 else 2
  let s := State.postHeld { s with run.st := if run then .run else .maintenance, run.step := 12, run.result := result,
                                   run.runQ := m }
  ((s.bootAdapters.restartReels run m).dropIns (m * s.q)).fabricTail m

/-- A quantum boundary. -/
def State.boundary (s : State) : State :=
  let m := s.nextBoundary / s.q
  let carried := s.carried
  let s : State := { s with time.sample := idx64 s.nextBoundary, time.tick := 0, time.released := [], grid.misused := [],
                            ev.fwdCount := 0, time.handed := (m + 1) * s.q + 24 }
  let s := s.lapseSources.dirWrite
  match s.run.st with
  | .off => s
  | .boot => if s.run.s9 && s.run.s10 && s.run.s11 then s.startState m else s
  | _ =>
    let late := s.run.st != .shutdown
    let s := (s.resumeHalt (m - 1)).transition (m - 1)
    match s.time.rephased with
    | some 0 => State.fabricTail { (s.takeEffect (m - 1)).noWindows 1 with time.rephased := some 1 } (m - 1)
    | some 2 =>
      if s.time.st = .lockedOffset then
        let s := s.takeEffect (m - 1)
        let t := s.stepTime
        ((t.noWindows (max 1 (t.time.sample / s.q + 1 - m))).dropIns (max t.nextBoundary s.time.sample)).fabricTail (m - 1)
      else State.openWindow { s with time.rephased := some 1 } (m - 1) late carried
    | _ => s.openWindow (m - 1) late carried

/-- `QUANTUM_BOUNDARY` (R31): a window that is still open meets its deadline first. -/
def execQuantumBoundary (s : State) : Res :=
  .next (if !s.time.counting then s else (if s.time.windowOpen then s.deadline else s).boundary)

/-! ### The end of the shutdown's fade (R21, R23, R172, R367, R502) -/

/-- `SHUTDOWN_FADE_DONE` (R21, R23): the fade quantum has been delivered; the streams stop, the units are drained, and what is
kept through OFF is written. A warm reset under way ends the shutdown (R24). -/
def execShutdownFadeDone (s : State) : Res :=
  .next (
    if s.run.st = .shutdown ∧ s.run.shut = 1 ∧ s.fadePast ∧ s.run.resetting = none then
      let s := ((s.streamStop.abandonWork true).drainStore).saveAdapters
      let s := (s.checkpoint 0).checkpoint 1
      { s with run.shut := 2 }
    else s)

end Sys2Proof.Machine
end

