-- ==== Sys2Proof/Machine/Dispatch.lean ====
section
/-!
DEFINITION. The dispatch: one arm for each command of the table, each one direct call of its meaning.
-/

namespace Sys2Proof.Machine

def exec (i : Instr) (s : State) : Host.Outcome State Fault Refusal :=
  match i with
  | .supplyGood => Sys2Proof.Machine.execSupplyGood s
  | .railTrip rail intentReads => Sys2Proof.Machine.execRailTrip rail intentReads s
  | .supplyGlitch rail => Sys2Proof.Machine.execSupplyGlitch rail s
  | .bootSequence romOk vreq => Sys2Proof.Machine.execBootSequence romOk vreq s
  | .recoveryBudgetExpiry => Sys2Proof.Machine.execRecoveryBudgetExpiry s
  | .linkTrainingEnd => Sys2Proof.Machine.execLinkTrainingEnd s
  | .clockAcquisitionTimeout => Sys2Proof.Machine.execClockAcquisitionTimeout s
  | .fabricConvergence => Sys2Proof.Machine.execFabricConvergence s
  | .warmReset c => Sys2Proof.Machine.execWarmReset c s
  | .warmResetDrainDone => Sys2Proof.Machine.execWarmResetDrainDone s
  | .quantumBoundary => Sys2Proof.Machine.execQuantumBoundary s
  | .useRecentHalve => Sys2Proof.Machine.execUseRecentHalve s
  | .scheduleRelease idx => Sys2Proof.Machine.execScheduleRelease idx s
  | .deadline => Sys2Proof.Machine.execDeadline s
  | .lateResultDiscard => Sys2Proof.Machine.execLateResultDiscard s
  | .coreDeadlineReached core => Sys2Proof.Machine.execCoreDeadlineReached core s
  | .timeWaitResume core => Sys2Proof.Machine.execTimeWaitResume core s
  | .sourceQualified src ppb => Sys2Proof.Machine.execSourceQualified src ppb s
  | .stabilityTestPass src sec frac errs => Sys2Proof.Machine.execStabilityTestPass src sec frac errs s
  | .slewComplete => Sys2Proof.Machine.execSlewComplete s
  | .sourceLost src => Sys2Proof.Machine.execSourceLost src s
  | .phaseStep errs => Sys2Proof.Machine.execPhaseStep errs s
  | .holdoverExpiry => Sys2Proof.Machine.execHoldoverExpiry s
  | .revertHoldoffExpiry src => Sys2Proof.Machine.execRevertHoldoffExpiry src s
  | .mediaPacketRx port p => Sys2Proof.Machine.execMediaPacketRx port p s
  | .mediaPacketTx stream => Sys2Proof.Machine.execMediaPacketTx stream s
  | .ptpMessageRx port m => Sys2Proof.Machine.execPtpMessageRx port m s
  | .arpIcmpRx port kind vid target sender payload => Sys2Proof.Machine.execArpIcmpRx port kind vid target sender payload s
  | .mediaLinkDown port => Sys2Proof.Machine.execMediaLinkDown port s
  | .mediaLinkUp port => Sys2Proof.Machine.execMediaLinkUp port s
  | .mediaStreamStop => Sys2Proof.Machine.execMediaStreamStop s
  | .madiFrameRx port subs => Sys2Proof.Machine.execMadiFrameRx port subs s
  | .madiFrameTx port => Sys2Proof.Machine.execMadiFrameTx port s
  | .tetherStreamRx m => Sys2Proof.Machine.execTetherStreamRx m s
  | .rowReceive m => Sys2Proof.Machine.execRowReceive m s
  | .passIssue arr delayNs => Sys2Proof.Machine.execPassIssue arr delayNs s
  | .flankGroupOut arr group dev => Sys2Proof.Machine.execFlankGroupOut arr group dev s
  | .rerunPass arr => Sys2Proof.Machine.execRerunPass arr s
  | .joinReduce arr slot tpos => Sys2Proof.Machine.execJoinReduce arr slot tpos s
  | .adapterTermReceive arr slot tpos => Sys2Proof.Machine.execAdapterTermReceive arr slot tpos s
  | .calConditionCheck arr temp => Sys2Proof.Machine.execCalConditionCheck arr temp s
  | .calSlice arr passes => Sys2Proof.Machine.execCalSlice arr passes s
  | .calibrationComplete arr meas curves => Sys2Proof.Machine.execCalibrationComplete arr meas curves s
  | .planeProgram arr plane env => Sys2Proof.Machine.execPlaneProgram arr plane env s
  | .planeProgramDone arr meas off => Sys2Proof.Machine.execPlaneProgramDone arr meas off s
  | .columnProgram arr plane cols stuck => Sys2Proof.Machine.execColumnProgram arr plane cols stuck s
  | .spareRemap arr plane col stuck => Sys2Proof.Machine.execSpareRemap arr plane col stuck s
  | .probeSave arr desc => Sys2Proof.Machine.execProbeSave arr desc s
  | .adapterTrainStep arr desc rows ga gb => Sys2Proof.Machine.execAdapterTrainStep arr desc rows ga gb s
  | .adapterCandidateEval arr desc rank => Sys2Proof.Machine.execAdapterCandidateEval arr desc rank s
  | .adapterWriteback => Sys2Proof.Machine.execAdapterWriteback s
  | .phaseSwitch core compute => Sys2Proof.Machine.execPhaseSwitch core compute s
  | .dataDeliver m => Sys2Proof.Machine.execDataDeliver m s
  | .resultDeliver m => Sys2Proof.Machine.execResultDeliver m s
  | .taskEnqueue m => Sys2Proof.Machine.execTaskEnqueue m s
  | .loftReadReq m => Sys2Proof.Machine.execLoftReadReq m s
  | .loftWrite m => Sys2Proof.Machine.execLoftWrite m s
  | .dmaTransferComplete core => Sys2Proof.Machine.execDmaTransferComplete core s
  | .syncSignal obj n src => Sys2Proof.Machine.execSyncSignal obj n src s
  | .syncArrive obj src => Sys2Proof.Machine.execSyncArrive obj src s
  | .syncSet obj src => Sys2Proof.Machine.execSyncSet obj src s
  | .syncClear obj src => Sys2Proof.Machine.execSyncClear obj src s
  | .syncWait obj n core => Sys2Proof.Machine.execSyncWait obj n core s
  | .syncWaitset obj core => Sys2Proof.Machine.execSyncWaitset obj core s
  | .syncRead obj core => Sys2Proof.Machine.execSyncRead obj core s
  | .coreWake core => Sys2Proof.Machine.execCoreWake core s
  | .taskAvailable core => Sys2Proof.Machine.execTaskAvailable core s
  | .iNop core ops => Sys2Proof.Machine.execINop core ops s
  | .iAdd core ops => Sys2Proof.Machine.execIAdd core ops s
  | .iSub core ops => Sys2Proof.Machine.execISub core ops s
  | .iMul core ops => Sys2Proof.Machine.execIMul core ops s
  | .iAnd core ops => Sys2Proof.Machine.execIAnd core ops s
  | .iOr core ops => Sys2Proof.Machine.execIOr core ops s
  | .iXor core ops => Sys2Proof.Machine.execIXor core ops s
  | .iShl core ops => Sys2Proof.Machine.execIShl core ops s
  | .iShr core ops => Sys2Proof.Machine.execIShr core ops s
  | .iSra core ops => Sys2Proof.Machine.execISra core ops s
  | .iSlt core ops => Sys2Proof.Machine.execISlt core ops s
  | .iSltu core ops => Sys2Proof.Machine.execISltu core ops s
  | .iMin core ops => Sys2Proof.Machine.execIMin core ops s
  | .iMax core ops => Sys2Proof.Machine.execIMax core ops s
  | .iAddi core ops => Sys2Proof.Machine.execIAddi core ops s
  | .iAndi core ops => Sys2Proof.Machine.execIAndi core ops s
  | .iOri core ops => Sys2Proof.Machine.execIOri core ops s
  | .iLui core ops => Sys2Proof.Machine.execILui core ops s
  | .iLlo core ops => Sys2Proof.Machine.execILlo core ops s
  | .iLd core ops => Sys2Proof.Machine.execILd core ops s
  | .iSt core ops => Sys2Proof.Machine.execISt core ops s
  | .iBeq core ops => Sys2Proof.Machine.execIBeq core ops s
  | .iBne core ops => Sys2Proof.Machine.execIBne core ops s
  | .iBlt core ops => Sys2Proof.Machine.execIBlt core ops s
  | .iBge core ops => Sys2Proof.Machine.execIBge core ops s
  | .iJal core ops => Sys2Proof.Machine.execIJal core ops s
  | .iJr core ops => Sys2Proof.Machine.execIJr core ops s
  | .iMfs core ops => Sys2Proof.Machine.execIMfs core ops s
  | .iMts core ops => Sys2Proof.Machine.execIMts core ops s
  | .iScalec core ops => Sys2Proof.Machine.execIScalec core ops s
  | .iScmax core ops => Sys2Proof.Machine.execIScmax core ops s
  | .iVadd core ops => Sys2Proof.Machine.execIVadd core ops s
  | .iVsub core ops => Sys2Proof.Machine.execIVsub core ops s
  | .iVmul core ops => Sys2Proof.Machine.execIVmul core ops s
  | .iVmac core ops => Sys2Proof.Machine.execIVmac core ops s
  | .iVmin core ops => Sys2Proof.Machine.execIVmin core ops s
  | .iVmax core ops => Sys2Proof.Machine.execIVmax core ops s
  | .iVabs core ops => Sys2Proof.Machine.execIVabs core ops s
  | .iVand core ops => Sys2Proof.Machine.execIVand core ops s
  | .iVor core ops => Sys2Proof.Machine.execIVor core ops s
  | .iVxor core ops => Sys2Proof.Machine.execIVxor core ops s
  | .iVshl core ops => Sys2Proof.Machine.execIVshl core ops s
  | .iVsra core ops => Sys2Proof.Machine.execIVsra core ops s
  | .iVcmplt core ops => Sys2Proof.Machine.execIVcmplt core ops s
  | .iVsel core ops => Sys2Proof.Machine.execIVsel core ops s
  | .iVbcast core ops => Sys2Proof.Machine.execIVbcast core ops s
  | .iVcvt core ops => Sys2Proof.Machine.execIVcvt core ops s
  | .iVscale core ops => Sys2Proof.Machine.execIVscale core ops s
  | .iVrsum core ops => Sys2Proof.Machine.execIVrsum core ops s
  | .iVrmax core ops => Sys2Proof.Machine.execIVrmax core ops s
  | .iVamax core ops => Sys2Proof.Machine.execIVamax core ops s
  | .iVquant core ops => Sys2Proof.Machine.execIVquant core ops s
  | .iVld core ops => Sys2Proof.Machine.execIVld core ops s
  | .iVst core ops => Sys2Proof.Machine.execIVst core ops s
  | .iMldw core ops => Sys2Proof.Machine.execIMldw core ops s
  | .iMmac core ops => Sys2Proof.Machine.execIMmac core ops s
  | .iMdrain core ops => Sys2Proof.Machine.execIMdrain core ops s
  | .iDrd core ops => Sys2Proof.Machine.execIDrd core ops s
  | .iDwr core ops => Sys2Proof.Machine.execIDwr core ops s
  | .iDwait core ops => Sys2Proof.Machine.execIDwait core ops s
  | .iSend core ops => Sys2Proof.Machine.execISend core ops s
  | .iRsetup core ops => Sys2Proof.Machine.execIRsetup core ops s
  | .iRadv core ops => Sys2Proof.Machine.execIRadv core ops s
  | .iRstat core ops => Sys2Proof.Machine.execIRstat core ops s
  | .iAeval core ops => Sys2Proof.Machine.execIAeval core ops s
  | .iSig core ops => Sys2Proof.Machine.execISig core ops s
  | .iArrive core ops => Sys2Proof.Machine.execIArrive core ops s
  | .iSset core ops => Sys2Proof.Machine.execISset core ops s
  | .iSclr core ops => Sys2Proof.Machine.execISclr core ops s
  | .iSwait core ops => Sys2Proof.Machine.execISwait core ops s
  | .iSwaitset core ops => Sys2Proof.Machine.execISwaitset core ops s
  | .iSread core ops => Sys2Proof.Machine.execISread core ops s
  | .iQend core ops => Sys2Proof.Machine.execIQend core ops s
  | .iTake core ops => Sys2Proof.Machine.execITake core ops s
  | .iTend core ops => Sys2Proof.Machine.execITend core ops s
  | .iTnow core ops => Sys2Proof.Machine.execITnow core ops s
  | .iTwait core ops => Sys2Proof.Machine.execITwait core ops s
  | .iTwaitq core ops => Sys2Proof.Machine.execITwaitq core ops s
  | .iTdline core ops => Sys2Proof.Machine.execITdline core ops s
  | .reelFillStart reel => Sys2Proof.Machine.execReelFillStart reel s
  | .reelFillComplete reel env stalls data => Sys2Proof.Machine.execReelFillComplete reel env stalls data s
  | .reelRelease m => Sys2Proof.Machine.execReelRelease m s
  | .reelLateNotify reel core => Sys2Proof.Machine.execReelLateNotify reel core s
  | .fabricMessageSend m => Sys2Proof.Machine.execFabricMessageSend m s
  | .flitReceive port f fec => Sys2Proof.Machine.execFlitReceive port f fec s
  | .fecUncorrLimit port => Sys2Proof.Machine.execFecUncorrLimit port s
  | .linkLossOfSignal port => Sys2Proof.Machine.execLinkLossOfSignal port s
  | .linkTrained port => Sys2Proof.Machine.execLinkTrained port s
  | .trainingTimeout port => Sys2Proof.Machine.execTrainingTimeout port s
  | .versionExchange port lo hi => Sys2Proof.Machine.execVersionExchange port lo hi s
  | .versionRetry port => Sys2Proof.Machine.execVersionRetry port s
  | .neighbourExchange port n => Sys2Proof.Machine.execNeighbourExchange port n s
  | .lsrReceive port r => Sys2Proof.Machine.execLsrReceive port r s
  | .lsrPeriodic => Sys2Proof.Machine.execLsrPeriodic s
  | .lsrExpiry uid => Sys2Proof.Machine.execLsrExpiry uid s
  | .linkDelayMeasure port delay => Sys2Proof.Machine.execLinkDelayMeasure port delay s
  | .timeFlitReceive port t residence => Sys2Proof.Machine.execTimeFlitReceive port t residence s
  | .heartbeatReceive h => Sys2Proof.Machine.execHeartbeatReceive h s
  | .peerDeclaredFailed addr => Sys2Proof.Machine.execPeerDeclaredFailed addr s
  | .remapSelfApply addr => Sys2Proof.Machine.execRemapSelfApply addr s
  | .mcAckReceive group member vc seq => Sys2Proof.Machine.execMcAckReceive group member vc seq s
  | .mcPruneNotice src group => Sys2Proof.Machine.execMcPruneNotice src group s
  | .bulkResendRequest src transfer sectors => Sys2Proof.Machine.execBulkResendRequest src transfer sectors s
  | .resendRequestReceive src transfer sectors => Sys2Proof.Machine.execResendRequestReceive src transfer sectors s
  | .switchReadyReport model gen holder => Sys2Proof.Machine.execSwitchReadyReport model gen holder s
  | .switchTimeout model => Sys2Proof.Machine.execSwitchTimeout model s
  | .hostLinkDown => Sys2Proof.Machine.execHostLinkDown s
  | .hostLinkUp rate width => Sys2Proof.Machine.execHostLinkUp rate width s
  | .hostFlr => Sys2Proof.Machine.execHostFlr s
  | .hostHotReset => Sys2Proof.Machine.execHostHotReset s
  | .hostD3hotEntry => Sys2Proof.Machine.execHostD3hotEntry s
  | .hostD0Return => Sys2Proof.Machine.execHostD0Return s
  | .portLaserFault chiplet within60 => Sys2Proof.Machine.execPortLaserFault chiplet within60 s
  | .laserRetry chiplet ok => Sys2Proof.Machine.execLaserRetry chiplet ok s
  | .sqTailWrite v => Sys2Proof.Machine.execSqTailWrite v s
  | .cqHeadWrite v => Sys2Proof.Machine.execCqHeadWrite v s
  | .eqHeadWrite v => Sys2Proof.Machine.execEqHeadWrite v s
  | .tqHeadWrite v => Sys2Proof.Machine.execTqHeadWrite v s
  | .ringCfgWrite ring v => Sys2Proof.Machine.execRingCfgWrite ring v s
  | .ringBaseWrite ring v => Sys2Proof.Machine.execRingBaseWrite ring v s
  | .evtSummaryClear v => Sys2Proof.Machine.execEvtSummaryClear v s
  | .clkStatusClear v => Sys2Proof.Machine.execClkStatusClear v s
  | .registerWrite off v => Sys2Proof.Machine.execRegisterWrite off v s
  | .bar0BadAccess off size write => Sys2Proof.Machine.execBar0BadAccess off size write s
  | .commandFetch bytes data listOk dmaOk => Sys2Proof.Machine.execCommandFetch bytes data listOk dmaOk s
  | .peerCommand src bytes data => Sys2Proof.Machine.execPeerCommand src bytes data s
  | .negotiate c => Sys2Proof.Machine.execNegotiate c s
  | .identify c => Sys2Proof.Machine.execIdentify c s
  | .setRunState c => Sys2Proof.Machine.execSetRunState c s
  | .cfgWrite c => Sys2Proof.Machine.execCfgWrite c s
  | .cfgRead c => Sys2Proof.Machine.execCfgRead c s
  | .install c => Sys2Proof.Machine.execInstall c s
  | .installComplete c => Sys2Proof.Machine.execInstallComplete c s
  | .activate c => Sys2Proof.Machine.execActivate c s
  | .dirRead c => Sys2Proof.Machine.execDirRead c s
  | .modelRemove c => Sys2Proof.Machine.execModelRemove c s
  | .spillRegister c => Sys2Proof.Machine.execSpillRegister c s
  | .calibrate c => Sys2Proof.Machine.execCalibrate c s
  | .bist c => Sys2Proof.Machine.execBist c s
  | .debugHalt c => Sys2Proof.Machine.execDebugHalt c s
  | .debugResume c => Sys2Proof.Machine.execDebugResume c s
  | .counterRead c => Sys2Proof.Machine.execCounterRead c s
  | .ripcordArm c => Sys2Proof.Machine.execRipcordArm c s
  | .telemetry c => Sys2Proof.Machine.execTelemetry c s
  | .eventlogRead c => Sys2Proof.Machine.execEventlogRead c s
  | .attest c => Sys2Proof.Machine.execAttest c s
  | .lcTransition c => Sys2Proof.Machine.execLcTransition c s
  | .lcKeygenComplete keys => Sys2Proof.Machine.execLcKeygenComplete keys s
  | .reformat c => Sys2Proof.Machine.execReformat c s
  | .remapReturn c => Sys2Proof.Machine.execRemapReturn c s
  | .storeRead sector env => Sys2Proof.Machine.execStoreRead sector env s
  | .eraseResume bank => Sys2Proof.Machine.execEraseResume bank s
  | .poisonReport sector => Sys2Proof.Machine.execPoisonReport sector s
  | .storeProgramRequest sector first data allowClear sealCw by_ => Sys2Proof.Machine.execStoreProgramRequest sector first data allowClear sealCw by_ s
  | .programStepComplete bank verifyOk => Sys2Proof.Machine.execProgramStepComplete bank verifyOk s
  | .storeEraseRequest sector by_ => Sys2Proof.Machine.execStoreEraseRequest sector by_ s
  | .eraseComplete bank verifyOk => Sys2Proof.Machine.execEraseComplete bank verifyOk s
  | .relocation sector env => Sys2Proof.Machine.execRelocation sector env s
  | .patrolRead sector env => Sys2Proof.Machine.execPatrolRead sector env s
  | .checkpointWrite stack => Sys2Proof.Machine.execCheckpointWrite stack s
  | .droopDetect => Sys2Proof.Machine.execDroopDetect s
  | .stretchHoldEnd cycles => Sys2Proof.Machine.execStretchHoldEnd cycles s
  | .rampStepEnd => Sys2Proof.Machine.execRampStepEnd s
  | .sagDemandRise rail depth => Sys2Proof.Machine.execSagDemandRise rail depth s
  | .sagDemandFall => Sys2Proof.Machine.execSagDemandFall s
  | .tempEvaluation dies => Sys2Proof.Machine.execTempEvaluation dies s
  | .powerEvaluation power rails => Sys2Proof.Machine.execPowerEvaluation power rails s
  | .vreqAnnounce mV => Sys2Proof.Machine.execVreqAnnounce mV s
  | .vreqApply => Sys2Proof.Machine.execVreqApply s
  | .entropyHealthFail => Sys2Proof.Machine.execEntropyHealthFail s
  | .shutdownFadeDone => Sys2Proof.Machine.execShutdownFadeDone s
  | .shutdownSelftestStart => Sys2Proof.Machine.execShutdownSelftestStart s
  | .selftestSliceEnd o => Sys2Proof.Machine.execSelftestSliceEnd o s
  | .sliceBudgetExpiry => Sys2Proof.Machine.execSliceBudgetExpiry s
  | .shutdownSelftestLimit => Sys2Proof.Machine.execShutdownSelftestLimit s
  | .arrayFailRecord arr => Sys2Proof.Machine.execArrayFailRecord arr s
  | .ripcordFire => Sys2Proof.Machine.execRipcordFire s
  | .traceCopyDone => Sys2Proof.Machine.execTraceCopyDone s
  | .ripcordBroadcastReceive tstamp src => Sys2Proof.Machine.execRipcordBroadcastReceive tstamp src s
  | .debugHaltInstant => Sys2Proof.Machine.execDebugHaltInstant s
  | .debugHalted => Sys2Proof.Machine.execDebugHalted s
  | .wordClockEdge port => Sys2Proof.Machine.execWordClockEdge port s
  | .wordClockOutput port => Sys2Proof.Machine.execWordClockOutput port s
  | .madiLockLost port => Sys2Proof.Machine.execMadiLockLost port s
  | .madiLockGained port => Sys2Proof.Machine.execMadiLockGained port s
  | .entropyTestsPass => Sys2Proof.Machine.execEntropyTestsPass s
  | .fwdCompletionReceive tag status result0 result1 data => Sys2Proof.Machine.execFwdCompletionReceive tag status result0 result1 data s
  | .fwdTargetTimeout tag => Sys2Proof.Machine.execFwdTargetTimeout tag s
  | .remapIndexReceive failed index ret => Sys2Proof.Machine.execRemapIndexReceive failed index ret s
  | .switchIndexReceive model gen index => Sys2Proof.Machine.execSwitchIndexReceive model gen index s
  | .eventForwardReceive rec => Sys2Proof.Machine.execEventForwardReceive rec s
  | .columnProgramDone arr meas => Sys2Proof.Machine.execColumnProgramDone arr meas s

end Sys2Proof.Machine
end

