-- ==== Sys2Proof/Machine/Fetch.lean ====
section
/-!
DEFINITION. Cores that run the program in their instruction memory (R207, R214 to R218): what happens at the cores when no
command waits (log entry 5).
-/

namespace Sys2Proof.Machine

/-- The instruction word at a core's index; an unlisted word is 0, which is NOP (R216). -/
def Core.word (c : Core) : Word := tget 0 c.imem c.idx

/-- A late core reaches its safe boundary and begins its program (R33). A core that runs a program issues the instruction at its
index; a word of a reserved class or opcode traps (R211, R214, R216, R218), and where its class is traced the trace shows that it
was begun and abandoned (R480). -/
def State.runCore (s : State) (k : Nat) : State :=
  let c := s.core k
  if c.run = .late then s.startCore k
  else if !c.hasProg || !s.runs k then s
  else
    let cls := c.word.toNat / 2 ^ 28
    let res := match Sys2Proof.decodeCoreWord k c.word with
      | some i => exec i s
      | none =>
        if 2 ≤ cls ∧ cls ≤ 7 then s.issueT k (BitVec.ofNat 23 c.word.toNat) false .either id else s.issue k false .either id
    match res with
    | .next t => t
    | _ => s

/-- Every core issues one instruction, in ascending number (R207). -/
def State.runCores (s : State) : State := (s.cores.map (·.1)).foldl State.runCore s

end Sys2Proof.Machine
end

