-- ==== Sys2Proof/Machine/Step.lean ====
section
/-!
DEFINITION. One step: the command at the front of the queue runs on the state with the queue's rest; on an empty queue
every core that runs a program issues one instruction of it, and sample time goes on by one interpolator phase where it is
counted (log entry 5), which ends the wait for a source's timing where its limit is past (R43).
-/

namespace Sys2Proof.Machine

def step (s : State) : Host.Outcome State Fault Refusal :=
  match s.pending with
  | [] => .next s.runCores.phaseTick.lapseSources.serveIdle
  | c :: rest => exec c (s.withPending rest)

/-- The table gives its rows no bits, so no word spells a command: the state stays as it is. -/
def State.withFetchWord (s : State) (nbits w : Nat) : State :=
  match Sys2Proof.decodeTableWord nbits w with
  | some c => s.withPending (c :: s.pending)
  | none => s

end Sys2Proof.Machine
end

