-- ==== Sys2Proof/Machine/Regs.lean ====
section
/-!
DEFINITION. What a host reads: the identity of the PCI function, and what a read of BAR0 returns: the read column of the registers' fields (R2, R7, R8, R18, R51, R333, R403 to
R406). A read changes nothing, so the table has no command for it but the one that an ill-formed access counts.
-/

namespace Sys2Proof.Machine

/-- The state that a pending change leads to, and 0 where none is pending: the change that waits for its boundary, a warm reset
under way, or an accepted command that will ask for one (R18, R405). -/
def State.pendTarget (s : State) : Nat :=
  match s.run.pend with
  | some t => runCode t
  | none =>
    if s.run.resetting.isSome then 1
    else
      match s.changeCmds.head? with
      | some c => if c.opcode = 0x11 then 1 else runCode (targetOf c.p1.toNat)
      | none => 0

/-- `RUN_STATE` (R405). -/
def State.runReg (s : State) : Nat :=
  runCode s.run.st * 2 ^ 61 + b2n s.runPending * 2 ^ 60 + s.pendTarget * 2 ^ 57 + b2n (s.run.shut == 4) * 2 ^ 56
    + b2n s.obs.halted * 2 ^ 55 + s.qindex % 2 ^ 32

/-- `BOOT_STATUS` (R403). -/
def State.bootReg (s : State) : Nat :=
  let r := s.run
  r.step % 16 * 2 ^ 60 + r.result % 16 * 2 ^ 56 + r.cause % 256 * 2 ^ 48 + r.slot % 2 * 2 ^ 47 + b2n r.fallback * 2 ^ 46
    + b2n r.fmt1 * 2 ^ 45 + b2n r.unclean * 2 ^ 44 + b2n r.unverified * 2 ^ 43 + b2n r.mapRebuilt * 2 ^ 42
    + b2n r.replayed * 2 ^ 41 + r.errSect % 256 * 2 ^ 24 + r.errOfs % 2 ^ 24

/-- The code of the bridle's state (R51). -/
def bridleCode (x : Bridle) : Nat :=
  match x with | .freeRun => 0 | .acquiring => 1 | .locked => 2 | .lockedOffset => 3 | .holdover => 4

/-- `PHASE_OFFSET`: the phase error in units of 16 ticks, saturated at 128 samples either way (R51). The error is the one last
measured: it stands while it is slewed out, in HOLDOVER and in FREE_RUN, is 0 before a measurement, and its remainder below a unit
is dropped toward zero (DESIGN CHOICE, log entry 79). -/
def State.phaseOffset (s : State) : Int := max (-32768) (min 32767 (s.time.err.tdiv 16))

/-- `CLK_STATUS` (R51). -/
def State.clkReg (s : State) : Nat :=
  let t := s.time
  bridleCode t.st * 2 ^ 29 + (if t.st = .freeRun then 0 else t.src % 8) * 2 ^ 26 + t.rate % 8 * 2 ^ 23 + t.quantum % 8 * 2 ^ 20
    + b2n s.rephaseEn * 2 ^ 19 + b2n t.stepped * 2 ^ 18 + b2n t.lockLost * 2 ^ 17 + ux 16 s.phaseOffset

/-- `CMD_VERSION` (R405). -/
def State.verReg (s : State) : Nat := 0x12 * 2 ^ 56 + 0x23 * 2 ^ 48 + s.host.neg % 256 * 2 ^ 40

/-- `LIFECYCLE` (R405, R439). -/
def State.lcReg (s : State) : Nat := s.lc % 8 * 2 ^ 61 + s.slotsUsed % 128

/-- `EVT_SUMMARY` (R405). -/
def State.evtReg (s : State) : Nat := s.host.evCount % 2 ^ 32 * 2 ^ 32 + b2n s.host.eqOvf * 2 ^ 7 + s.host.sev % 16

/-- A ring's configuration register (R406). -/
def Ring.cfgReg (r : Ring) : Nat := b2n r.en * 2 ^ 63 + b2n r.irqEn * 2 ^ 62 + r.vec % 32 * 2 ^ 48 + r.log2n % 16

/-- A ring's base register: the low twelve bits read as zero (R404). -/
def Ring.baseReg (r : Ring) : Nat := r.base.toNat / 4096 * 4096

def State.ringAt (s : State) (r : Nat) : Ring :=
  match r with | 0 => s.host.sq | 1 => s.host.cq | 2 => s.host.eq | _ => s.host.tq

/-- The Revision ID of the PCI function: the stepping (R333). -/
def revisionId : Nat := Config.stepLetter % 16 * 16 + Config.stepDigit % 16

/-- The class code of the PCI function: base class, subclass, programming interface (R333). -/
def classCode : Nat := 0x120000

/-- The Subsystem vendor ID and Subsystem ID, from the ports section or by default (R333, R384). -/
def State.subsystemIds (s : State) : Nat × Nat :=
  (if fld s.cfg.phost 63 48 = 0 then Config.vendorId % 2 ^ 16 else fld s.cfg.phost 63 48,
   if fld s.cfg.phost 47 32 = 0 then 0x0960 else fld s.cfg.phost 47 32)

/-- The 64 bits at an offset that is a multiple of 8 (R404): write-only registers and reserved offsets read as zero. -/
def State.reg64 (s : State) (off : Nat) : Nat :=
  if off = 0 then idReg
  else if off = 0x08 then Config.romVersion.toNat
  else if off = 0x10 then s.verReg
  else if off = 0x18 then s.uid
  else if off = 0x20 then s.runReg
  else if off = 0x28 then s.lcReg
  else if off = 0x30 then s.bootReg
  else if off = 0x38 then s.time.freqOff.toNat * 2 ^ 32 + s.clkReg
  else if off = 0x40 then s.tstamp
  else if off = 0x48 then s.evtReg
  else if 0x100 ≤ off ∧ off < 0x140 then
    (if off % 16 = 0 then (s.ringAt ((off - 0x100) / 16)).baseReg else (s.ringAt ((off - 0x100) / 16)).cfgReg)
  else if off = 0x220 then s.host.sq.head % 2 ^ 16
  else if off = 0x228 then s.host.eq.tail % 2 ^ 16
  else if off = 0x230 then s.host.tq.tail % 2 ^ 16
  else if 0xF0000 ≤ off ∧ off < 0xF0000 + 512 then
    (tget 0 s.host.msix ((off - 0xF0000) / 16)).toNat / 2 ^ (8 * (off % 16)) % 2 ^ 64
  else if off = 0xF8000 then sumN ((List.range 32).map fun v => if s.host.pba.contains v then 2 ^ v else 0)
  else 0

/-- A read of the function's configuration space, 4 bytes at an offset: what R332 and R333 name of the header and of the power
management state, at the places that the PCI Express specification gives the header's fields. None where the link is down, and
where neither names the contents (R336; PRESUMED, log entry 82). -/
def State.configRead (s : State) (off : Nat) : Option Nat :=
  if !s.host.up then none
  else
    match off with
    | 0x00 => some (0x0960 * 2 ^ 16 + Config.vendorId % 2 ^ 16)
    | 0x08 => some (classCode * 2 ^ 8 + revisionId % 2 ^ 8)
    | 0x18 => some 0
    | 0x1C => some 0
    | 0x20 => some 0
    | 0x24 => some 0
    | 0x2C => some (s.subsystemIds.2 * 2 ^ 16 + s.subsystemIds.1)
    | _ => none

/-- The power state that the function reports (R332): D0 or D3hot. -/
def State.powerState (s : State) : Nat := if s.host.d3 then 3 else 0

/-- A host read of BAR0 (R404): an access that is not an aligned one of 4 or 8 bytes reads as zero. -/
def State.bar0Read (s : State) (off size : Nat) : Nat :=
  if (size = 4 ∨ size = 8) ∧ off % size = 0 then s.reg64 (off / 8 * 8) / 2 ^ (8 * (off % 8)) % 2 ^ (8 * size) else 0

end Sys2Proof.Machine
end

