-- ==== Sys2Proof/WellFormed.lean ====
section
/-!
DEFINITION. Well-formed commands: every unit a command names exists, and every operand list has the length that the
hardware gives it. A well-formed command never faults (Sys2Proof/Machine/Dispatch.lean).
-/

namespace Sys2Proof

/-- Core 8x + y (R184). -/
def coreOk (n : Nat) : Bool := decide (n < 64)
/-- Array A00 to A47 (R116). -/
def arrOk (n : Nat) : Bool := decide (n < 48)
/-- Reel or loft slice (R244). -/
def reelOk (n : Nat) : Bool := decide (n < 16)
/-- Column group of an array (R117). -/
def groupOk (n : Nat) : Bool := decide (n < 8)
/-- Plane of an array (R116). -/
def planeOk (n : Nat) : Bool := decide (n < 16)
/-- Layer descriptor (R140). -/
def descOk (n : Nat) : Bool := decide (n < 1024)
/-- Store bank (R352). -/
def bankOk (n : Nat) : Bool := decide (n < 32)
/-- Store stack (R352). -/
def stackOk (n : Nat) : Bool := decide (n < 2)
/-- Channel slot (R56). -/
def slotOk (n : Nat) : Bool := decide (n < 4096)
/-- Photonic chiplet PH0 to PH3 (R13). -/
def chipletOk (n : Nat) : Bool := decide (n < 4)
/-- Supply rail, in the order of R418. -/
def railOk (n : Nat) : Bool := decide (n < 7)
/-- Logical sector (R353). -/
def sectorOk (n : Nat) : Bool := decide (n < 16777216)
/-- Sync object (R198). -/
def objOk (n : Nat) : Bool := decide (n < 4096)
/-- Media stream record (R340). -/
def streamOk (n : Nat) : Bool := decide (n < 1024)
/-- Host ring SQ, CQ, EQ, TQ (R404). -/
def ringOk (n : Nat) : Bool := decide (n < 4)
/-- Schedule entry (R37). -/
def idxOk (n : Nat) : Bool := decide (n < 256)
/-- Media port (R337). -/
def mediaOk (n : Nat) : Bool := decide (n < 2)
/-- Serial audio port (R346). -/
def saOk (n : Nat) : Bool := decide (n < 4)
/-- Tether port TP0 to TP7. -/
def tpOk (n : Nat) : Bool := decide (n < 8)
/-- A message's payload (R193). -/
def msgOk (m : Msg) : Bool := decide (m.payload.length ≤ 8192)
/-- The conversions of a column group, one for each converter (R118). -/
def devOk (l : List Int) : Bool := decide (l.length = 532)
/-- A measurement of a plane: its header fields in range, 8 groups, entries below 2,112 with the 12-bit codes of 64 passes (R160,
R164). -/
def measOk (m : CalMeas) : Bool :=
  decide (m.plane < 16 ∧ m.act < 256 ∧ -2048 ≤ m.temp ∧ m.temp ≤ 2047 ∧ m.refs.length = 8)
    && m.cols.all fun c => decide (c.entry < 2112 ∧ c.codes.length = 64)
      && c.codes.all fun p => decide (-2048 ≤ p.1 ∧ p.1 ≤ 2047 ∧ -2048 ≤ p.2 ∧ p.2 ≤ 2047)
/-- A listed cell: a row of the plane, a logical column, a level (R170). -/
def cellOk (k : StuckCell) : Bool := decide (k.row < 2048 ∧ k.col < 2048 ∧ k.level < 16)
/-- The sender of a sync operation. -/
def srcOk : SyncSrc → Bool
  | .core c => coreOk c
  | .entry => true
  | .unit => true
  | .peer => true

/-- Well-formed commands. -/
def WellFormed : Instr → Bool
  | .supplyGood => true
  | .railTrip rail _ => railOk rail
  | .supplyGlitch rail => railOk rail
  | .bootSequence _ v => decide (600 ≤ v ∧ v ≤ 800 ∧ v % 10 = 0)
  | .recoveryBudgetExpiry => true
  | .linkTrainingEnd => true
  | .clockAcquisitionTimeout => true
  | .fabricConvergence => true
  | .warmReset _ => true
  | .warmResetDrainDone => true
  | .quantumBoundary => true
  | .useRecentHalve => true
  | .scheduleRelease idx => idxOk idx
  | .deadline => true
  | .lateResultDiscard => true
  | .coreDeadlineReached core => coreOk core
  | .timeWaitResume core => coreOk core
  | .sourceQualified _ _ => true
  | .stabilityTestPass _ _ _ _ => true
  | .slewComplete => true
  | .sourceLost _ => true
  | .phaseStep _ => true
  | .holdoverExpiry => true
  | .revertHoldoffExpiry _ => true
  | .mediaPacketRx port _ => mediaOk port
  | .mediaPacketTx stream => streamOk stream
  | .ptpMessageRx port _ => mediaOk port
  | .arpIcmpRx port _ _ _ _ _ => mediaOk port
  | .mediaLinkDown port => mediaOk port
  | .mediaLinkUp port => mediaOk port
  | .mediaStreamStop => true
  | .madiFrameRx port _ => saOk port
  | .madiFrameTx port => saOk port
  | .tetherStreamRx m => msgOk m
  | .rowReceive m => msgOk m
  | .passIssue arr _ => arrOk arr
  | .flankGroupOut arr group codes => arrOk arr && groupOk group && devOk codes
  | .rerunPass arr => arrOk arr
  | .joinReduce arr slot _ => arrOk arr && slotOk slot
  | .adapterTermReceive arr slot _ => arrOk arr && slotOk slot
  | .calConditionCheck arr _ => arrOk arr
  | .calSlice arr _ => arrOk arr
  | .calibrationComplete arr meas _ => arrOk arr && meas.all measOk
  | .planeProgram arr plane _ => arrOk arr && planeOk plane
  | .planeProgramDone arr meas off => arrOk arr && measOk meas && off.all cellOk
  | .columnProgram arr plane _ stuck => arrOk arr && planeOk plane && stuck.all cellOk
  | .spareRemap arr plane _ stuck => arrOk arr && planeOk plane && stuck.all cellOk
  | .probeSave arr desc => arrOk arr && descOk desc
  | .adapterTrainStep arr desc rows _ _ => arrOk arr && descOk desc && rows.all fun i => decide (i < 256)
  | .adapterCandidateEval arr desc _ => arrOk arr && descOk desc
  | .adapterWriteback => true
  | .phaseSwitch core _ => coreOk core
  | .dataDeliver m => msgOk m
  | .resultDeliver m => msgOk m
  | .taskEnqueue m => msgOk m
  | .loftReadReq m => msgOk m
  | .loftWrite m => msgOk m
  | .dmaTransferComplete core => coreOk core
  | .syncSignal obj _ src => objOk obj && srcOk src
  | .syncArrive obj src => objOk obj && srcOk src
  | .syncSet obj src => objOk obj && srcOk src
  | .syncClear obj src => objOk obj && srcOk src
  | .syncWait obj _ core => objOk obj && coreOk core
  | .syncWaitset obj core => objOk obj && coreOk core
  | .syncRead obj core => objOk obj && coreOk core
  | .coreWake core => coreOk core
  | .taskAvailable core => coreOk core
  | .iNop core _ => coreOk core
  | .iAdd core _ => coreOk core
  | .iSub core _ => coreOk core
  | .iMul core _ => coreOk core
  | .iAnd core _ => coreOk core
  | .iOr core _ => coreOk core
  | .iXor core _ => coreOk core
  | .iShl core _ => coreOk core
  | .iShr core _ => coreOk core
  | .iSra core _ => coreOk core
  | .iSlt core _ => coreOk core
  | .iSltu core _ => coreOk core
  | .iMin core _ => coreOk core
  | .iMax core _ => coreOk core
  | .iAddi core _ => coreOk core
  | .iAndi core _ => coreOk core
  | .iOri core _ => coreOk core
  | .iLui core _ => coreOk core
  | .iLlo core _ => coreOk core
  | .iLd core _ => coreOk core
  | .iSt core _ => coreOk core
  | .iBeq core _ => coreOk core
  | .iBne core _ => coreOk core
  | .iBlt core _ => coreOk core
  | .iBge core _ => coreOk core
  | .iJal core _ => coreOk core
  | .iJr core _ => coreOk core
  | .iMfs core _ => coreOk core
  | .iMts core _ => coreOk core
  | .iScalec core _ => coreOk core
  | .iScmax core _ => coreOk core
  | .iVadd core _ => coreOk core
  | .iVsub core _ => coreOk core
  | .iVmul core _ => coreOk core
  | .iVmac core _ => coreOk core
  | .iVmin core _ => coreOk core
  | .iVmax core _ => coreOk core
  | .iVabs core _ => coreOk core
  | .iVand core _ => coreOk core
  | .iVor core _ => coreOk core
  | .iVxor core _ => coreOk core
  | .iVshl core _ => coreOk core
  | .iVsra core _ => coreOk core
  | .iVcmplt core _ => coreOk core
  | .iVsel core _ => coreOk core
  | .iVbcast core _ => coreOk core
  | .iVcvt core _ => coreOk core
  | .iVscale core _ => coreOk core
  | .iVrsum core _ => coreOk core
  | .iVrmax core _ => coreOk core
  | .iVamax core _ => coreOk core
  | .iVquant core _ => coreOk core
  | .iVld core _ => coreOk core
  | .iVst core _ => coreOk core
  | .iMldw core _ => coreOk core
  | .iMmac core _ => coreOk core
  | .iMdrain core _ => coreOk core
  | .iDrd core _ => coreOk core
  | .iDwr core _ => coreOk core
  | .iDwait core _ => coreOk core
  | .iSend core _ => coreOk core
  | .iRsetup core _ => coreOk core
  | .iRadv core _ => coreOk core
  | .iRstat core _ => coreOk core
  | .iAeval core _ => coreOk core
  | .iSig core _ => coreOk core
  | .iArrive core _ => coreOk core
  | .iSset core _ => coreOk core
  | .iSclr core _ => coreOk core
  | .iSwait core _ => coreOk core
  | .iSwaitset core _ => coreOk core
  | .iSread core _ => coreOk core
  | .iQend core _ => coreOk core
  | .iTake core _ => coreOk core
  | .iTend core _ => coreOk core
  | .iTnow core _ => coreOk core
  | .iTwait core _ => coreOk core
  | .iTwaitq core _ => coreOk core
  | .iTdline core _ => coreOk core
  | .reelFillStart reel => reelOk reel
  | .reelFillComplete reel _ _ _ => reelOk reel
  | .reelRelease m => msgOk m
  | .reelLateNotify reel core => reelOk reel && coreOk core
  | .fabricMessageSend m => msgOk m
  | .flitReceive port _ _ => tpOk port
  | .fecUncorrLimit port => tpOk port
  | .linkLossOfSignal port => tpOk port
  | .linkTrained port => tpOk port
  | .trainingTimeout port => tpOk port
  | .versionExchange port _ _ => tpOk port
  | .versionRetry port => tpOk port
  | .neighbourExchange port _ => tpOk port
  | .lsrReceive port _ => tpOk port
  | .lsrPeriodic => true
  | .lsrExpiry _ => true
  | .linkDelayMeasure port _ => tpOk port
  | .timeFlitReceive port _ _ => tpOk port
  | .heartbeatReceive _ => true
  | .peerDeclaredFailed _ => true
  | .remapSelfApply _ => true
  | .mcAckReceive _ _ _ _ => true
  | .mcPruneNotice _ _ => true
  | .bulkResendRequest _ _ _ => true
  | .resendRequestReceive _ _ _ => true
  | .switchReadyReport _ _ _ => true
  | .switchTimeout _ => true
  | .hostLinkDown => true
  | .hostLinkUp _ _ => true
  | .hostFlr => true
  | .hostHotReset => true
  | .hostD3hotEntry => true
  | .hostD0Return => true
  | .portLaserFault chiplet _ => chipletOk chiplet
  | .laserRetry chiplet _ => chipletOk chiplet
  | .sqTailWrite _ => true
  | .cqHeadWrite _ => true
  | .eqHeadWrite _ => true
  | .tqHeadWrite _ => true
  | .ringCfgWrite ring _ => ringOk ring
  | .ringBaseWrite ring _ => ringOk ring
  | .evtSummaryClear _ => true
  | .clkStatusClear _ => true
  | .registerWrite _ _ => true
  | .bar0BadAccess _ _ _ => true
  | .commandFetch _ _ _ _ => true
  | .peerCommand _ _ _ => true
  | .negotiate _ => true
  | .identify _ => true
  | .setRunState _ => true
  | .cfgWrite _ => true
  | .cfgRead _ => true
  | .install _ => true
  | .installComplete _ => true
  | .activate _ => true
  | .dirRead _ => true
  | .modelRemove _ => true
  | .spillRegister _ => true
  | .calibrate _ => true
  | .bist _ => true
  | .debugHalt _ => true
  | .debugResume _ => true
  | .counterRead _ => true
  | .ripcordArm _ => true
  | .telemetry _ => true
  | .eventlogRead _ => true
  | .attest _ => true
  | .lcTransition _ => true
  | .lcKeygenComplete _ => true
  | .reformat _ => true
  | .remapReturn _ => true
  | .storeRead sector _ => sectorOk sector
  | .eraseResume bank => bankOk bank
  | .poisonReport sector => sectorOk sector
  | .storeProgramRequest sector _ _ _ _ _ => sectorOk sector
  | .programStepComplete bank _ => bankOk bank
  | .storeEraseRequest sector _ => sectorOk sector
  | .eraseComplete bank _ => bankOk bank
  | .relocation sector _ => sectorOk sector
  | .patrolRead sector _ => sectorOk sector
  | .checkpointWrite stack => stackOk stack
  | .droopDetect => true
  | .stretchHoldEnd _ => true
  | .rampStepEnd => true
  | .sagDemandRise rail _ => railOk rail
  | .sagDemandFall => true
  | .tempEvaluation _ => true
  | .powerEvaluation _ _ => true
  | .vreqAnnounce _ => true
  | .vreqApply => true
  | .entropyHealthFail => true
  | .shutdownFadeDone => true
  | .shutdownSelftestStart => true
  | .selftestSliceEnd _ => true
  | .sliceBudgetExpiry => true
  | .shutdownSelftestLimit => true
  | .arrayFailRecord arr => arrOk arr
  | .ripcordFire => true
  | .traceCopyDone => true
  | .ripcordBroadcastReceive _ _ => true
  | .debugHaltInstant => true
  | .debugHalted => true
  | .wordClockEdge port => saOk port
  | .wordClockOutput port => saOk port
  | .madiLockLost port => saOk port
  | .madiLockGained port => saOk port
  | .entropyTestsPass => true
  | .fwdCompletionReceive _ _ _ _ _ => true
  | .fwdTargetTimeout _ => true
  | .remapIndexReceive _ _ _ => true
  | .switchIndexReceive _ _ _ => true
  | .eventForwardReceive _ => true
  | .columnProgramDone arr meas => arrOk arr && measOk meas

end Sys2Proof
end

