-- ==== Sys2Proof/Safety.lean ====
section
/-!
DEFINITION. What counts as safe: the machine's invariant, and the terms in which the claims say what a command leaves
unchanged.
-/

namespace Sys2Proof.Machine

/-- The canonical form of a byte memory: rising addresses, and no listed byte equal to what an unlisted one reads as. -/
def Memory.wf (m : Tab Byte) : Bool := tabWf 0 m

/-- Every byte memory of the engine is in canonical form. -/
def State.memWf (s : State) : Bool := Memory.wf s.loft.mem && s.cores.all fun p => Memory.wf p.2.lmem

/-- The ballast stage in force is the highest of the three demands (R423). -/
def State.stageOk (s : State) : Prop := s.sup.stage = max s.sup.sag (max s.sup.tempD s.sup.power)

/-! ### What a claim about a core's instruction says -/

/-- Core `k` issues its next instruction: it exists, runs, is not halted, and its index names an instruction (R207, R211,
R478). -/
def State.issues (s : State) (k : Nat) : Prop := k < 64 ∧ s.runs k = true ∧ (s.core k).idx ≤ 16383

/-- `t` differs from `s` only in core `k` and in that core's counters. -/
def State.onlyCore (k : Nat) (s t : State) : Prop :=
  t = { s with cores := t.cores, cnt := t.cnt } ∧ (∀ j, j ≠ k → t.core j = s.core j) ∧
    ∀ n, n < 24 * k ∨ 24 * k + 24 ≤ n → t.ctr n = s.ctr n

/-- `t` differs from `s` only in core `k`, in messages `ms` added to the mesh, in counters, and in what recording trace
changes: the trace engines and rings, the host's trace ring, what is sent to the host with the pending interrupts, and the count of free
values (R480 to R483). -/
def State.onlyIssued (k : Nat) (ms : List Msg) (s t : State) : Prop :=
  t = { s with cores := t.cores, cnt := t.cnt, out := t.out, free := t.free, host.tq := t.host.tq, host.pba := t.host.pba,
               grid.mesh := s.grid.mesh ++ ms, obs.engines := t.obs.engines, obs.ring := t.obs.ring,
               obs.ringN := t.obs.ringN, obs.copying := t.obs.copying } ∧
    (∀ j, j ≠ k → t.core j = s.core j) ∧
    ∀ n, n < 24 * k ∨ 24 * k + 24 ≤ n → n < 1536 ∨ 1792 ≤ n → n ≠ kEngine 15 → n ≠ kEngine 16 → t.ctr n = s.ctr n

/-- `t` differs from `s` only in array `a`, in counters, and in what recording trace changes, pending interrupts among it. -/
def State.onlyArr (a : Nat) (s t : State) : Prop :=
  t = { s with arrs := t.arrs, cnt := t.cnt, out := t.out, free := t.free, host.tq := t.host.tq, host.pba := t.host.pba,
               obs.engines := t.obs.engines, obs.ring := t.obs.ring, obs.ringN := t.obs.ringN,
               obs.copying := t.obs.copying } ∧
    ∀ b, b ≠ a → t.arr b = s.arr b

/-- A counter one higher, saturating (R468). -/
def State.ctrUp (s t : State) (n : Nat) : Prop := t.ctr n = min (s.ctr n + 1) (2 ^ 64 - 1)

/-- A counter higher by `k`, saturating (R468). -/
def State.ctrAdd (s t : State) (n k : Nat) : Prop := t.ctr n = min (s.ctr n + k) (2 ^ 64 - 1)

/-- No counter is beyond its width (R468). -/
def State.ctrOk (s : State) : Prop := ∀ n, s.ctr n ≤ 2 ^ 64 - 1

/-- An operation `op` of a source on object `obj` acts now: no message in the mesh brings it, or its message is in turn (R182,
R198). -/
def State.opTurn (s : State) (obj op : Nat) (src : SyncSrc) : Prop := ∀ m, s.opMsg obj op src = some m → s.ready m = true

/-- The state in which an operation acts: the message that brings it, if one does, has left the mesh (R198). -/
def State.opTaken (s : State) (obj op : Nat) (src : SyncSrc) : State :=
  match s.opMsg obj op src with | some m => s.arrive m | none => s

/-- How much the counts of an instruction raise the core's counter `o`. -/
def Fx.total (f : Fx) (o : Nat) : Nat := ((f.n.filter fun p => p.1 == o).map (·.2)).sum

/-- Command `i` completes an untraced instruction of core `k`: the core becomes `f.c` with the index one further, the
counters of the core rise as `f` says, one instruction more has retired, and nothing else changes (R213, R214). -/
def Completes (i : Instr) (s : State) (k : Nat) (f : Fx) : Prop :=
  ∃ t, exec i s = .next t ∧ s.onlyCore k t ∧ t.core k = { f.c with idx := (s.core k).idx + 1 } ∧
    (s.ctrOk → ∀ o, o < 24 →
      t.ctr (kCore k o) = min (s.ctr (kCore k o) + f.total o + if o = 0 then 1 else 0) (2 ^ 64 - 1))

/-- `CORE_FLAGS` after an instruction whose lanes raised conditions (R82, R83). -/
def laneFlags (f sats nans infs ovfs : Nat) : Nat :=
  f ||| (if sats = 0 then 0 else 0x80) ||| (if nans = 0 then 0 else 0x20) ||| (if infs = 0 then 0 else 0x10)
    ||| (if ovfs = 0 then 0 else 0x40)

/-- Command `i` completes a traced instruction of core `k` and sends the messages `ms`: the core becomes `f.c` with the
index one further, its counters rise as `f` says, and beside the trace nothing else changes (R213, R214, R480). -/
def CompletesT (i : Instr) (s : State) (k : Nat) (ms : List Msg) (f : Fx) : Prop :=
  ∃ t, exec i s = .next t ∧ s.onlyIssued k ms t ∧ t.core k = { f.c with idx := (s.core k).idx + 1 } ∧
    (s.ctrOk → ∀ o, o < 24 →
      t.ctr (kCore k o) = min (s.ctr (kCore k o) + f.total o + if o = 0 then 1 else 0) (2 ^ 64 - 1))

/-- Command `i` leaves core `k` waiting in `w`, its index where it was, with the messages `ms` sent (R203, R214). -/
def WaitsT (i : Instr) (s : State) (k : Nat) (ms : List Msg) (w : CoreRun) : Prop :=
  ∃ t, exec i s = .next t ∧ s.onlyIssued k ms t ∧ t.core k = { s.core k with run := w, woken := false }

/-- What a scalar integer result does to a core (R83, R220): `sd` takes the value saturated to S32, or its low 32 bits with
MODW; a saturation sets SAT and is counted. -/
def intFx (c : Core) (sd : Nat) (modw : Bool) (v : Int) : Fx :=
  if modw = false ∧ (v < -2 ^ 31 ∨ 2 ^ 31 ≤ v) then
    ⟨{ c.setS sd (if v < 0 then 2 ^ 31 else 2 ^ 31 - 1) with flags := c.flags ||| 0x80 }, [(11, 1)]⟩
  else ⟨c.setS sd (v % 2 ^ 32).toNat, []⟩

/-- What a result that cannot saturate does to a core. -/
def wordFx (c : Core) (sd v : Nat) : Fx := ⟨c.setS sd v, []⟩

/-- The value of an SC16 code in units of 2^-136, which every code's value is a whole number of (R75). -/
def scUnits (c : Nat) : Nat := scMan c * 2 ^ (scExp c + 128).toNat

/-! ### What a claim about a command of the ROM command set says -/

/-- The state in which the effect of an executed command begins: the command has left the accepted ones, a long one is kept
as such, and its trace record is made (R412, R480). -/
def State.begun (s : State) (c : Cmd) : State :=
  let long := (opRow c.opcode).any fun r => r.long
  let t : State := { s with host.accepted := s.host.accepted.erase c, host.long := if long then s.host.long ++ [c] else s.host.long }
  t.traceCmd c

/-- Command `c` waits for what its `FENCE` bit names: long commands of its source, and for the host's what it forwarded
(R412). -/
def State.fenced (s : State) (c : Cmd) : Prop :=
  c.fence = true ∧ ((∃ x ∈ s.host.long, x.src = c.src) ∨ (c.src = .host ∧ s.host.fwd ≠ []))

/-- Command `c` of opcode `op` is the first of those accepted, is not to be forwarded, waits for nothing, and its data has
been read (R408 to R412). -/
def State.turn (s : State) (op : Nat) (c : Cmd) : Prop :=
  s.host.accepted.head? = some c ∧ c.opcode = op ∧ c.fwd = false ∧ c.dmaOk = true ∧ ¬ s.fenced c

/-- The commands of the ROM command set that run at this engine, with their opcodes (R413). -/
def romCommands : List (Nat × (Cmd → Instr)) :=
  [(0x01, .negotiate), (0x02, .identify), (0x10, .setRunState), (0x11, .warmReset), (0x20, .cfgWrite), (0x21, .cfgRead),
   (0x30, .install), (0x31, .activate), (0x32, .dirRead), (0x33, .modelRemove), (0x34, .spillRegister), (0x40, .calibrate)]
  ++ [(0x41, .bist), (0x42, .debugHalt), (0x43, .debugResume), (0x50, .counterRead), (0x51, .ripcordArm), (0x52, .telemetry),
   (0x53, .eventlogRead), (0x60, .attest), (0x61, .lcTransition), (0x62, .reformat), (0x70, .remapReturn)]

/-- The core that an instruction's command names, with the instruction's encoding legal or not: no reserved bit set and no
reserved value (R217, R218, R220 to R238); none for every other command. -/
def coreLegal : Instr → Option (Nat × Bool)
  | .iNop k o => some (k, srOk o)
  | .iAdd k o => some (k, srOk o)
  | .iSub k o => some (k, srOk o)
  | .iMul k o => some (k, srOk o)
  | .iAnd k o => some (k, srOk o)
  | .iOr k o => some (k, srOk o)
  | .iXor k o => some (k, srOk o)
  | .iShl k o => some (k, srOk o)
  | .iShr k o => some (k, srOk o)
  | .iSra k o => some (k, srOk o)
  | .iSlt k o => some (k, srOk o)
  | .iSltu k o => some (k, srOk o)
  | .iMin k o => some (k, srOk o)
  | .iMax k o => some (k, srOk o)
  | .iAddi k _ => some (k, true)
  | .iAndi k _ => some (k, true)
  | .iOri k _ => some (k, true)
  | .iLui k _ => some (k, true)
  | .iLlo k o => some (k, decide (oImm18 o < 2 ^ 14))
  | .iLd k _ => some (k, true)
  | .iSt k _ => some (k, true)
  | .iBeq k _ => some (k, true)
  | .iBne k _ => some (k, true)
  | .iBlt k _ => some (k, true)
  | .iBge k _ => some (k, true)
  | .iJal k _ => some (k, true)
  | .iJr k o => some (k, srOk o)
  | .iMfs k o => some (k, decide (oImm13 o ≤ 7 ∨ (16 ≤ oImm13 o ∧ oImm13 o ≤ 31)) && decide (oSA o = 0))
  | .iMts k o => some (k, decide (oImm13 o ≤ 7 ∨ (16 ≤ oImm13 o ∧ oImm13 o ≤ 31)) && decide (oSA o = 0))
  | .iScalec k o => some (k, decide (fld o 9 8 ≠ 3) && (!flag o 12 || decide (fld o 7 0 = 0)))
  | .iScmax k o => some (k, srOk o)
  | .iVadd k o => some (k, vrOk ⟨true, true, true, false, true, true, true⟩ o)
  | .iVsub k o => some (k, vrOk ⟨true, true, true, false, true, true, true⟩ o)
  | .iVmul k o => some (k, vrOk ⟨true, true, true, false, true, true, true⟩ o)
  | .iVmac k o => some (k, vrOk ⟨true, true, true, false, true, true, true⟩ o)
  | .iVmin k o => some (k, vrOk ⟨true, true, true, false, true, false, false⟩ o)
  | .iVmax k o => some (k, vrOk ⟨true, true, true, false, true, false, false⟩ o)
  | .iVabs k o => some (k, vrOk ⟨true, true, false, false, true, false, true⟩ o)
  | .iVand k o => some (k, vrOk ⟨true, true, true, false, false, false, false⟩ o)
  | .iVor k o => some (k, vrOk ⟨true, true, true, false, false, false, false⟩ o)
  | .iVxor k o => some (k, vrOk ⟨true, true, true, false, false, false, false⟩ o)
  | .iVshl k o => some (k, vrOk ⟨true, true, false, true, false, false, true⟩ o)
  | .iVsra k o => some (k, vrOk ⟨true, true, false, true, false, true, false⟩ o)
  | .iVcmplt k o => some (k, vrOk ⟨true, true, true, false, true, false, false⟩ o)
  | .iVsel k o => some (k, vrOk ⟨true, true, true, false, true, false, false⟩ o)
  | .iVbcast k o => some (k, vrOk ⟨true, false, false, true, false, false, false⟩ o)
  | .iVcvt k o => some (k, vrOk ⟨true, true, false, true, true, true, false⟩ o)
  | .iVscale k o => some (k, vrOk ⟨true, true, false, true, false, true, false⟩ o)
  | .iVrsum k o => some (k, vrOk ⟨false, true, false, true, true, false, true⟩ o)
  | .iVrmax k o => some (k, vrOk ⟨false, true, false, true, true, false, false⟩ o)
  | .iVamax k o => some (k, vrOk ⟨false, true, false, true, true, false, false⟩ o)
  | .iVquant k o => some (k, vrOk ⟨true, true, true, true, true, false, false⟩ o && decide (oVB o ≤ 1))
  | .iVld k o => some (k, decide (fld o 7 0 = 0) && decide (oMRM o = 0) && decide (oMF o ≤ 9))
  | .iVst k o => some (k, decide (fld o 7 0 = 0) && decide (oMRM o ≠ 3) && decide (oMF o ≤ 7))
  | .iMldw k o => some (k, decide (fld o 7 0 = 0) && decide (fld o 21 19 ≤ 4) && (!flag o 18 || fld o 21 19 == 2 || fld o 21 19 == 3))
  | .iMmac k o => some (k, decide (fld o 2 0 = 0) && viewOk (fld o 19 17) (fld o 16 15) && (!flag o 13 || fld o 19 17 == 2 || fld o 19 17 == 3))
  | .iMdrain k o => some (k, decide (fld o 20 17 ≤ 8) && decide (fld o 16 15 ≠ 3) && decide (fld o 7 3 % 2 = 0))
  | .iDrd k o => some (k, decide (fld o 4 0 = 0))
  | .iDwr k o => some (k, decide (fld o 4 0 = 0))
  | .iDwait k o => some (k, decide (fld o 18 0 = 0) && (!flag o 19 || decide (oDT o = 0)))
  | .iSend k o => some (k, decide (fld o 17 0 = 0))
  | .iRsetup k o => some (k, decide (fld o 8 0 = 0))
  | .iRadv k o => some (k, decide (fld o 13 0 = 0))
  | .iRstat k o => some (k, decide (fld o 13 0 = 0) && decide (fld o 18 14 % 2 = 0))
  | .iAeval k o => some (k, decide (fld o 4 0 = 0) && decide (fld o 7 5 ≤ 4))
  | .iSig k o => some (k, !oSEL o)
  | .iArrive k o => some (k, !oSEL o)
  | .iSset k o => some (k, !oSEL o)
  | .iSclr k o => some (k, !oSEL o)
  | .iSwait k o => some (k, !oSEL o)
  | .iSwaitset k o => some (k, !oSEL o)
  | .iSread k _ => some (k, true)
  | .iQend k o => some (k, decide (o = 0))
  | .iTake k o => some (k, decide (o = 0))
  | .iTend k o => some (k, decide (o = 0))
  | .iTnow k o => some (k, decide (fld o 17 0 = 0) && decide (oSD o % 2 = 0))
  | .iTwait k o => some (k, decide (fld o 17 0 = 0) && decide (oSD o % 2 = 0))
  | .iTwaitq k o => some (k, decide (fld o 3 0 = 0))
  | .iTdline k o => some (k, decide (fld o 17 0 = 0) && decide (oSD o % 2 = 0))
  | _ => none

end Sys2Proof.Machine
end

