-- ==== Sys2Proof/Certificates/Slice0/Obligations.lean ====
section
/-!
DEFINITION. The statements for the provers. A statement of several parts is the conjunction of claims that are each defined
here, under `Sys2Proof.Claims`, by the rules that they cite.
-/

namespace Sys2Proof

open Machine

/-- ADD, SUB, MUL and SHL (R220). -/
def Claims.ScalarArithmetic : Prop :=
  ∀ (s : State) (k : Nat) (o : Ops23), s.issues k → srOk o = true →
    let c := s.core k
    let a := c.srI (oSA o)
    let b := c.srI (oSB o)
    Completes (.iAdd k o) s k (intFx c (oSD o) (oMODW o) (a + b)) ∧
    Completes (.iSub k o) s k (intFx c (oSD o) (oMODW o) (a - b)) ∧
    Completes (.iMul k o) s k (intFx c (oSD o) (oMODW o) (a * b)) ∧
    Completes (.iShl k o) s k (intFx c (oSD o) (oMODW o) (a * 2 ^ (c.sr (oSB o) % 64)))

/-- NOP, AND, OR, XOR, SHR, SRA, SLT, SLTU, MIN, MAX and SCMAX (R220, R221). -/
def Claims.ScalarLogic : Prop :=
  ∀ (s : State) (k : Nat) (o : Ops23), s.issues k → srOk o = true →
    let c := s.core k
    let a := c.sr (oSA o)
    let b := c.sr (oSB o)
    let ai := c.srI (oSA o)
    let bi := c.srI (oSB o)
    Completes (.iNop k o) s k ⟨c, []⟩ ∧
    Completes (.iAnd k o) s k (wordFx c (oSD o) (a &&& b)) ∧
    Completes (.iOr k o) s k (wordFx c (oSD o) (a ||| b)) ∧
    Completes (.iXor k o) s k (wordFx c (oSD o) (a ^^^ b)) ∧
    Completes (.iShr k o) s k (wordFx c (oSD o) (a / 2 ^ (b % 64))) ∧
    Completes (.iSra k o) s k (wordFx c (oSD o) (rndDiv (oRM o) ai (2 ^ (b % 64)) % 2 ^ 32).toNat) ∧
    Completes (.iSlt k o) s k (wordFx c (oSD o) (if ai < bi then 1 else 0)) ∧
    Completes (.iSltu k o) s k (wordFx c (oSD o) (if a < b then 1 else 0)) ∧
    Completes (.iMin k o) s k (wordFx c (oSD o) (if ai ≤ bi then a else b)) ∧
    Completes (.iMax k o) s k (wordFx c (oSD o) (if ai ≤ bi then b else a)) ∧
    Completes (.iScmax k o) s k (wordFx c (oSD o) (scMax (a % 65536) (b % 65536)))

/-- MFS and MTS (R7, R219): every special register reads, and a write acts under the register's access code. -/
def Claims.SpecialRegisters : Prop :=
  ∀ (s : State) (k : Nat) (o : Ops23), s.issues k → oSA o = 0 →
    let c := s.core k
    let n := oImm13 o
    let v := c.sr (oSD o)
    (n ≤ 7 ∨ (16 ≤ n ∧ n ≤ 31) →
      Completes (.iMfs k o) s k (wordFx c (oSD o)
        (if n = 0 then c.flags else if n = 1 then k else if n = 2 then c.qindex % 2 ^ 32 else if n = 3 then s.q
         else if n = 4 then c.vlen else if n = 5 then c.qclamp else if n = 6 then c.qmask else if n = 7 then c.dispatch
         else tget 0 c.gens (n - 16)))) ∧
    (n = 0 → Completes (.iMts k o) s k ⟨{ c with flags := c.flags ^^^ (c.flags &&& v % 256) }, []⟩) ∧
    (n = 4 → Completes (.iMts k o) s k ⟨{ c with vlen := if v = 0 ∨ 64 < v then 64 else v }, []⟩) ∧
    (n = 5 → Completes (.iMts k o) s k ⟨{ c with qclamp := v }, []⟩) ∧
    (n = 6 → Completes (.iMts k o) s k ⟨{ c with qmask := v % 65536 }, []⟩) ∧
    (n = 7 → Completes (.iMts k o) s k ⟨{ c with dispatch := v % 16384 }, []⟩) ∧
    (n = 1 ∨ n = 2 ∨ n = 3 ∨ (16 ≤ n ∧ n ≤ 31) → Completes (.iMts k o) s k ⟨c, []⟩)

/-- The register file (R186, R219): s0 reads as 0 and a write of it does nothing; a write of another register is read
back, and leaves every other register alone. -/
def Claims.RegisterFile : Prop :=
  ∀ (c : Core) (r v : Nat), c.sr 0 = 0 ∧ c.setS 0 v = c ∧
    (r ≠ 0 → (c.setS r v).sr r = v % 2 ^ 32) ∧
    (∀ j, j ≠ r → (c.setS r v).sr j = c.sr j)

/-- VADD to VSCALE (R223, R224): each lane of VD takes the lane function of its operands. -/
def Claims.VectorLanes : Prop :=
  ∀ (s : State) (k : Nat) (o : Ops23), s.issues k →
    let c := s.core k
    let va := c.vr (oVA o)
    let vb := c.vr (oVB o)
    let ss := c.sr (oSS o)
    let two (f : Nat → Nat → Lane) : Fx := c.lanes (oVD o) ((va.zip vb).map fun p => f p.1 p.2)
    let three (f : Nat → Nat → Nat → Lane) : Fx :=
      c.lanes (oVD o) (((c.vr (oVD o)).zip (va.zip vb)).map fun p => f p.1 p.2.1 p.2.2)
    let one (f : Nat → Lane) : Fx := c.lanes (oVD o) (va.map f)
    (vrOk ⟨true, true, true, false, true, true, true⟩ o = true →
      Completes (.iVadd k o) s k (two (laneAdd s.bcA (oTY o) (oVRM o) (oVMODW o) false)) ∧
      Completes (.iVsub k o) s k (two (laneAdd s.bcA (oTY o) (oVRM o) (oVMODW o) true)) ∧
      Completes (.iVmul k o) s k (two (laneMul s.bcA (oTY o) (oVRM o) (oVMODW o))) ∧
      Completes (.iVmac k o) s k (three (laneMac s.bcA (oTY o) (oVRM o) (oVMODW o)))) ∧
    (vrOk ⟨true, true, true, false, true, false, false⟩ o = true →
      Completes (.iVmin k o) s k (two (laneMinMax s.bcA (oTY o) false)) ∧
      Completes (.iVmax k o) s k (two (laneMinMax s.bcA (oTY o) true)) ∧
      (oTY o = 0 → Completes (.iVcmplt k o) s k (two fun a b => ⟨if sx 32 a < sx 32 b then 1 else 0, 0, 0, 0, 0⟩)) ∧
      (oTY o ≠ 0 → Completes (.iVcmplt k o) s k (two fun a b =>
        .fp [rd32 s.bcA a, rd32 s.bcA b] (if fpLt (rd32 s.bcA a) (rd32 s.bcA b) then 1 else 0, false))) ∧
      (oTY o = 0 → Completes (.iVsel k o) s k (three fun d a b => ⟨if b ≠ 0 then a else d, 0, 0, 0, 0⟩)) ∧
      (oTY o ≠ 0 → Completes (.iVsel k o) s k (three fun d a b =>
        .fp [rd32 s.bcA b] (if (rd32 s.bcA b).val.man ≠ 0 then a else d, false)))) ∧
    (vrOk ⟨true, true, true, false, false, false, false⟩ o = true →
      Completes (.iVand k o) s k (two fun a b => ⟨a &&& b, 0, 0, 0, 0⟩) ∧
      Completes (.iVor k o) s k (two fun a b => ⟨a ||| b, 0, 0, 0, 0⟩) ∧
      Completes (.iVxor k o) s k (two fun a b => ⟨a ^^^ b, 0, 0, 0, 0⟩)) ∧
    (vrOk ⟨true, true, false, false, true, false, true⟩ o = true →
      Completes (.iVabs k o) s k (one (laneAbs s.bcA (oTY o) (oVMODW o)))) ∧
    (vrOk ⟨true, true, false, true, false, false, true⟩ o = true →
      Completes (.iVshl k o) s k (one fun a => .int (oVMODW o) (sx 32 a * 2 ^ (ss % 64)))) ∧
    (vrOk ⟨true, true, false, true, false, true, false⟩ o = true →
      Completes (.iVsra k o) s k (one fun a => ⟨(rndDiv (oVRM o) (sx 32 a) (2 ^ (ss % 64)) % 2 ^ 32).toNat, 0, 0, 0, 0⟩) ∧
      Completes (.iVscale k o) s k (one fun a => .int false (scaleApply (sx 32 a) 0 [ss % 65536] (sx 8 (ss / 65536)) (oVRM o)))) ∧
    (vrOk ⟨true, false, false, true, false, false, false⟩ o = true →
      Completes (.iVbcast k o) s k ⟨c.setV (oVD o) (List.replicate 64 ss), []⟩) ∧
    (vrOk ⟨true, true, false, true, true, true, false⟩ o = true →
      Completes (.iVcvt k o) s k (one (laneCvt s.bcA (oTY o) (oVRM o) (sx 8 ss))))

/-- The integer lanes (R220, R224): exact, saturated to S32 once, or the low 32 bits with MODW. -/
def Claims.IntegerLanes : Prop :=
  ∀ (bcA modw : Bool) (rm d a b : Nat),
    let narrow (v : Int) : Lane :=
      if modw = false ∧ v < -2 ^ 31 then ⟨2 ^ 31, 1, 0, 0, 0⟩ else if modw = false ∧ 2 ^ 31 ≤ v then ⟨2 ^ 31 - 1, 1, 0, 0, 0⟩
      else ⟨(v % 2 ^ 32).toNat, 0, 0, 0, 0⟩
    laneAdd bcA 0 rm modw false a b = narrow (sx 32 a + sx 32 b) ∧
    laneAdd bcA 0 rm modw true a b = narrow (sx 32 a - sx 32 b) ∧
    laneMul bcA 0 rm modw a b = narrow (sx 32 a * sx 32 b) ∧
    laneMac bcA 0 rm modw d a b = narrow (sx 32 d + sx 32 a * sx 32 b) ∧
    laneAbs bcA 0 modw a = narrow (sx 32 a).natAbs ∧
    laneMinMax bcA 0 false a b = ⟨if sx 32 b < sx 32 a then b else a, 0, 0, 0, 0⟩ ∧
    laneMinMax bcA 0 true a b = ⟨if sx 32 a < sx 32 b then b else a, 0, 0, 0, 0⟩

/-- What the lanes of a vector result do to a core (R82, R83, R223): the register takes the values; SAT, and the
floating-point flags, are set where some lane raised them, and every occurrence is counted. -/
def Claims.LaneConditions : Prop :=
  ∀ (c : Core) (vd : Nat) (l : List Lane),
    let sats := (l.map (·.sat)).sum
    let nans := (l.map (·.nan)).sum
    let infs := (l.map (·.inf)).sum
    let ovfs := (l.map (·.ovf)).sum
    (c.lanes vd l).c = { c.setV vd (l.map (·.val)) with
      flags := laneFlags c.flags sats nans infs ovfs } ∧
    (c.lanes vd l).total 11 = sats ∧ (c.lanes vd l).total 15 = ovfs ∧ (c.lanes vd l).total 16 = nans ∧
    (c.lanes vd l).total 17 = infs

/-- VLD and VST in a COMPUTE phase (R225, R239): the active lanes from or to local memory in the format named; an
access beyond local memory traps. -/
def Claims.VectorMemory : Prop :=
  ∀ (s : State) (k : Nat) (o : Ops23), s.issues k → (s.core k).compute = true → fld o 7 0 = 0 →
    let c := s.core k
    let a := c.sr (oMSA o)
    let mf := oMF o
    (oMRM o = 0 → a + mfBytes mf c.vlen ≤ 0x200000 →
      (mf < 8 → Completes (.iVld k o) s k (c.lanes (oVD o)
        ((List.range c.vlen).map fun i => mfLoad s.bcA mf (rdLe c.lmem (a + i * mfSize mf) (mfSize mf))))) ∧
      (mf = 8 ∨ mf = 9 →
        let f := if mf = 8 then fp16 else bf16
        let r := ecRun f c.lmem a (cdiv c.vlen 32)
        let x := c.lanes (oVD o) ((r.1.take c.vlen).map (widen f s.bcA))
        Completes (.iVld k o) s k ⟨x.c, (19, r.2) :: x.n⟩)) ∧
    (oMRM o ≠ 3 → mf ≤ 7 → a + mfBytes mf c.vlen ≤ 0x200000 →
      let l := ((c.vr (oVD o)).take c.vlen).map (mfStore s.bcA mf (oMRM o))
      let m := wrBytes c.lmem a (l.flatMap fun x => leBytes (mfSize mf) x.val)
      let sum (f : Lane → Nat) := (l.map f).sum
      let fl := laneFlags c.flags (sum (·.sat)) (sum (·.nan)) (sum (·.inf)) (sum (·.ovf))
      ∃ t, exec (.iVst k o) s = .next t ∧ s.onlyCore k t ∧
        t.core k = { c with lmem := m, idx := c.idx + 1, flags := fl })

/-- A write to a byte memory (R6, R191): the bytes written read back, and every other byte reads as before. -/
def Claims.ByteMemory : Prop :=
  ∀ (m : Tab Byte) (a j : Nat) (l : List Byte), Memory.wf m = true →
    Memory.wf (wrBytes m a l) = true ∧
    (∀ h : a ≤ j ∧ j < a + l.length, rdByte (wrBytes m a l) j = l[j - a]) ∧
    (j < a ∨ a + l.length ≤ j → rdByte (wrBytes m a l) j = rdByte m j)

/-- LD and ST (R220, R239): a word of local memory, at sa + IMM13 with bits [1:0] as zero; transfers in flight end
first. -/
def Claims.ScalarMemory : Prop :=
  ∀ (s : State) (k : Nat) (o : Ops23), s.issues k → (s.core k).dma = [] →
    let c := s.core k
    let a := ((c.sr (oSA o) + if oImm13 o < 4096 then oImm13 o else 2 ^ 32 - 8192 + oImm13 o) % 2 ^ 32) / 4 * 4
    (a + 4 ≤ 0x200000 →
      Completes (.iLd k o) s k (wordFx c (oSD o) (rdLe c.lmem a 4)) ∧
      Completes (.iSt k o) s k ⟨{ c with lmem := wrLe c.lmem a 4 (c.sr (oSD o)) }, []⟩) ∧
    (0x200000 < a + 4 → ∀ i, i = .iLd k o ∨ i = .iSt k o →
      ∃ t, exec i s = .next t ∧ (t.core k).run = .trapped ∧ (t.core k).trapCause = 2 ∧ (t.core k).trapIdx = c.idx)

/-- BEQ, BNE, BLT, BGE, JAL and JR (R220): where the index goes, modulo 2^32. -/
def Claims.Branches : Prop :=
  ∀ (s : State) (k : Nat) (o : Ops23), s.issues k →
    let c := s.core k
    let rel (n w : Nat) : Nat := (c.idx + if n < 2 ^ (w - 1) then n else 2 ^ 32 - 2 ^ w + n) % 2 ^ 32
    let goes (i : Instr) (c' : Core) (t : Nat) : Prop :=
      ∃ u, exec i s = .next u ∧ s.onlyCore k u ∧ u.core k = { c' with idx := t } ∧ s.ctrUp u (kCore k 0)
    let d := c.srI (oSD o)
    let a := c.srI (oSA o)
    let next (b : Bool) : Nat := if b then rel (oImm13 o) 13 else c.idx + 1
    goes (.iBeq k o) c (next (d = a)) ∧ goes (.iBne k o) c (next (d ≠ a)) ∧ goes (.iBlt k o) c (next (d < a)) ∧
    goes (.iBge k o) c (next (a ≤ d)) ∧
    goes (.iJal k o) (c.setS (oSD o) (c.idx + 1)) (rel (oImm18 o) 18) ∧
    (srOk o = true → goes (.iJr k o) c (c.sr (oSA o)))

/-- DRD, DWR and DWAIT in a LOAD phase (R232). -/
def Claims.TransferInstructions : Prop :=
  ∀ (s : State) (k : Nat) (o : Ops23), s.issues k → (s.core k).compute = false →
    let c := s.core k
    let loc := c.sr (oTSA o)
    let loft := c.sr (oTSB o) % 2 ^ 26
    let len := c.sr (oTSC o) % 2 ^ 17
    (fld o 4 0 = 0 → (len = 0 ∨ loc + len ≤ 0x200000) → ∀ rd : Bool,
      let n := (tget .reset s.obs.engines (64 + k)).serial
      CompletesT (if rd then .iDrd k o else .iDwr k o) s k [] ⟨{ c with dma := c.dma ++ [⟨rd, oDT o, loft, loc, len, n⟩] }, []⟩) ∧
    (fld o 18 0 = 0 → (flag o 19 = true → oDT o = 0) →
      let left := c.dma.filter fun d => flag o 19 || d.tag == oDT o
      (left = [] → CompletesT (.iDwait k o) s k [] ⟨c, []⟩) ∧
      (left ≠ [] → WaitsT (.iDwait k o) s k [] (.waitDma (if flag o 19 then none else some (oDT o)))))

/-- RSETUP, RADV and RSTAT in a LOAD phase with no message held (R195, R234). -/
def Claims.RingInstructions : Prop :=
  ∀ (s : State) (k : Nat) (o : Ops23), s.issues k → (s.core k).compute = false → (s.core k).rx = [] →
    let c := s.core k
    let r := tget .reset c.rings (fld o 22 19)
    let v := c.sr (fld o 18 14)
    (fld o 8 0 = 0 → v % 64 = 0 → c.sr (fld o 13 9) % 64 = 0 →
      (c.sr (fld o 13 9) = 0 ∨ v + c.sr (fld o 13 9) ≤ 0x200000) →
      let size := c.sr (fld o 13 9)
      CompletesT (.iRsetup k o) s k []
        ⟨{ c with rings := tset .reset c.rings (fld o 22 19) ⟨v, size, v, v, 0⟩ }, []⟩) ∧
    (fld o 13 0 = 0 →
      CompletesT (.iRadv k o) s k []
        ⟨{ c with rings := tset .reset c.rings (fld o 22 19) (r.release (cdiv v 64 * 64)) }, []⟩) ∧
    (fld o 13 0 = 0 → fld o 18 14 % 2 = 0 →
      CompletesT (.iRstat k o) s k [] ⟨(c.setS (fld o 18 14) r.rd).setS (fld o 18 14 + 1) r.used, []⟩)

/-- QEND, TEND and TAKE (R206 to R208, R236). -/
def Claims.TaskInstructions : Prop :=
  ∀ (s : State) (k : Nat), s.issues k →
    let c := s.core k
    (s.readyList = false →
      CompletesT (.iQend k 0) s k [] ⟨{ c with run := .idle }, []⟩ ∧ CompletesT (.iTend k 0) s k [] ⟨{ c with run := .idle }, []⟩) ∧
    (s.readyList = true → ∀ i, i = .iQend k 0 ∨ i = .iTend k 0 →
      ∃ t, exec i s = .next t ∧ s.onlyIssued k [] t ∧ t.core k = { c with inTask := false, idx := c.dispatch % 2 ^ 32 }) ∧
    (c.compute = false →
      (s.readyList = false → WaitsT (.iTake k 0) s k [] .waitTake) ∧
      (s.findTask k (bitsSet 16 c.qmask) = none → WaitsT (.iTake k 0) s k [] .waitTake) ∧
      (∀ w s', s.readyList = true → s.findTask k (bitsSet 16 c.qmask) = some (w, s') →
        ∃ t, exec (.iTake k 0) s = .next t ∧ t.grid = s'.grid ∧
          t.core k = { c with s := tset 0 c.s 1 (BitVec.ofNat 32 (fld w 31 0)), idx := fld w 63 50, run := .running, tag := [],
                              inTask := true, woken := false }))

/-- What TAKE takes (R208, R428): the first task, in the first queue of the mask that holds one, that is not pinned to
another core and not of a class that is shed; it leaves that queue, and nothing else changes. -/
def Claims.TaskChoice : Prop :=
  ∀ (s : State) (k : Nat) (qs : List Nat),
    let may (w : DWord) : Prop := (flag w 49 = true → fld w 48 43 = k) ∧ fld w 42 41 ∉ s.sup.shed
    (∀ w s', s.findTask k qs = some (w, s') →
      ∃ q l₁ l₂, q ∈ qs ∧ s.queue q = l₁ ++ w :: l₂ ∧ may w ∧ (∀ x ∈ l₁, ¬ may x) ∧ s' = s.setQueue q (l₁ ++ l₂) ∧
        ∀ p ∈ qs.takeWhile (· != q), ∀ x ∈ s.queue p, ¬ may x) ∧
    (s.findTask k qs = none → ∀ q ∈ qs, ∀ x ∈ s.queue q, ¬ may x)

/-- A core waiting in TAKE takes the task that is there for it (R208), and its instruction retires. -/
def Claims.TaskAvailable : Prop :=
  ∀ (s s' : State) (k : Nat) (w : DWord), k < 64 → (s.core k).run = .waitTake → s.readyList = true →
    s.findTask k (bitsSet 16 (s.core k).qmask) = some (w, s') →
    ∃ t, exec (.taskAvailable k) s = .next t ∧ s'.onlyIssued k [] t ∧
      t.core k = { s.core k with s := tset 0 (s.core k).s 1 (BitVec.ofNat 32 (fld w 31 0)), idx := fld w 63 50, run := .running,
                                 tag := [], inTask := true, woken := false }

/-- TNOW, TWAIT, TWAITQ and TDLINE (R41, R238). -/
def Claims.TimeInstructions : Prop :=
  ∀ (s : State) (k : Nat) (o : Ops23), s.issues k →
    let c := s.core k
    let sd := oSD o
    let v := c.sr (sd + 1) * 2 ^ 32 + c.sr sd
    let qts := packTs ((s.time.window + 1) * s.q + fld o 22 16) (fld o 15 4)
    (fld o 17 0 = 0 → sd % 2 = 0 →
      CompletesT (.iTnow k o) s k [] ⟨(c.setS sd (s.tstamp % 2 ^ 32)).setS (sd + 1) (s.tstamp / 2 ^ 32), []⟩ ∧
      CompletesT (.iTdline k o) s k [] ⟨{ c with deadline := if v = 0 then none else some v }, []⟩ ∧
      (c.compute = false →
        (v ≤ s.tstamp → CompletesT (.iTwait k o) s k [] ⟨c, []⟩) ∧
        (s.tstamp < v → WaitsT (.iTwait k o) s k [] (.waitTime v)))) ∧
    (fld o 3 0 = 0 → c.compute = false →
      (qts ≤ s.tstamp → CompletesT (.iTwaitq k o) s k [] ⟨c, []⟩) ∧
      (s.tstamp < qts → WaitsT (.iTwaitq k o) s k [] (.waitTime qts)))

/-- A core's deadline and a core's wait for an instant (R29, R41), where sample time is at or before the instant
within the quantum, or past it: the command stands at the instant's phase. -/
def Claims.CoreInstants : Prop :=
  ∀ (s : State) (k ts : Nat), k < 64 → s.reaches ts = true →
    let u := s.toTs ts
    ((s.core k).deadline = some ts →
      exec (.coreDeadlineReached k) s = .next
        ((u.setCore k { s.core k with deadline := none, flags := (s.core k).flags ||| 8 }).count (kCore k 18) 1)) ∧
    ((s.core k).run = .waitTime ts →
      ∃ t, exec (.timeWaitResume k) s = .next t ∧ u.onlyIssued k [] t ∧
        t.core k = { s.core k with run := .running, woken := false, idx := ((s.core k).idx + 1) % 2 ^ 32 })

/-- When an instruction does not issue (R207, R211, R214, R218): a core that is not running takes none; an index that
names no instruction and an encoding that is not legal trap, and the trap stops the core at the instruction. -/
def Claims.IssueTraps : Prop :=
  ∀ (s : State) (i : Instr) (k : Nat) (legal : Bool), coreLegal i = some (k, legal) → k < 64 →
    (s.runs k = false → exec i s = .next s) ∧
    (s.runs k = true → 16383 < (s.core k).idx ∨ legal = false →
      ∃ t, exec i s = .next t ∧ (t.core k) = { s.core k with
          run := .trapped, trapCause := if 16383 < (s.core k).idx then 3 else 1, trapIdx := (s.core k).idx } ∧
        (∀ j, j ≠ k → t.core j = s.core j) ∧ s.ctrUp t (kCore k 7) ∧ t.loft = s.loft ∧ t.arrs = s.arrs ∧
        t.grid.objs = s.grid.objs ∧ t.grid.queues = s.grid.queues)

/-- An instruction that needs the other phase switches to it first (R189, R215). -/
def Claims.IssueSwitchesPhase : Prop :=
  ∀ (s : State) (i : Instr) (k : Nat), coreLegal i = some (k, true) → s.issues k →
    let comp := [Instr.iVld k, .iVst k, .iMldw k, .iMmac k, .iMdrain k]
    let load := [Instr.iDrd k, .iDwr k, .iDwait k, .iSend k, .iRsetup k, .iRadv k, .iRstat k, .iAeval k, .iArrive k,
      .iSwait k, .iSwaitset k, .iTake k, .iTwait k, .iTwaitq k]
    ((∃ f ∈ comp, ∃ o, i = f o) → ∃ t, exec i s = .next t ∧ (t.core k).compute = true) ∧
    ((∃ f ∈ load, ∃ o, i = f o) → ∃ t, exec i s = .next t ∧ (t.core k).compute = false)

/-- The phase switch (R189, R190): to COMPUTE the transfers in flight complete first, and to LOAD the held messages
are written; a switch is counted, and a core in that phase already goes on. A core that issues no instruction keeps
its phase. -/
def Claims.PhaseSwitches : Prop :=
  ∀ (s : State) (k : Nat), k < 64 →
    (∀ b, (s.core k).compute = b ∨ s.runs k = false → exec (.phaseSwitch k b) s = .next s) ∧
    (s.runs k = true → (s.core k).compute = false →
      ∃ t, exec (.phaseSwitch k true) s = .next t ∧ (t.core k).compute = true ∧ (t.core k).dma = [] ∧
        ((s.core k).dma = [] → t = (s.setCore k { s.core k with compute := true }).count (kCore k 4) 1)) ∧
    (s.runs k = true → (s.core k).compute = true →
      ∃ t, exec (.phaseSwitch k false) s = .next t ∧ (t.core k).compute = false ∧
        ((s.core k).rx = [] → t = (((s.setCore k { s.core k with compute := false }).count (kCore k 4) 1).setCore k
          { s.core k with compute := false })))

/-- A listed source that qualifies, its frequency within the tolerance and its other tests met, or is lost (R43 to
R46, R52): the bridle takes the best qualified source where it has none, and goes to HOLDOVER where the source it had
locked to is lost and none is left; in boot step 9 a better source replaces the one being acquired. -/
def Claims.ClockSources : Prop :=
  ∀ (s : State) (src : Nat) (ppb : Int),
    let q : State := { s with time.qual := if s.time.qual.contains src then s.time.qual else src :: s.time.qual }
    let l : State := { s with time.qual := s.time.qual.filter (· != src),
                              port.saIdx := if 3 ≤ src then put s.port.saIdx (src - 3) none else s.port.saIdx }
    let taken (s : State) (c : Nat) : State :=
      { s with time.st := .acquiring, time.src := c, time.hadLocked := false, time.slewing := false, time.err := 0 }
    (src ∉ s.sources ∨ 1000 * bf s.cfg.clocking.toNat 95 86 < ppb.natAbs ∨ s.srcOk src = false →
      exec (.sourceQualified src ppb) s = .next s) ∧
    (src ∈ s.sources → ppb.natAbs ≤ 1000 * bf s.cfg.clocking.toNat 95 86 → s.srcOk src = true →
     (s.run.st = .boot → s.run.step < 9 → exec (.sourceQualified src ppb) s = .next q) ∧
     (s.run.st = .boot → 9 ≤ s.run.step → s.run.s9 = false → s.time.st = .acquiring → ∀ c, q.bestSrc = some c →
        (c = s.time.src → exec (.sourceQualified src ppb) s = .next q) ∧
        (c ≠ s.time.src → exec (.sourceQualified src ppb) s = .next ((taken q c).raise evClockSourceChanged []))) ∧
     (s.run.st ≠ .boot →
      (s.time.st = .freeRun ∨ s.time.st = .holdover → ∀ c, q.bestSrc = some c → c ≠ s.time.src →
        exec (.sourceQualified src ppb) s = .next ((taken q c).raise evClockSourceChanged [])) ∧
      (s.time.st = .freeRun ∨ s.time.st = .holdover → q.bestSrc = some s.time.src →
        exec (.sourceQualified src ppb) s = .next (taken q s.time.src)) ∧
      (s.time.st = .locked ∨ s.time.st = .lockedOffset ∨ s.time.st = .acquiring →
        exec (.sourceQualified src ppb) s = .next q))) ∧
    (s.time.src ≠ src ∨ s.time.st = .freeRun ∨ s.time.st = .holdover → exec (.sourceLost src) s = .next l) ∧
    (s.time.src = src → s.time.st = .locked ∨ s.time.st = .lockedOffset → s.time.hadLocked = true →
      let e := ({ l with time.lockLost := true } : State).raise evClockLockLost []
      (∀ c, l.bestSrc = some c → exec (.sourceLost src) s = .next ((taken e c).raise evClockSourceChanged [])) ∧
      (l.bestSrc = none →
        exec (.sourceLost src) s = .next { e with time.st := .holdover, time.slewing := false })) ∧
    (s.revertEn = true → src ∈ s.time.qual → srcBefore s.sources src s.time.src = true →
      s.time.st = .locked ∨ s.time.st = .lockedOffset ∨ s.time.st = .acquiring → src ≠ s.time.src →
      exec (.revertHoldoffExpiry src) s = .next ((taken s src).raise evClockSourceChanged []))

/-- Lock (R25, R27, R43, R28, R47, R49): in BOOT sample time steps onto the source's, at an interpolator phase;
afterwards an error below 16 ticks locks at once, one of at most a sample is slewed out, and a larger one is held as
an offset. PTP time t is the sample index floor(t x fs). A source whose phase errors over the interval leave the
tolerance of the first is not stable, and nothing is locked. An error that departs by more than PHASE_TOL in 16 quanta
ends the lock, and so does an expired holdover (R45, R500). -/
def Claims.ClockLock : Prop :=
  ∀ (s : State) (sec frac : Nat) (errs meas : List Int),
    let t := s.srcTime s.time.src sec frac
    let d : Int := (t : Int) - ((s.time.sample * 4096 + s.time.tick : Nat) : Int)
    let tol := bf s.cfg.clocking.toNat 85 76
    let held : Int := if s.time.st = .lockedOffset then s.time.err else 0
    (s.time.src = 1 ∨ s.time.src = 2 → t / 4096 = (sec * 10 ^ 9 * 2 ^ 16 + frac) * rateHz s.time.rate / (10 ^ 9 * 2 ^ 16)) ∧
    ((s.setTime t).time.sample = t / 4096 % 2 ^ 64 ∧ (s.setTime t).time.tick = t % 4096 / s.phaseTicks * s.phaseTicks) ∧
    ((∃ x ∈ meas, tol < (x - meas.headD 0).natAbs) → ∀ src, exec (.stabilityTestPass src sec frac meas) s = .next s) ∧
    (s.time.st = .acquiring → s.time.slewing = false → meas ≠ [] → (∀ x ∈ meas, (x - meas.headD 0).natAbs ≤ tol) →
      (s.run.st = .boot → exec (.stabilityTestPass s.time.src sec frac meas) s = .next
        { s.setTime t with time.counting := true, time.st := .locked, time.hadLocked := true, time.err := 0,
                           run.s9 := s.run.s9 || decide (9 ≤ s.run.step) }) ∧
      (s.run.st ≠ .boot →
        (d.natAbs < 16 → exec (.stabilityTestPass s.time.src sec frac meas) s = .next
          { s with time.st := .locked, time.hadLocked := true, time.err := 0 }) ∧
        (16 ≤ d.natAbs → d.natAbs ≤ 4096 → exec (.stabilityTestPass s.time.src sec frac meas) s = .next
          { s with time.slewing := true, time.err := d }) ∧
        (4096 < d.natAbs → exec (.stabilityTestPass s.time.src sec frac meas) s = .next
          { s with time.st := .lockedOffset, time.hadLocked := true, time.err := d }))) ∧
    (s.time.st = .acquiring → s.time.slewing = true → exec .slewComplete s = .next
      { s with time.st := .locked, time.slewing := false, time.hadLocked := true, time.err := 0 }) ∧
    (s.time.st = .locked ∨ s.time.st = .lockedOffset → 16 ≤ errs.length → (∀ e ∈ errs, tol < (e - held).natAbs) →
      exec (.phaseStep errs) s = .next
      (({ s with time.st := .acquiring, time.slewing := false, time.err := errs.getLast?.getD 0 } : State).raise evClockPhaseStep [])) ∧
    (errs.length < 16 ∨ (∃ e ∈ errs, (e - held).natAbs ≤ tol) → exec (.phaseStep errs) s = .next s) ∧
    (s.time.st = .holdover → exec .holdoverExpiry s = .next
      (({ s with time.st := .freeRun, time.src := 0, time.slewing := false } : State).raise evClockHoldoverExpired []))

/-- The end of boot step 9 by timeout (R52; that sample time then counts from 0 is log entry 11), and the write that
clears STEPPED and LOCK_LOST (R51). -/
def Claims.ClockTimeoutAndStatus : Prop :=
  ∀ (s : State) (v : Word),
    (s.run.st = .boot → 9 ≤ s.run.step → s.run.s9 = false → s.bestSrc = none → s.time.counting = false →
      exec .clockAcquisitionTimeout s = .next
        { s with time.st := .freeRun, time.src := 0, time.slewing := false, time.sample := 0, time.tick := 0,
                 time.counting := true, run.s9 := true }) ∧
    (s.run.st = .boot → 9 ≤ s.run.step → s.run.s9 = false → ∀ c, s.bestSrc = some c →
      ∃ t, exec .clockAcquisitionTimeout s = .next t ∧ t.run.s9 = true ∧ t.time.counting = true ∧
        t.time.src = c ∧ t.time.st = .acquiring) ∧
    exec (.clkStatusClear v) s = .next
      { s with time.stepped := s.time.stepped && !v.getLsbD 18, time.lockLost := s.time.lockLost && !v.getLsbD 17 }

/-- Sample time carried on to an instant (R29, R47): to the first interpolator phase at or after it, and never back.
-/
def Claims.TimeMovesOn : Prop :=
  ∀ (s : State) (ts : Nat),
    let p := s.phaseTicks
    let at_ := s.time.sample / 2 ^ 52 * 2 ^ 52 * 4096 + cdiv ts p * p
    let now (s : State) := s.time.sample * 4096 + s.time.tick
    s.time.tick < 4096 →
      s.toTs ts = { s with time.sample := (s.toTs ts).time.sample, time.tick := (s.toTs ts).time.tick } ∧
      (s.toTs ts).time.tick < 4096 ∧ now (s.toTs ts) = max (now s) at_

/-- The schedule's release (R38 to R40): the due entries of no higher index in the same phase release in ascending
order, each by its action on its object. -/
def Claims.ScheduleReleases : Prop :=
  ∀ (s : State) (i : Nat), i < 256 → s.due i = true →
    let at_ (j : Nat) := cdiv (sePhase (s.entry j) * 4096 + seTick (s.entry j)) s.phaseTicks
    let ts := packTs (s.time.sample / s.q * s.q + sePhase (s.entry i)) (seTick (s.entry i))
    at_ i * s.phaseTicks < s.q * 4096 → s.reaches ts = true →
    exec (.scheduleRelease i) s = .next
      (((List.range (i + 1)).filter fun j => s.due j && at_ j == at_ i).foldl State.release (s.toTs ts))

/-- A result that comes after its deadline is counted (R32), and where the quantum index is a multiple of 65,536 the
use counts of the directory halve, once (R292). -/
def Claims.LateResultsAndUse : Prop :=
  ∀ s : State,
    (s.time.opened = true → s.time.windowOpen = false → exec .lateResultDiscard s = .next (s.count (kEngine 0) 1)) ∧
    (s.lateWork = false → exec .lateResultDiscard s = .next s) ∧
    (s.qindex % 65536 = 0 → s.model.halved ≠ some s.qindex → ∃ t, exec .useRecentHalve s = .next t ∧
      t = { s with nv.dir := t.nv.dir, model.use := [], model.halved := some s.qindex } ∧
      ∀ x, t.dirEnt x = (s.dirEnt x).map fun e => { e with useRecent := s.useOf (x, e) / 2 }) ∧
    (s.qindex % 65536 ≠ 0 ∨ s.model.halved = some s.qindex → exec .useRecentHalve s = .next s)

/-- SIGNAL and SET (R200, R202, R205) on an object that the operation suits. A semaphore serves its waiters strictly
in arrival order while the count allows, and with TRIG_EN its remainder releases by TARGETs; beyond 2^32 - 1 the count
stays there with OVERFLOW; an event is set once. -/
def Claims.SyncSignals : Prop :=
  ∀ (s : State) (obj arg : Nat) (src : SyncSrc), obj < 4096 → src = .entry ∨ obj < 3840 →
    let u := s.opTaken obj 0 src
    let n := match s.opMsg obj 0 src with | some m => bf m.arg 19 4 | none => arg % 65536
    let o := s.obj obj
    (∀ p : Nat × Instr, p = (0, .syncSignal obj arg src) ∨ p = (2, .syncSet obj src) → ¬ s.opTurn obj p.1 src →
      exec p.2 s = .next s) ∧
    (s.opTurn obj 0 src → o.kind = 1 → o.count + n < 2 ^ 32 →
      ∃ done wait, o.queue = done ++ wait ∧ sumN (done.map (·.2)) ≤ o.count + n ∧
        let c := o.count + n - sumN (done.map (·.2))
        let rel := if o.trig = true ∧ 0 < o.target then c / o.target else 0
        (∀ w ∈ wait.head?, c < w.2) ∧
        let o' := { o with count := c - rel * o.target, queue := wait, rel := o.rel + rel }
        exec (.syncSignal obj arg src) s = .next (((u.setObj obj o').wakeAll done).trigger o rel)) ∧
    (s.opTurn obj 0 src → o.kind = 1 → 2 ^ 32 ≤ o.count + n → o.queue = [] → o.trig = false →
      ∃ t, exec (.syncSignal obj arg src) s = .next t ∧ t.obj obj = { o with count := 2 ^ 32 - 1, ovf := true } ∧
        s.ctrUp t (kRouter (obj / 64) 2) ∧ ∀ k, src = .core k → (t.core k).flags = (s.core k).flags ||| 1) ∧
    (o.kind = 3 → ∀ p : Nat × Instr, p = (0, .syncSignal obj arg src) ∨ p = (2, .syncSet obj src) → s.opTurn obj p.1 src →
      let u := s.opTaken obj p.1 src
      exec p.2 s = .next (if o.count = 1 then u
        else ((u.setObj obj { o with count := 1, queue := [], rel := o.rel + 1 }).wakeAll o.queue).trigger o 1))

/-- ARRIVE and CLEAR (R201 to R203, R205): the arrival that reaches TARGET releases every arriver that waits; a core
waits only for an ARRIVE of the quantum that it processes. -/
def Claims.SyncBarriers : Prop :=
  ∀ (s : State) (obj : Nat) (src : SyncSrc), obj < 4096 → src = .entry ∨ obj < 3840 →
    let u := s.opTaken obj 1 src
    let o := s.obj obj
    let late (k : Nat) : Bool := match s.opMsg obj 1 src with | some m => m.qtag != (s.core k).qindex % 4 | none => false
    let q := match src with
      | .core k => if (s.core k).run = .waitSync obj 1 0 ∧ late k = false then o.queue ++ [(k, 0)] else o.queue
      | _ => o.queue
    (s.opTurn obj 1 src → o.kind = 2 →
      (o.count + 1 < o.target → exec (.syncArrive obj src) s = .next (u.setObj obj { o with count := o.count + 1, queue := q })) ∧
      (o.target ≤ o.count + 1 → exec (.syncArrive obj src) s = .next
        (((u.setObj obj { o with count := 0, queue := [], rel := o.rel + 1 }).wakeAll q).trigger o 1))) ∧
    (s.opTurn obj 3 src → o.kind = 3 → src ≠ .peer → exec (.syncClear obj src) s = .next ((s.opTaken obj 3 src).setObj obj { o with count := 0 }))

/-- WAIT, WAITSET and READ at the home router, and the wake of a waiter (R198, R200, R202). -/
def Claims.SyncWaits : Prop :=
  ∀ (s : State) (obj k : Nat), obj < 4096 → k < 64 →
    let o := s.obj obj
    let c := s.core k
    (∀ n, c.run = .waitSync obj 4 n → o.kind = 1 → c.woken = false → s.opTurn obj 4 (.core k) →
      let u := s.opTaken obj 4 (.core k)
      exec (.syncWait obj n k) s = .next
        (if n = 0 then u.wake k
         else if o.queue = [] ∧ n ≤ o.count then (u.setObj obj { o with count := o.count - n }).wake k
         else u.setObj obj { o with queue := o.queue ++ [(k, n)] })) ∧
    (c.run = .waitSync obj 5 0 → o.kind = 3 → c.woken = false → s.opTurn obj 5 (.core k) →
      let u := s.opTaken obj 5 (.core k)
      exec (.syncWaitset obj k) s = .next
        (if o.count = 1 then u.wake k else u.setObj obj { o with queue := o.queue ++ [(k, 0)] })) ∧
    (∀ sel sd, c.run = .waitRead obj sel sd → s.opTurn obj 6 (.core k) →
      ∃ t, exec (.syncRead obj k) s = .next t ∧ (s.opTaken obj 6 (.core k)).onlyIssued k [] t ∧
        t.core k = { c.setS sd (if sel = true then o.rel else o.count) with
          run := .running, woken := false, idx := (c.idx + 1) % 2 ^ 32 }) ∧
    (∀ op n, c.run = .waitSync obj op n → c.woken = true →
      ∃ t, exec (.coreWake k) s = .next t ∧ s.onlyIssued k [] t ∧
        t.core k = { c with run := .running, woken := false, idx := (c.idx + 1) % 2 ^ 32 })

/-- What a release does (R198, R205): the waiters it serves are woken, and no other core changes; each release of an
object with TRIG_EN set pushes its task once, with the QTAG of the quantum being processed, while the queue has room;
in fixed-schedule mode no task is pushed (R236). -/
def Claims.SyncReleases : Prop :=
  ∀ (s : State),
    (∀ l : List (Nat × Nat), s.wakeAll l = { s with cores := (s.wakeAll l).cores } ∧
      ∀ j, (s.wakeAll l).core j = if j ∈ l.map (·.1) then { s.core j with woken := true } else s.core j) ∧
    (∀ (o : SyncObj) (n : Nat), o.trig = false ∨ s.readyList = false → s.trigger o n = s) ∧
    (∀ (o : SyncObj) (n : Nat), s.readyList = true → o.trig = true → (s.queue o.tq).length + n ≤ 256 →
      (s.trigger o n).queue o.tq = s.queue o.tq ++ List.replicate n (s.stampTask o.w2) ∧
      (∀ q, q ≠ o.tq → (s.trigger o n).queue q = s.queue q) ∧ (s.trigger o n).grid.objs = s.grid.objs ∧
      (s.trigger o n).cores = s.cores)

/-- An operation that does not suit its object (R204): no object and no core changes, the home router counts it, and
reports it once in a quantum. -/
def Claims.SyncMisuseRule : Prop :=
  ∀ (s : State) (obj n op : Nat) (src : SyncSrc) (i : Instr), obj < 4096 →
    (op, i) ∈ [(0, Instr.syncSignal obj n src), (1, .syncArrive obj src), (2, .syncSet obj src), (3, .syncClear obj src)] →
    opSuits op (s.obj obj).kind = false ∨ (src ≠ .entry ∧ 3840 ≤ obj) ∨ (op = 3 ∧ src = .peer) →
    s.opTurn obj op src →
    let h := obj / 64
    let u := (s.opTaken obj op src).count (kRouter h 3) 1
    exec i s = .next (if h ∈ s.grid.misused then u
      else ({ u with grid.misused := h :: s.grid.misused } : State).raise evSyncMisuse [(2, obj)])

/-- The loft's reads and writes (R244 to R247): a DATA message writes the bytes that no reel protects, and a LOFT_READ
is answered with one READ_RESP; a request that breaks the rules of R245 is dropped and counted, as is one to the
control complex's range. The sync action follows only where every byte is written (R197; that it needs every byte is
log entry 74). Where trace or probe rings lie in the loft, their bytes are read among the others, but where a write
has come over them (R242, R246; log entry 69). A slice accepts a request whatever it has to send itself (R181). -/
def Claims.LoftAccess : Prop :=
  ∀ (s : State) (m : Msg), s.ready m = true → m.toUnit 2 = true →
    let u := s.arrive m
    let w := leAt m.payload 0 8
    let a := bf w 25 0
    let bs := m.payload.drop 8
    let n := bf w 44 32
    (m.type = 0 → ∀ i : Instr, i = .loftWrite m ∨ (i = .dataDeliver m ∧ s.behindHeld m = false) →
      (bf w 63 26 ≠ 0 ∨ m.payload.length < 8 ∨ a / 2 ^ 22 ≠ m.unit ∨ 4096 < a % 4096 + bs.length →
        exec i s = .next (u.count (kSlice (m.unit % 16) 1) 1)) ∧
      (bf w 63 26 = 0 → 8 ≤ m.payload.length → a / 2 ^ 22 = m.unit → a % 4096 + bs.length ≤ 4096 →
        (loftCtl a = true → exec i s = .next (u.count (kSlice m.unit 2) 1)) ∧
        (loftCtl a = false → 
          ∃ mem, (∀ j, rdByte mem j = if a ≤ j ∧ j < a + bs.length ∧ inRanges s.protectedRanges j = false
                        then nth 0 bs (j - a) else rdByte s.loft.mem j) ∧
            let t : State := { u with loft.mem := mem, loft.wrote := s.overRings s.protectedRanges a bs.length }
            ((∃ j, a ≤ j ∧ j < a + bs.length ∧ inRanges s.protectedRanges j = true) →
              exec i s = .next (t.count (kSlice m.unit 2) 1)) ∧
            ((∀ j, a ≤ j → j < a + bs.length → inRanges s.protectedRanges j = false) →
              exec i s = .next (t.syncAction m))))) ∧
    (m.type = 0 → s.behindHeld m = true → exec (.dataDeliver m) s = .next s) ∧ (s.loftRings = false → s.overRings s.protectedRanges a bs.length = s.loft.wrote) ∧
    (m.type = 4 →
      (bf w 63 45 ≠ 0 ∨ bf w 31 26 ≠ 0 ∨ n = 0 ∨ 4096 < n ∨ a / 2 ^ 22 ≠ m.unit ∨ 4096 < a % 4096 + n →
        exec (.loftReadReq m) s = .next (u.count (kSlice m.unit 1) 1)) ∧
      (bf w 63 45 = 0 → bf w 31 26 = 0 → 1 ≤ n → n ≤ 4096 → a / 2 ^ 22 = m.unit → a % 4096 + n ≤ 4096 →
        let answer (bytes : List Byte) : Msg := mkMsg m.src.toNat (localAddr 2 m.unit 0) 5 m.fmt m.syncEn m.sync m.qtag 0
          (leBytes 8 a ++ bytes)
        (loftCtl a = true →
          exec (.loftReadReq m) s = .next ((u.count (kSlice m.unit 2) 1).send (answer (List.replicate n 0)))) ∧
        (loftCtl a = false → s.loftRings = false →
          exec (.loftReadReq m) s = .next (u.send (answer (rdBytes s.loft.mem a n)))) ∧
        (loftCtl a = false → s.loftRings = true → let v : State := { u with free := s.free + 1 }
          exec (.loftReadReq m) s = .next (v.send (answer ((List.range n).map fun i => v.loftByte s.free (a + i)))))))

/-- The oldest transfer of a core completes (R232): a loft-to-local transfer copies the loft's bytes, byte by byte and
modulo 64 MiB, outside the control complex's range; a local-to-loft one leaves the core's local memory as it was. A
DWAIT that it ends goes on. -/
def Claims.TransfersComplete : Prop :=
  ∀ (s : State) (k : Nat) (d : Dma) (rest : List Dma), k < 64 → (s.core k).dma = d :: rest → d.len ≤ 131071 →
    ∃ t, exec (.dmaTransferComplete k) s = .next t ∧ (t.core k).dma = rest ∧
      (d.rd = true → t.loft = s.loft ∧ (∀ i < d.len, ∃ f, rdByte (t.core k).lmem (d.loc + i) =
          if loftCtl ((d.loft + i) % 2 ^ 26) = true then 0
          else if s.loftRings = true then s.loftByte f ((d.loft + i) % 2 ^ 26) else rdByte s.loft.mem ((d.loft + i) % 2 ^ 26)) ∧
        ∀ j, j < d.loc ∨ d.loc + d.len ≤ j → rdByte (t.core k).lmem j = rdByte (s.core k).lmem j) ∧
      (d.rd = false → (t.core k).lmem = (s.core k).lmem) ∧
      ((s.core k).run = .waitDma none → rest = [] → (t.core k).run = .running ∧ (t.core k).idx = ((s.core k).idx + 1) % 2 ^ 32) ∧
      (∀ g, (s.core k).run = .waitDma (some g) → (∀ x ∈ rest, x.tag ≠ g) →
        (t.core k).run = .running ∧ (t.core k).idx = ((s.core k).idx + 1) % 2 ^ 32)

/-- Messages to a core in a LOAD phase with an empty receive buffer (R190, R195, R197): sub 255 writes at ARG; a ring
takes the message at its write position, padded to 64 bytes; what does not fit in local memory, or names a ring not
set up, is discarded and counted. Only the core addressed changes, but for waiters that the message's sync action
wakes. A message behind one of its sender that cannot be accepted yet stays in the mesh (R183). -/
def Claims.CoreReceives : Prop :=
  ∀ (s : State) (m : Msg), m.type = 0 ∨ m.type = 5 ∨ m.type = 7 → m.toUnit 0 = true → m.unit < 64 → s.ready m = true →
    (s.behindHeld m = true → exec (.dataDeliver m) s = .next s) ∧ (s.behindHeld m = false →
    let c := s.core m.unit
    let len := m.payload.length
    let r := tget .reset c.rings m.sub
    let pad := cdiv len 64 * 64
    let wrote (c' : Core) : Prop := ∃ t, exec (.dataDeliver m) s = .next t ∧
      t.core m.unit = { c' with woken := (t.core m.unit).woken } ∧
      (∀ j, j ≠ m.unit → t.core j = { s.core j with woken := (t.core j).woken }) ∧ t.loft = s.loft ∧ t.arrs = s.arrs ∧
      (m.syncEn = false → (∀ j, (t.core j).woken = (s.core j).woken) ∧ t.grid = (s.arrive m).grid)
    let dropped : Prop := ∃ t, exec (.dataDeliver m) s = .next t ∧ (∀ j, t.core j = s.core j) ∧
      t = { s.arrive m with cores := t.cores, cnt := t.cnt } ∧ s.ctrUp t (kCore m.unit 8)
    c.compute = false → c.rx = [] → len ≤ 32768 →
      (m.sub = 255 → m.arg + len ≤ 0x200000 → wrote { c with lmem := wrBytes c.lmem m.arg m.payload }) ∧
      (m.sub = 255 → 0x200000 < m.arg + len → dropped) ∧
      (m.sub ≠ 255 → r.size = 0 → dropped) ∧
      (m.sub ≠ 255 → r.size ≠ 0 → r.wr + pad ≤ r.base + r.size → r.used + pad ≤ r.size →
        wrote { c with
          lmem := wrBytes c.lmem r.wr (fit 0 pad m.payload),
          rings := tset .reset c.rings m.sub { r with
            wr := if r.wr + pad = r.base + r.size then r.base else r.wr + pad, used := r.used + pad } }))

/-- Task messages (R196, R205, R208): a task of another quantum is discarded; a queue of 256 holds no more, and its
message stays in the mesh; otherwise the task joins its queue with the quantum's QTAG; in fixed-schedule mode it joins
none (R236). -/
def Claims.TaskMessages : Prop :=
  ∀ (s : State) (m : Msg), m.type = 6 → m.remote = false → s.ready m = true →
    let q := m.arg % 16
    let w : DWord := BitVec.ofNat 64 (leAt m.payload 0 8)
    (m.qtag ≠ s.qindex % 4 → exec (.taskEnqueue m) s = .next ((s.arrive m).count (kCore (sliceRouter q) 9) 1)) ∧
    (m.qtag = s.qindex % 4 → s.readyList = false → exec (.taskEnqueue m) s = .next (s.arrive m)) ∧
    (m.qtag = s.qindex % 4 → s.readyList = true → (s.queue q).length < 256 → exec (.taskEnqueue m) s = .next
      ((((s.arrive m).setQueue q (s.queue q ++ [s.stampTask w])).count (kSlice q 21) 1).syncAction m)) ∧
    (m.qtag = s.qindex % 4 → s.readyList = true → 256 ≤ (s.queue q).length → m ∈ s.grid.mesh → exec (.taskEnqueue m) s = .next s) ∧
    (∀ i, i ≠ 39 → i ≠ 40 → (s.stampTask w).getLsbD i = w.getLsbD i) ∧ fld (s.stampTask w) 40 39 = s.qindex % 4

/-- A received media packet (R342, R343, R502) for the one stream that its address matches: the filters, the size, the
window and the duplicate check drop it, each counted; else its samples stand from its index plus the ingress offset
on, those of collected quanta discarded. A packet that matches no stream is counted at the port; one that needs an
index has no effect before sample time is counted. -/
def Claims.MediaReceive : Prop :=
  ∀ (s : State) (port : Nat) (p : MediaPkt), port < 2 → s.mediaOn port = true → s.chan.stopped = false →
    p.udpDst ≠ 319 → p.udpDst ≠ 320 →
    let hit (e : Nat × BitVec 256) : Bool :=
      msOn e.2 port && !msTx e.2 && p.dstIp == msGroup e.2 port && p.udpDst == msUdpDst e.2
    (s.cfg.streams.filter hit = [] → exec (.mediaPacketRx port p) s = .next (s.count (kMedia port 2) 1)) ∧
    (∀ t w, s.cfg.streams.filter hit = [(t, w)] → s.stream t = w → ∀ i : Int,
      (i - ((p.ts : Int) - (msRtp w : Int))) % 2 ^ 32 = 0 → -2 ^ 31 ≤ i - (s.time.sample : Int) →
      i - (s.time.sample : Int) < 2 ^ 31 →
      let x := s.strIn t
      let n := packetOf (msPtime w) s.time.rate
      let first := i + ((if msIngress w = 0 then n + 8 else msIngress w : Nat) : Int)
      let drop (c : Nat) : Prop := exec (.mediaPacketRx port p) s = .next (s.count (kStream t c) 1)
      (s.msPass port w p = false → drop 3) ∧
      (s.msPass port w p = true →
        (p.payload.length ≠ n * msNch w * msSize w → drop 4) ∧
        (p.payload.length = n * msNch w * msSize w → s.time.counting = false → exec (.mediaPacketRx port p) s = .next s) ∧
        (p.payload.length = n * msNch w * msSize w → s.time.counting = true →
          ((s.time.sample : Int) + 1024 < first → drop 5) ∧
          (first ≤ (s.time.sample : Int) + 1024 →
            (ux 64 i ∈ x.seen → drop 6) ∧
            (ux 64 i ∉ x.seen →
              let rows := (chunks (msNch w * msSize w) p.payload).map fun r => (chunks (msSize w) r).map beNat
              ∃ smp : Tab (List Nat),
                (∀ j : Nat, tfind smp j =
                  if first ≤ (j : Int) ∧ ((j : Int) - first).toNat < rows.length ∧ s.time.sample / s.q * s.q ≤ j
                  then some (nth [] rows ((j : Int) - first).toNat) else tfind x.samples j) ∧
                exec (.mediaPacketRx port p) s = .next
                  ((s.setIn t { x with samples := smp, seen := ux 64 i :: x.seen, lastSeq := some (p.seq % 2 ^ 16) }).counts
                    [(kStream t 1, 1),
                     (kStream t 7, b2n ((x.lastSeq.map fun q => p.seq % 2 ^ 16 != (q + 1) % 2 ^ 16).getD false)),
                     (kStream t 9, if first < ((s.time.sample / s.q * s.q : Nat) : Int) then 1 else 0)]))))))

/-- The next packet of a transmit stream (R343 to R345): none before its last sample is handed off, and none before
one that is due of a lower-numbered stream, and none beyond the outputs of the fade quantum (R502); then its samples
leave on the stream's port, or the packet is dropped and counted where the port's link is down, and the next window
follows. -/
def Claims.MediaTransmit : Prop :=
  ∀ (s : State) (t p port : Nat), t < 1024 → (s.strOut t).next = some p →
    let w := s.stream t
    let x := s.strOut t
    let n := packetOf (msPtime w) s.time.rate
    let first := ∀ e ∈ s.cfg.streams, e.1 < t → s.packetDue e.1 = false
    (s.time.handed < p + n ∨ ¬ first ∨ (s.run.st = .shutdown ∧ (s.run.fadeQ + 3) * s.q + 24 ≤ p) → exec (.mediaPacketTx t) s = .next s) ∧
    (s.chan.stopped = false → msEn w = true → msTx w = true → msPort w = port → port < 2 → p + n ≤ s.time.handed → first →
      (s.run.st = .shutdown → p < (s.run.fadeQ + 3) * s.q + 24) →
      let u := s.setStrOut t { x with samples := x.samples.filter fun e => p + n ≤ e.1, next := some (p + n),
                                      seq := (x.seq + 1) % 2 ^ 16 }
      let body := (List.range n).flatMap fun i => (List.range (msNch w)).flatMap fun c =>
        beBytes (msSize w) (tget 0 (tget [] x.samples (p + i)) c)
      let pkt : MediaPkt :=
        { dstIp := msDstIp w, srcIp := s.mportIp port, udpDst := msUdpDst w, udpSrc := msUdpSrc w,
          vid := if s.vlanEn port = true then some (s.vid port) else none, pt := msPt w, seq := x.seq,
          ts := (p + msRtp w) % 2 ^ 32, ssrc := msSsrc w, payload := body }
      exec (.mediaPacketTx t) s = .next
        (if s.mediaOn port = true then (u.emit (.media port (s.lanHdr port (s.mediaDscp port) (msDstIp w)) pkt)).count (kStream t 2) 1 else u.count (kStream t 8) 1))

/-- The links of a media port (R338, R345), its answers to ARP, ICMP echo and IGMP queries, its MAC address and tag
(R337; the DSCP of these answers is log entry 81), the stop of the streams after the fade (R21, R502), and the word
clock edges (R27, R350): from the first edge of a qualified source on, edges count its sample index. -/
def Claims.MediaPorts : Prop :=
  ∀ (s : State) (port : Nat),
    let follow (u : State) (src : Nat) : State :=
      if u.time.src = src ∧ u.time.st ≠ .holdover ∧ u.time.st ≠ .freeRun
      then { u with free := u.free + 1, time.freqOff := Config.freeFreq u.free } else u
    (port < 2 →
      (nth false s.port.mediaUp port = true →
        let u : State := { s with port.mediaUp := put s.port.mediaUp port false, port.synced := put s.port.synced port false }
        exec (.mediaLinkDown port) s = .next
          ((if s.run.st = .run then u.raise evMediaLinkState [] else u).sourceLost (port + 1))) ∧
      (s.ph0 = true → s.mportIp port ≠ 0 → s.chan.stopped = false →
        let rx := (s.cfg.streams.filter fun e => msOn e.2 port && !msTx e.2).map (·.1)
        ∃ t, exec (.mediaLinkUp port) s = .next t ∧ t.out = s.out ++ rx.map (s.igmpReport port true) ∧
          t.port = { s.port with mediaUp := put s.port.mediaUp port true } ∧ t = { s with port := t.port, out := t.out, chan.ins := t.chan.ins } ∧
          (∀ i, (t.strIn i).joined = ((s.strIn i).joined || rx.contains i)) ∧
          ∀ i, { t.strIn i with joined := false } = { s.strIn i with joined := false }) ∧
      (∀ (vid : Option Nat) (target sender : Nat) (payload : List Byte), s.mediaOn port = true →
        (s.vlanPass port vid = false → ∀ kind, exec (.arpIcmpRx port kind vid target sender payload) s = .next s) ∧
        (s.vlanPass port vid = true →
          exec (.arpIcmpRx port .arp vid target sender payload) s = .next
            (if target = s.mportIp port then s.emit (.arp port (s.lanHdr port 0 sender) sender) else s) ∧
          exec (.arpIcmpRx port .echo vid target sender payload) s = .next
            (if target = s.mportIp port then s.emit (.icmp port (s.lanHdr port 0 sender) sender payload) else s) ∧
          (s.chan.stopped = false → exec (.arpIcmpRx port .igmpQuery vid target sender payload) s = .next
            { s with out := s.out ++ (s.portStreams port).map (s.igmpReport port true) }))) ∧
      (∀ join t, let w := s.stream t
        s.igmpReport port join t =
          .igmp port (s.lanHdr port 0 (msGroup w port)) join (msGroup w port) (if msSsm w = true then some (msSrcIp w) else none)) ∧
      (∀ dscp ip, let h := s.lanHdr port dscp ip
        h.mac = fld (tget 0 s.nv.otp 1) 47 0 + port ∧ h.dscp = dscp ∧
          h.tag = (if s.vlanEn port = true then some (s.vid port, fld (s.mport port) 24 22) else none))) ∧
    (s.run.st ≠ .shutdown ∨ s.time.window < s.run.fadeQ ∨ (s.time.window = s.run.fadeQ ∧ s.time.windowOpen = true) →
      exec .mediaStreamStop s = .next s) ∧
    (s.run.st = .shutdown → s.chan.stopped = false →
      s.run.fadeQ < s.time.window ∨ (s.time.window = s.run.fadeQ ∧ s.time.windowOpen = false) →
      ∃ t, exec .mediaStreamStop s = .next t ∧ t.chan.stopped = true ∧ (∀ p ∈ t.chan.ins, p.2.joined = false) ∧
        ∀ m e, m < 2 → e ∈ s.cfg.streams → s.mediaOn m = true → msOn e.2 m = true → msTx e.2 = false →
          s.igmpReport m false e.1 ∈ t.out) ∧
    (port < 4 → s.saLit port = true → saWclk (s.sactl port) = true →
      (let counted : State := { s with
         port.saEdges := put s.port.saEdges port (nth 0 s.port.saEdges port + 1),
         port.edgeAt := put s.port.edgeAt port (some s.time.sample),
         port.saIdx := if port + 3 ∈ s.time.qual
           then put s.port.saIdx port (some (match nth none s.port.saIdx port with | some n => n + 1 | none => 0)) else s.port.saIdx }
       exec (.wordClockEdge port) s = .next (follow counted (port + 3))) ∧
      (saTx (s.sactl port) = true → s.time.counting = true → s.time.tick = 0 →
        exec (.wordClockOutput port) s = .next (s.emit (.wordClock port))))

/-- PTP on a media port (R339): Announce messages of the domain compete, and the grandmaster's one-step Sync, or its
two-step Sync with the Follow_Up, measures; one whose rate does not agree with fs is no qualified source (R43), and a
new one has no measurement yet. A measurement asks for the delay where the interval has gone by that the last
Delay_Resp set (before one, log entry 80). The frequency follows the source in use, and is held in HOLDOVER (R45). -/
def Claims.PtpMessages : Prop :=
  ∀ (s : State) (port : Nat) (m : PtpMsg), port < 2 → s.mediaOn port = true → m.domain = bf s.cfg.clocking.toNat 51 44 →
    (s.vlanPass port m.vid = false → exec (.ptpMessageRx port m) s = .next s) ∧ (s.vlanPass port m.vid = true →
    let cur := nth none s.port.gm port
    let best (new : Bool) : State :=
      let u : State := { s with port.gm := put s.port.gm port (some (m.gm, m.rank, m.rateCode)),
                                port.annAt := put s.port.annAt port (some s.time.sample), port.annLog := put s.port.annLog port m.logInt,
                                port.syncAt := if new = true then put s.port.syncAt port (some s.time.sample) else s.port.syncAt,
                                port.synced := if new = true then put s.port.synced port false else s.port.synced }
      if m.rateCode = s.time.rate then u else u.sourceLost (port + 1)
    let measured (s : State) : State :=
      let u := State.delayReq { s with port.synced := put s.port.synced port true,
                                       port.syncAt := put s.port.syncAt port (some s.time.sample) } port
      if s.time.src = port + 1 ∧ s.time.st ≠ .holdover ∧ s.time.st ≠ .freeRun then { u with free := u.free + 1, time.freqOff := Config.freeFreq u.free } else u
    (m.kind = .announce → exec (.ptpMessageRx port m) s = .next
      (match cur with
       | none => best true
       | some g => if g.1 = m.gm ∨ m.rank < g.2.1 then best (g.1 != m.gm) else s)) ∧
    (∀ g, cur = some g → g.1 = m.gm →
      (m.kind = .sync false → exec (.ptpMessageRx port m) s = .next (measured s)) ∧
      (m.kind = .sync true → exec (.ptpMessageRx port m) s = .next
        { s with port.twoStep := put s.port.twoStep port (some (m.seqId, m.rxTime)) }) ∧
      (m.kind = .followUp → ∀ r, nth none s.port.twoStep port = some (m.seqId, r) → exec (.ptpMessageRx port m) s = .next
        (measured { s with port.twoStep := put s.port.twoStep port none }))) ∧
    (∀ g, cur = some g → g.1 = m.gm → m.kind = .delayResp → exec (.ptpMessageRx port m) s = .next
      { s with port.reqLog := put s.port.reqLog port m.logInt }) ∧
    ((∀ g ∈ cur, g.1 ≠ m.gm) → m.kind ≠ .announce → exec (.ptpMessageRx port m) s = .next s)) ∧
    (let ask : State := State.emit { s with port.reqAt := put s.port.reqAt port (some s.time.sample) }
       (.ptpDelayReq port (s.lanHdr port (s.ptpDscp port) 0xE0000181))
     (nth none s.port.reqAt port = none → s.delayReq port = ask) ∧
     (∀ t, nth none s.port.reqAt port = some t → s.time.counting = true →
       s.delayReq port = if t + s.spanOf 1 (nth 0 s.port.reqLog port) ≤ s.time.sample then ask else s))

/-- MADI (R348, R349, R351): a frame gives every channel the sample of its period, a subframe with bad parity or not
active gives 0, and slips, parity errors and validity bits count; a frame leaves at tick 0 of its sample with what is
presented; a change of lock is reported. -/
def Claims.SerialAudio : Prop :=
  ∀ (s : State) (port : Nat), port < 4 → saMadi (s.sactl port) = true →
    let w := s.sactl port
    let used (subs : List MadiSub) := subs.take ((if flag w 28 = true then 64 else 56) / rateMul s.time.rate)
    let lock (b : Bool) : State := ({ s with port.saLock := put s.port.saLock port b } : State).raise evSaLockState []
    (∀ subs : List MadiSub, s.saLit port = true → nth false s.port.saLock port = true → s.chan.stopped = false →
      s.time.counting = true →
      let x := s.strIn (2048 + port)
      let row := (used subs).map fun b => if b.parityOk = true ∧ b.active = true then ux 24 b.value else 0
      let u := s.setIn (2048 + port) { x with samples := tput x.samples s.time.sample (some row) }
      let v := u.counts [(kSa port 0, if tfind x.samples s.time.sample = none then 0 else 1),
        (kSa port 1, ((used subs).filter fun b => !b.parityOk).length), (kSa port 2, ((used subs).filter (·.validity)).length)]
      exec (.madiFrameRx port subs) s = .next { v with port.saFrame := put s.port.saFrame port (some s.time.sample) }) ∧
    (s.saLit port = true → saTx w = true → s.time.counting = true → s.time.tick = 0 →
      (s.run.st = .shutdown ∧ (s.run.fadeQ + 3) * s.q + 24 ≤ s.time.sample → exec (.madiFrameTx port) s = .next s) ∧
      ((s.run.st = .shutdown → s.time.sample < (s.run.fadeQ + 3) * s.q + 24) →
      let x := s.strOut (2048 + port)
      let p := s.time.sample
      let row := (List.range ((if flag w 28 = true then 64 else 56) / rateMul s.time.rate)).map (tget 0 (tget [] x.samples p))
      exec (.madiFrameTx port) s = .next
        ((s.setStrOut (2048 + port) { x with samples := x.samples.filter fun e => p < e.1 }).emit
          (.madi port p (decide (p % 192 = 0)) (channelStatus s.time.rate) row)))) ∧
    (nth false s.port.saLock port = true → exec (.madiLockLost port) s = .next (lock false)) ∧
    (s.saLit port = true → nth false s.port.saLock port = false → exec (.madiLockGained port) s = .next (lock true))

/-- A tether stream's message (R385): its samples stand at their presentation indices, those of collected quanta
discarded. -/
def Claims.TetherReceive : Prop :=
  ∀ (s : State) (m : Msg), m.type = 0 → m.toUnit 3 = true → s.chan.stopped = false → s.ready m = true →
    let h := leAt m.payload 0 8
    let t := bf h 9 0
    let w := tget 0 s.cfg.tstreams t
    let size := fmtSize (tsFmt w)
    let rows := ((chunks (tsNch w * size) (m.payload.drop 8)).take (bf h 42 32)).map fun r => (chunks size r).map leNat
    2 ≤ s.qindex → tsEn w = true → tsTx w = false → ∃ n smp, n % 4 = m.qtag % 4 ∧ exec (.tetherStreamRx m) s = .next
        ((s.arrive m).setIn (1024 + t) { s.strIn (1024 + t) with samples := smp }) ∧
      ∀ j, let b := n * s.q + 2 * s.q + 24 + bf h 26 16
        tfind smp j = if b ≤ j ∧ j < b + rows.length ∧ s.time.sample / s.q * s.q ≤ j then some (nth [] rows (j - b))
          else tfind (s.strIn (1024 + t)).samples j

/-- A row piece at a flank (R127, R194, R196, R197, R235, R428): what discards it, each with its counter, in this
order; where the FIFO has no room it waits in the mesh; a piece of a row that is not whole waits; a whole row is
quantised and starts at its tiles, and values beyond its count are discarded; then the message's sync action follows.
A row that the channel stage can not have sent (log entry 65) is none. -/
def Claims.RowReceive : Prop :=
  ∀ (s : State) (m : Msg), m.type = 1 → m.toUnit 1 = true → s.ready m = true →
    (s.rowFits m = false → exec (.rowReceive m) s = .next s) ∧ (s.rowFits m = true →
    let a := m.unit
    let d := m.arg
    let x := s.arr a
    let l := x.desc d
    let h := leAt m.payload 0 16
    let k := m.payload.length - 16
    let u := s.arrive m
    let gone (c : Nat) : Prop := exec (.rowReceive m) s = .next (u.count (kArr a c) 1)
    let unknown := x.hasDesc d = false ∨ lcRole l = 1
    let stale := rhGen h ≠ tget 0 s.model.captured (s.descModel a d)
    let out := x.flankOut = true ∨ s.servedElsewhere 1 a = true ∨ s.tileServed (a, d) = false
    let mine (r : RowAsm) := r.desc = d ∧ rhSlot r.hdr = rhSlot h ∧ rhTpos r.hdr = rhTpos h
    (m.qtag ≠ s.qindex % 4 → gone 22) ∧
    (m.qtag = s.qindex % 4 →
      (rhPrio h ∈ s.sup.shed → gone 23) ∧
      (rhPrio h ∉ s.sup.shed →
        (unknown → gone 21) ∧
        (¬ unknown →
          (stale → gone 22) ∧
          (¬ stale →
            (out → gone 21) ∧
            (¬ out → 131072 < x.fifoBytes + k → m ∈ s.grid.mesh → exec (.rowReceive m) s =
              .next (State.count { s with free := s.free + 1 } (kArr a 19) (Config.freeCycles s.free))) ∧
            (¬ out → x.fifoBytes + k ≤ 131072 →
              (rowVals m.fmt (rhScale h) s.cfg.bcA (m.payload.drop 16) = none → gone 21) ∧
              (∀ vals, rowVals m.fmt (rhScale h) s.cfg.bcA (m.payload.drop 16) = some vals → ∀ (r : RowAsm) (bad : Nat),
                (x.asm = none ∧ r = ⟨d, h, [], 0, false⟩ ∧ bad = 0) ∨ (x.asm = some r ∧ mine r ∧ bad = 0) ∨
                  (∃ p, x.asm = some p ∧ ¬ mine p ∧ r = ⟨d, h, [], 0, false⟩ ∧ bad = if p.whole = true then 0 else 1) →
                let n := s.layerRows (s.tiles a d) (a, d)
                let all := r.vals ++ vals
                (r.whole = true → exec (.rowReceive m) s = .next ((u.count (kArr a 21) (bad + 1)).syncAction m)) ∧
                (r.whole = false → all.length < n → exec (.rowReceive m) s = .next
                  (((u.count (kArr a 21) bad).setArr a { x with asm := some { r with vals := all, bytes := r.bytes + k } }).syncAction
                    m)) ∧
                (r.whole = false → n ≤ all.length →
                  let v := u.count (kArr a 21) (bad + if n < all.length then 1 else 0)
                  let q := (v.setArr a { x with asm := some ⟨d, r.hdr, [], 0, true⟩ }).quantise a d (rhSlot h) (rhPrio h)
                    (r.bytes + k) (all.take n)
                  exec (.rowReceive m) s = .next ((q.2.startRow a d r.hdr q.1).syncAction m)))))))))

/-- The quantiser on a row that is not flat (R101, R103, R106, R108, R109): its scale, its codes, and what each policy
does with a misfit. -/
def Claims.RowQuantiser : Prop :=
  ∀ (s : State) (a d slot cls bytes : Nat) (vals : List Dy), s.ctrOk → cls < 4 →
    let l := (s.arr a).desc d
    let mx := (vals.map Dy.abs).foldl Dy.max ⟨0, 0⟩
    (∃ v ∈ vals, ∃ w ∈ vals, (w.add ⟨-v.man, v.exp⟩).man ≠ 0 ∧ vals.head? = some v) →
    let r := s.quantise a d slot cls bytes vals
    let lim : Nat := if qcSigned l = true then 127 else 255
    let sc := (s.rowPeak a d slot).sc16 (qcHead l).1 ((qcHead l).2 * lim)
    let fits (c : Nat) := vals.map fun v => code8 v c (qcSigned l)
    let sat (c : Nat) := ((fits c).filter (·.2)).length
    let misfit := qcSatFrac l * vals.length < sat sc * 256
    let two := mx.sc16 1 lim
    r.1.codes = (fits sc).map (·.1) ∧ r.1.scale = sc ∧ r.1.flat = false ∧ r.1.bytes = bytes ∧
      (misfit ∧ qcPolicy l = 1 → r.1.again = some ((fits two).map (·.1), two) ∧
        s.ctrAdd r.2 (kClass a d cls 0) (sat two) ∧ s.ctrAdd r.2 (kClass a d cls 1) (sat sc) ∧
        s.ctrAdd r.2 (kClass a d cls 2) 1) ∧
      (¬ (misfit ∧ qcPolicy l = 1) → r.1.again = none ∧ s.ctrAdd r.2 (kClass a d cls 0) (sat sc) ∧
        s.ctrAdd r.2 (kClass a d cls 3) (if misfit ∧ qcPolicy l = 2 then 1 else 0) ∧
        tfind (r.2.arr a).deferP (hKey d slot) =
          if misfit ∧ qcPolicy l = 2 then
            some (match tfind (s.arr a).deferP (hKey d slot) with
              | some c => scMax c (mx.sc16 1 1) | none => mx.sc16 1 1)
          else tfind (s.arr a).deferP (hKey d slot))

/-- The passes of an array (R109, R119, R124, R125): with room for its codes the row at the head of the FIFO has its
next pass latched, and a row whose first result is discarded begins again with its second codes. -/
def Claims.FlankPasses : Prop :=
  ∀ (s : State) (a ns : Nat) (j : RowJob) (rest : List RowJob), a < 48 →
    let x := s.arr a
    let l := x.desc j.desc
    let np := lgPasses l
    x.fifo = j :: rest → x.drain = [] → x.serves = true → s.obs.halting = false → s.draining = false → s.ctrOk →
    let latched (i : Instr) (j' : RowJob) (wait : Nat) : Prop :=
      ∃ t, exec i s = .next t ∧ s.onlyArr a t ∧
        t.arr a = { x with fifo := { j' with passes := j'.passes + 1 } :: rest, sel := lgPlane l, passes16 := x.passes16 + 1 } ∧
        s.ctrUp t (kArr a 0) ∧ s.ctrAdd t (kArr a 1) (if lgPlane l = x.sel then 0 else 1) ∧
        s.ctrAdd t (kArr a 20) (if s.sup.stretch = 0 then 0 else wait)
    (j.flat = false → j.passes < np → x.flying < 2 → latched (.passIssue a ns) j ns) ∧
    (2 ≤ x.flying → exec (.passIssue a ns) s = .next s) ∧
    (∀ codes scale, j.again = some (codes, scale) → np ≤ j.donePasses →
      latched (.rerunPass a)
        { j with codes := codes, scale := scale, again := none, rerun := true, passes := 0, group := 0, donePasses := 0,
                 conv := [], terms := none, wait := [] } 0)

/-- A column group of a pass that is not the row's last (R120 to R122): each of the tile's columns in the group adds
its nibble combine to its sum, every conversion of the group whose difference lies beyond the converter's range
counts, and no value leaves the flank. -/
def Claims.FlankConversions : Prop :=
  ∀ (s : State) (a g : Nat) (dev : List Int) (j : RowJob) (rest : List RowJob), a < 48 → g < 8 →
    let x := s.arr a
    let l := x.desc j.desc
    let rows := passCodes l j.codes j.donePasses
    let conv := s.groupCodes a j.desc g rows dev
    let col (c : Nat) := lgCol l + (passRows l j.donePasses).1 * lgC l + c
    let v (c : Nat) := x.column j.desc (lgPlane l) (col c) (sumN (rows.map (·.2))) (conv.map (·.1))
    let mine := (List.range (lgC l)).filter fun c => col c / 256 == g
    let clips (t : Nat) := ((List.range 532).filter fun k => k % 2 == t && (nth (0, false) conv k).2).length
    x.fifo = j :: rest → x.drain = [] → j.flat = false → j.donePasses < j.passes → j.group = g → j.donePasses + 1 < lgPasses l →
    s.holds (localAddr 1 a 0) = false → s.ctrOk →
    ∃ t j', exec (.flankGroupOut a g dev) s = .next t ∧ s.onlyArr a t ∧ (t.arr a).fifo = j' :: rest ∧
      j' = { j with conv := j'.conv, wait := j'.wait, group := (g + 1) % 8, donePasses := if g = 7 then j.donePasses + 1 else j.donePasses } ∧
      (∀ c, tget 0 j'.conv c = tget 0 j.conv c + if c ∈ mine then v c else 0) ∧
      s.ctrAdd t (kArr a (3 + 2 * g)) (clips 0) ∧ s.ctrAdd t (kArr a (4 + 2 * g)) (clips 1)

/-- A conversion (R118 to R120, R158): the difference of the integrated charge and that of 8 × rowsum, in LSBs of its
range code, with the conversion's departure (log entry 67), held to 12 bits; the reference cells take range code 7. -/
def Claims.Converters : Prop :=
  ∀ (s : State) (a d g k : Nat) (rows : List (Nat × Nat)) (dev : List Int), k < 532 →
    let r := if 528 ≤ k then 7 else (s.arr a).range d (k % 2)
    let diff : Int := (sumN (rows.map fun p => p.2 * (if k % 2 = 1
      then (s.levels a (lgPlane ((s.arr a).desc d)) p.1 (266 * g + k / 2)).1
      else (s.levels a (lgPlane ((s.arr a).desc d)) p.1 (266 * g + k / 2)).2)) : Int) - 8 * (sumN (rows.map (·.2)) : Int)
    let c := rndDiv 0 diff (2 ^ r) + nth 0 dev k
    nth (0, false) (s.groupCodes a d g rows dev) k = (max (-2048) (min c 2047), decide (c < -2048 ∨ 2047 < c))

/-- The sums of R122 and their correction (R111, R121, R132) in a column that no spare replaces: the weight's hi cell
counts sixteen times its lo cell, and the zero point, the gain and the offset act as the rule has it. -/
def Claims.ColumnArithmetic : Prop :=
  ∀ (x : Arr) (d pl c rowsum : Nat) (codes : List Int), x.spareOf pl c = none →
    (∀ q ∈ codes, -2048 ≤ q ∧ q ≤ 2047) →
    let n := fld (tget colReset (tget .reset x.recs pl).cols c) 7 3
    let code (i : Nat) := nth 0 codes i
    let value (q : Int) (curve : List Int) (r : Nat) : Int :=
      let k := (q + 2048).toNat / 64
      let step := (nth 0 curve (k + 1) - nth 0 curve k) * ((q + 2048) % 64)
      rndDiv 0 ((16 * q + nth 0 curve k + rndDiv 0 step 64) * 2 ^ r) 16
    x.column d pl c rowsum codes =
      16 * value (code (2 * (c % 256) + 1)) (tget [] x.curves (2 * n + 1)) (x.range d 1)
        + value (code (2 * (c % 256))) (tget [] x.curves (2 * n)) (x.range d 0) + 136 * (rowsum : Int)

/-- The partial sums of a row position at its joining flank (R138), and an adapter's terms (R171, R180): the sums that
are there pass stages 7 to 10, unless the flank is held at its message unit (R183); the terms cross the mesh to the
row that waits for them, or stand with the row in work, and what their arithmetic saturates or clamps counts on the
core that formed them. -/
def Claims.JoinsAndTerms : Prop :=
  ∀ (s : State) (a slot tpos : Nat), a < 48 →
    let x := s.arr a
    (∀ k j, x.joins.filter (fun p => p.1 / 1024 == slot * 65536 + tpos) = [(k, j)] →
      (s.holds (localAddr 1 a 0) = false → exec (.joinReduce a slot tpos) s = .next (s.reduce a k)) ∧
      (s.holds (localAddr 1 a 0) = true → exec (.joinReduce a slot tpos) s = .next s)) ∧
    (x.joins.filter (fun p => p.1 / 1024 == slot * 65536 + tpos) = [] → exec (.joinReduce a slot tpos) s = .next s) ∧
    (let mine (j : RowJob) : Bool :=
        !j.flat && x.adapting j.desc && j.terms.isNone && rhSlot j.hdr == slot && rhTpos j.hdr == tpos
      let run := Instr.adapterTermReceive a slot tpos
      (∀ j rest, x.late = j :: rest → mine j = true →
        exec run s = .next ((((s.setArr a { x with late := rest }).raisedOn (lpCore (x.desc j.desc)) (s.termsOf a j).2).termFlits a
          (x.desc j.desc)).adapted a j j.wait (some (s.termsOf a j).1))) ∧
      (∀ j rest, x.late.filter mine = [] → x.fifo = j :: rest → mine j = true →
        let ts := s.termsOf a j
        let u := ((s.setArr a { x with fifo := { j with terms := some ts.1, wait := [] } :: rest }).raisedOn (lpCore (x.desc j.desc))
          ts.2).termFlits a (x.desc j.desc)
        exec run s = .next (if j.wait = [] then u else u.adapted a j j.wait (some ts.1))) ∧
      ((x.late ++ x.fifo).filter mine = [] → exec run s = .next s))

/-- A tile's values with its adapter's terms (R171): each column's term is added, clamped to S32, and each clamp
counts. -/
def Claims.AdapterTerms : Prop :=
  ∀ (s : State) (a : Nat) (j : RowJob) (cols : List (Nat × Int)) (terms : List Int),
    let l := (s.arr a).desc j.desc
    let clamp (v : Int) : Int := max (-2 ^ 31) (min v (2 ^ 31 - 1))
    let sum (p : Nat × Int) : Int := p.2 + nth 0 terms p.1
    let n := (cols.filter fun p => decide (clamp (sum p) ≠ sum p)).length
    s.adapted a j cols (some terms) =
      (s.count (kDesc a j.desc 0) n).toStage6 a j.jArr j.jDesc j.hdr j.scale (cols.map fun p => (lcOut l + p.1, clamp (sum p)))

/-- The record nearest in d (R163): no record of the list is nearer, and of those equally near it has the highest
sequence. -/
def Claims.NearestRecord : Prop :=
  ∀ (s : State) (temp : Int) (passes : Nat) (l : List (Nat × CalRec)),
    (s.nearest temp passes l = none ↔ l = []) ∧
    ∀ r, s.nearest temp passes l = some r → r ∈ l.map (·.2) ∧
      ∀ q ∈ l.map (·.2), s.calDist temp passes r < s.calDist temp passes q ∨
        (s.calDist temp passes r = s.calDist temp passes q ∧ q.seq ≤ r.seq)

/-- The condition check, a calibration slice and the end of a calibration (R157, R160, R163 to R165): a plane in use
without a record puts an ONLINE array STALE and queues a calibration of its active planes; a slice counts its passes,
at most 250 and no more than are left; a calibration whose passes have run leaves the queue with a record written for
each of its planes whose weights read (R298), and a STALE array serves as ONLINE again. -/
def Claims.Calibration : Prop :=
  ∀ (s : State) (a : Nat), a < 48 →
    let x := s.arr a
    (∀ temp : Int, ∃ t, exec (.calConditionCheck a temp) s = .next t ∧ (t.arr a).temp = temp ∧ (t.arr a).passes16 = 0 ∧
      (∀ b, b ≠ a → t.arr b = s.arr b) ∧ t.cores = s.cores ∧ t.loft = s.loft ∧
      ((∀ p ∈ s.nv.calRecs, p.2.sound a = true) → t.nv.calRecs = s.nv.calRecs) ∧
      (x.st = .online → (∃ p ∈ s.activePlanes a, p < 16 ∧ s.points a p = []) →
        (t.arr a).st = .stale ∧ (t.arr a).calQ = x.calQ ++ [⟨s.activePlanes a, none, false⟩]) ∧
      (x.st = .stale → s.activePlanes a = [] → (t.arr a).st = .online ∧ (t.arr a).calQ = x.calQ) ∧
      (x.st ≠ .online → x.st ≠ .stale → (t.arr a).st = x.st ∧ (t.arr a).calQ = x.calQ)) ∧
    (∀ q rest, x.calQ = q :: rest →
      (∀ p, s.mayPass a = true → x.fifo = [] → (∀ r, x.asm = some r → r.whole = true) → s.ballast 1 = false →
        s.isolated (64 + a) = false → x.calDone < 64 * q.planes.length →
        let n := min p (min 250 (64 * q.planes.length - x.calDone))
        ∃ t, exec (.calSlice a p) s = .next t ∧ s.onlyArr a t ∧ (t.arr a).calDone = x.calDone + n ∧
          (t.arr a).passes16 = x.passes16 + n ∧ (t.arr a).calQ = x.calQ ∧ (s.ctrOk → s.ctrAdd t (kArr a 0) n ∧ s.ctrUp t (kArr a 24))) ∧
      (∀ meas curves, x.serves = true → 64 * q.planes.length ≤ x.calDone → q.cmd = none →
        ∃ t, exec (.calibrationComplete a meas curves) s = .next t ∧ (t.arr a).calQ = rest ∧ (t.arr a).calDone = 0 ∧
          (∀ b, b ≠ a → t.arr b = s.arr b) ∧ t.cores = s.cores ∧ t.loft = s.loft ∧
          (t.arr a).st = (if x.st = .stale ∧ s.run.st ≠ .maintenance then .online else x.st) ∧
          (t.arr a).curves = (if s.run.st = .maintenance ∧ curves.length = 64 then (List.range 64).zip curves else x.curves) ∧
          (t.arr a).breachCal = x.breachCal + (if q.breach = true then 1 else 0) ∧
          t.nv.calSeq ≤ s.nv.calSeq + q.planes.length ∧ (s.nv.dir = [] → t.nv.calSeq = s.nv.calSeq + q.planes.length))) ∧
    (x.calQ = [] → ∀ p meas curves, exec (.calSlice a p) s = .next s ∧ exec (.calibrationComplete a meas curves) s = .next s)

/-- Requests for column programs and spares (R152, R169, R170, R174): up to eight flagged columns wait for their
program; a flagged column that is over its bound after it, its tiles' adapters at their largest rank, waits for the
first free spare of its group, one that no column has left, and without one its tiles go to their stand-ins. -/
def Claims.RepairRequests : Prop :=
  ∀ (s : State) (a pl : Nat), a < 48 → pl < 16 →
    let x := s.arr a
    let asks (i : Instr) (r : ProgReq) : Prop := exec i s =
      .next (if r ∈ s.model.progs then s else { s with model.progs := s.model.progs ++ [r] })
    (∀ (cols : List Nat) (stuck : List StuckCell),
      let cs := (cols.filter (tget [] x.flagged pl).contains).take 8
      (cs ≠ [] → s.draining = false → asks (.columnProgram a pl cols stuck) ⟨a, pl, false, cs, stuck, none⟩) ∧
      (cs = [] ∨ s.draining = true → exec (.columnProgram a pl cols stuck) s = .next s)) ∧
    (∀ (col : Nat) (stuck : List StuckCell),
      let cst (e : Nat) := fld (tget colReset (tget .reset x.recs pl).cols e) 2 0
      let may := col ∈ tget [] x.flagged pl ∧ col ∈ tget [] x.spent pl ∧ s.draining = false ∧ cst (x.entryOf pl col) ≠ 3
      let tiles := x.descs.filter fun p => lgPlane p.2 == pl &&
        decide (lgCol p.2 ≤ col ∧ col < lgCol p.2 + lgFold p.2 * lgC p.2)
      let mine := s.model.progs.filter fun r => r.arr == a && r.plane == pl
      let used := (tget [] x.colmap pl).map (·.1) ++ (x.mapNext.filter fun p => p.1 == pl).map (fun p => p.2.1) ++
        mine.filterMap (·.spare) ++ (match x.prog with | some p => p.spare.toList | none => []) ++
        (List.range 64).filter fun k => decide (2 ≤ cst (2048 + k))
      let asked := (∃ r ∈ mine, r.spare ≠ none ∧ r.cols = [col]) ∨
        ∃ p, x.prog = some p ∧ p.spare ≠ none ∧ p.plane = pl ∧ p.cols = [col]
      (¬ may → exec (.spareRemap a pl col stuck) s = .next s) ∧
      (may →
        (∀ k, (List.range 8).find? (fun i => !used.contains (8 * (col / 256) + i)) = some k →
          (asked → exec (.spareRemap a pl col stuck) s = .next s) ∧
          (¬ asked → asks (.spareRemap a pl col stuck) ⟨a, pl, false, [col], stuck, some (8 * (col / 256) + k)⟩)) ∧
        ((∀ i < 8, 8 * (col / 256) + i ∈ used) →
          ∃ t, exec (.spareRemap a pl col stuck) s = .next t ∧ (t.arr a).st = x.st ∧
            (t.arr a).toStandin = (tiles.filter fun p => lpStandin p.2).map (·.1) ++ x.toStandin ∧
            (∀ b, b ≠ a → t.arr b = s.arr b))))

/-- Column programs (R149 to R152, R157, R160, R170, R174): a request starts at a boundary where the array may
program; it is refused where its weights do not read (R271), puts the array in PROGRAMMING, and one beyond 3,000
cycles makes the plane WORN instead; the capture writes every record of the plane anew, a spare is mapped only then,
and the array serves again at the next boundary. -/
def Claims.ColumnRepair : Prop :=
  ∀ (s : State) (a pl : Nat), a < 48 → pl < 16 →
    let x := s.arr a
    (∀ r : ProgReq, s.model.progs = [r] → r.whole = false →
      let go : State := { s with model.progs := [] }
      ((s.arr r.arr).st = .failed → s.startPrograms = go) ∧
      ((s.arr r.arr).st ≠ .failed → s.startPrograms = if s.mayProgram r.arr = true then go.startCols r else s)) ∧
    (∀ r : ProgReq, r.arr = a → r.plane = pl → r.whole = false →
      let es := match r.spare with | some k => r.cols.map fun _ => 2048 + k | none => r.cols.map (x.entryOf pl)
      let c := s.checkHeld a pl
      (c.1 = false → s.startCols r = c.2) ∧
      (c.1 = true → 3000 ≤ c.2.cycles a pl es → s.startCols r = { c.2 with nv.alloc := tput c.2.nv.alloc (16 * a + pl) (some 3) }) ∧
      (c.1 = true → c.2.cycles a pl es < 3000 → let t := s.startCols r
        (t.arr a).st = .programming ∧ (t.arr a).prog = some ⟨pl, r.cols, false, r.spare, false⟩ ∧ (t.arr a).fifo = [] ∧
          (∀ b, b ≠ a → t.arr b = s.arr b) ∧ t.cores = s.cores)) ∧
    (∀ (meas : CalMeas) (p : ProgJob), x.prog = some p → p.whole = false →
      (p.done = true → exec (.columnProgramDone a meas) s = .next s) ∧
      (p.done = false → ∃ t, exec (.columnProgramDone a meas) s = .next t ∧ (t.arr a).st = x.st ∧
        (t.arr a).prog = some { p with done := true } ∧ (∀ b, b ≠ a → t.arr b = s.arr b) ∧ t.cores = s.cores ∧
        (t.arr a).mapNext = (match p.spare with | some k => [(p.plane, k, nth 0 p.cols 0)] | none => []) ++ x.mapNext ∧
        t.nv.calSeq = s.nv.calSeq + (s.points a p.plane).length)) ∧
    (∀ p : ProgJob, x.prog = some p → p.whole = false →
      (p.done = false → s.leaveProgram a = s) ∧
      (p.done = true → ((s.leaveProgram a).arr a).st = .online ∧ ((s.leaveProgram a).arr a).prog = none ∧
        ∀ b, b ≠ a → (s.leaveProgram a).arr b = s.arr b))

/-- Plane programs (R149, R151, R152, R157, R271, R295): one of a pending switch or placement waits for its turn once
its blocks are sound; at its boundary the array enters PROGRAMMING with the plane PENDING, and a plane that would pass
3,000 cycles is WORN instead; the end of the program takes the plane off its switch's list, and at the next boundary
the array serves again unless another plane of an atomic switch follows on it. -/
def Claims.PlanePrograms : Prop :=
  ∀ (s : State) (a p : Nat), a < 48 → p < 16 →
    let x := s.arr a
    let follows (s : State) : Prop := ∃ w ∈ s.model.switches, w.atomic = true ∧ ∃ k ∈ w.todo, k.1 = a
    (∀ env,
      (s.switchFor a p = none ∨ s.draining = true → exec (.planeProgram a p env) s = .next s) ∧
      (∀ w, s.switchFor a p = some w → s.draining = false →
        let r : ProgReq := ⟨a, p, true, [], [], none⟩
        let c := s.checkPlane (some env) a (w.oldPlane a p) w.model w.gen
        (c.1 = false → exec (.planeProgram a p env) s = .next c.2) ∧
        (c.1 = true → exec (.planeProgram a p env) s =
          .next (if r ∈ c.2.model.progs then c.2 else { c.2 with model.progs := c.2.model.progs ++ [r] })) ∧
        (s.entOf w.model w.gen = none → c = (true, s)))) ∧
    (∀ w : Switch, s.switchFor a p = some w → s.model.progs = [⟨a, p, true, [], [], none⟩] → x.st ≠ .failed →
      s.startPrograms = if s.mayPlane w a p = true then State.startPlane { s with model.progs := [] } w a p else s) ∧
    (∀ w : Switch,
      (s.cycles a p ((x.planeCols p).map (·.1)) < 3000 → let t := s.startPlane w a p
        (t.arr a).st = .programming ∧ (t.arr a).prog = some ⟨p, [], true, none, false⟩ ∧
          (x.st ≠ .programming → (t.arr a).fifo = []) ∧ tget 0 t.nv.alloc (16 * a + p) = 1 ∧
          (∀ b, b ≠ a → t.arr b = s.arr b) ∧ t.model.switches = s.model.switches ∧ t.cores = s.cores ∧ t.loft = s.loft) ∧
      (3000 ≤ s.cycles a p ((x.planeCols p).map (·.1)) → tget 0 (s.startPlane w a p).nv.alloc (16 * a + p) = 3)) ∧
    (∀ (meas : CalMeas) (off : List StuckCell) (j : ProgJob), x.prog = some j → j.whole = true →
      (j.done = true → exec (.planeProgramDone a meas off) s = .next s) ∧
      (j.done = false → ∃ t, exec (.planeProgramDone a meas off) s = .next t ∧ (t.arr a).prog = some { j with done := true } ∧
        (t.arr a).st = x.st ∧ (∀ b, b ≠ a → t.arr b = s.arr b) ∧ t.cores = s.cores ∧ t.loft = s.loft ∧
        (s.switchFor a j.plane = none → t.model.switches = s.model.switches) ∧
        (∀ w, s.switchFor a j.plane = some w →
          ∃ v ∈ t.model.switches, v.model = w.model ∧ v.gen = w.gen ∧ v.todo = w.todo.filter (· != (a, j.plane))))) ∧
    (∀ j : ProgJob, x.prog = some j → j.whole = true → j.done = true →
      (follows s → s.leaveProgram a = s.setArr a { x with prog := none }) ∧
      (¬ follows s → ((s.leaveProgram a).arr a).st = .online ∧ ((s.leaveProgram a).arr a).prog = none ∧
        ∀ b, b ≠ a → (s.leaveProgram a).arr b = s.arr b))

/-- A switch over several engines (R297, R310): the holder with the lowest address collects the reports, and after the
last fixes the first quantum whose window opens at least 8 quanta from now; a holder whose part is ready takes the
index; a switch whose index has not come in time is abandoned. An engine whose address conflicts takes part in none.
-/
def Claims.SwitchReports : Prop :=
  ∀ (s : State) (w : Switch),
    let others := s.otherHolders w.model
    (s.fab.conflict = true → (∀ m g h, exec (.switchReadyReport m g h) s = .next s) ∧
      ∀ m g n, exec (.switchIndexReceive m g n) s = .next s) ∧
    (s.fab.conflict = false → s.model.switches.find? (fun v => v.model == w.model && v.gen == w.gen) = some w →
      (∀ holder, w.ready = false → holder ∈ others → (∀ a ∈ others, s.dev ≤ a) →
        let got := dedupN (holder :: w.reports)
        let n := max w.atQ s.switchIndex
        ((∀ a ∈ s.dev :: others, a ∈ got) → exec (.switchReadyReport w.model w.gen holder) s = .next
          ((others.foldl (fun s a => s.sendCtrl a 7 [w.model, w.gen, n]) s).putSwitch
            { w with reports := got, ready := true, atQ := n })) ∧
        ((∃ a ∈ s.dev :: others, a ∉ got) →
          exec (.switchReadyReport w.model w.gen holder) s = .next (s.putSwitch { w with reports := got }))) ∧
      (∀ n, w.todo = [] → exec (.switchIndexReceive w.model w.gen n) s = .next (s.putSwitch { w with ready := true, atQ := n })) ∧
      (∀ n, w.todo ≠ [] → exec (.switchIndexReceive w.model w.gen n) s = .next s)) ∧
    (s.switchOf w.model = some w → w.ready = false → others ≠ [] → s.isPlacement w = false →
      exec (.switchTimeout w.model) s = .next (s.abandon w)) ∧
    (let now := s.time.sample * 4096 + s.time.tick
     let n := s.switchIndex
     now + 8 * s.q * 4096 ≤ (n + 1) * s.q * 4096 ∧ ∀ m, now + 8 * s.q * 4096 ≤ (m + 1) * s.q * 4096 → n ≤ m)

/-- A reel's fill starts at the entry that it reaches while no more than its depth are outstanding (R23, R248, R249,
R252, R427), and the reel passes the entry; one whose blocks a peer holds asks it for them (R259); beyond the depth it
waits. -/
def Claims.ReelFillStarts : Prop :=
  ∀ (s : State) (k : Nat), k < 16 →
    let r := s.reel k
    let depth := if s.ballast 3 = true then 1 else r.d
    (depth < r.out.length ∨ s.draining = true → exec (.reelFillStart k) s = .next s) ∧
    (r.active = true → s.obs.halting = false → s.draining = false → r.out.length ≤ depth →
      (s.reelSeek 2048 r = none → exec (.reelFillStart k) s = .next s) ∧
      ∀ x, s.reelSeek 2048 r = some x →
        let e := x.entry x.pos
        let last := (reEn e = true ∧ reLast e = true) ∨ 1023 ≤ x.pos
        exec (.reelFillStart k) s = .next (((((s.setReel k { x with
          out := r.out ++ [⟨x.pos, x.quantum, false, false, false, r.late.contains x.pos⟩], late := r.late.filter (· != x.pos),
          pos := if last then 0 else x.pos + 1,
          quantum := if last then x.quantum + 1 else x.quantum }).traceBegin (176 + k)
            (x.bank % 2 * 1024 + x.pos) (reSector e))).releaseDue k).askPeer e)) ∧
    (let e := r.entry r.pos
     reEn e = true → rePin e = false →
      reCond e = false ∨ (s.windowOf r.quantum = true ∧ s.onStandin (reArr e) (reDesc e) = true) → s.reelSeek 2048 r = some r)

/-- The oldest fill completes (R250, R251, R257, R258): where every block expands and the length is the entry's, its
bytes stand in the loft's range of the entry and nowhere else, and the signal goes at once where the entry's window
has opened, or is held; else the fill fails, and is counted. A fill that was late tells its stalls. -/
def Claims.ReelFillCompletes : Prop :=
  ∀ (s : State) (k : Nat) (env : List (Nat × CellEnv)) (stalls : List Nat) (data : List Byte) (o : ReelOut), k < 16 →
    let r := s.reel k
    let e := r.entry o.entry
    let run := s.reelRun k e env data (reNsec e) 0 []
    let f := s.reelFill k e env data
    let u := if o.late = true then f.2.counts ((List.range 6).map fun i => (kSlice k (7 + i), nth 0 stalls i)) else f.2
    (run.2.1 = none → run.1.length = reUlen e → f = (none, run.2.2.reelWrite k e run.1)) ∧
    (∀ l, run.2.1 = some l → f.1 = some l) ∧
    (∀ (v : State) (bs : List Byte), let w := v.reelWrite k e bs
      (∀ j, j < reLoft e ∨ reLoft e + reUlen e ≤ j → rdByte w.loft.mem j = rdByte v.loft.mem j) ∧
      (∀ i, i < bs.length → i < reUlen e → rdByte w.loft.mem (reLoft e + i) = nth 0 bs i) ∧
      w = { v with loft.mem := w.loft.mem, cnt := w.cnt }) ∧
    (r.out.find? (fun o => !o.filled) = some o → s.obs.halting = false → s.sourceUp e = true →
      (f.1 = none →
        let v := u.setOut k (r.out.map fun x => if x = o then { x with filled := true, signalled := u.windowOf o.quantum } else x)
        exec (.reelFillComplete k env stalls data) s = .next
          ((if u.windowOf o.quantum = true then (v.syncOp 0 (reSync e) (reFillN e) .unit).count (kSlice k 3) 1 else v).traceCyc
            (176 + k) 1 (r.bank % 2 * 1024 + o.entry))) ∧
      (∀ l, f.1 = some l →
        exec (.reelFillComplete k env stalls data) s = .next
          ((((u.setOut k (r.out.map fun x => if x = o then { x with filled := true, failed := true } else x)).count (kSlice k 16)
            1).raise evReelFillFailed [(4, reModel e), (2, reLayer e), (1, rePart e), (4, l)]).traceCyc (176 + k) 2
            (r.bank % 2 * 1024 + o.entry)))) ∧
    (r.out.find? (fun o => !o.filled) = some o → s.obs.halting = true ∨ s.sourceUp e = false →
      exec (.reelFillComplete k env stalls data) s = .next s)

/-- Releases and late fills (R252, R257): a release adds to its counter, saturating, and frees outstanding entries
strictly in list order while their counters hold enough; a core that waits on a fill not yet signalled, started or
still to start in its pass, marks it late once. -/
def Claims.ReelReleases : Prop :=
  ∀ (s : State) (k : Nat),
    let r := s.reel k
    (∃ freed kept ctr, r.out = freed ++ kept ∧ s.releaseDue k = s.setReel k { r with out := kept, ctr := ctr } ∧
      (∀ c, tget 0 ctr c + sumN ((freed.filter fun o => reCtr (r.entry o.entry) == c).map fun o => reN (r.entry o.entry))
        = tget 0 r.ctr c) ∧
      ∀ o ∈ kept.head?, tget 0 ctr (reCtr (r.entry o.entry)) < reN (r.entry o.entry)) ∧
    (∀ m : Msg, m.type = 3 → m.toUnit 2 = true → s.ready m = true → m.unit = k →
      (m.arg % 16 ≠ 0 ∨ 16 ≤ m.sync →
        exec (.reelRelease m) s = .next ((s.arrive m).count (kRouter (sliceRouter k) 3) 1)) ∧
      (m.arg % 16 = 0 → m.sync < 16 → exec (.reelRelease m) s = .next (((s.arrive m).setReel k { r with
        ctr := tset 0 r.ctr m.sync (min (tget 0 r.ctr m.sync + m.arg / 16 % 65536) 65535) }).releaseDue k))) ∧
    (∀ core obj op n, k < 16 → core < 64 → (s.core core).run = .waitSync obj op n →
      let hit (x : ReelOut) : Bool := !x.signalled && reSync (r.entry x.entry) == obj
      let ahead (i : Nat) : Bool := s.willFill (r.entry i) && reSync (r.entry i) == obj
      (∀ o, r.out.find? hit = some o → o.late = true → exec (.reelLateNotify k core) s = .next s) ∧
      (∀ o, r.out.find? hit = some o → o.late = false → exec (.reelLateNotify k core) s = .next
        ((s.setReel k { r with out := r.out.map fun x => if x = o then { x with late := true } else x }).count (kSlice k 6) 1)) ∧
      (r.out.find? hit = none →
        (r.rest.find? ahead = none → exec (.reelLateNotify k core) s = .next s) ∧
        (∀ i, r.rest.find? ahead = some i → exec (.reelLateNotify k core) s = .next
          (if i ∈ r.late then s else (s.setReel k { r with late := r.late ++ [i] }).count (kSlice k 6) 1))))

/-- The life of a tether link (R301, R306 to R308, R319): trained, it exchanges versions and takes the highest that
both ends support; its neighbour's exchange brings it up where the ends agree, and holds it where they do not (or
where the mooring device of a cascade has an upstream neighbour: DESIGN CHOICE, log entry 56); a loss of signal or too
many uncorrectable codewords take it back to training. -/
def Claims.TetherLinks : Prop :=
  ∀ (s : State) (p : Nat), p < 8 →
    let x := s.port_ p
    (x.st = .training → s.tpOn p = true → exec (.linkTrained p) s = .next ((s.setLink p .negotiating).sendLink p 0 [0x20, 0x30])) ∧
    exec (.trainingTimeout p) s = .next s ∧
    (x.st ≠ .dark → x.st ≠ .training →
      exec (.linkLossOfSignal p) s = .next (s.setLink p (if s.tpOn p = true then .training else .dark))) ∧
    (x.st = .up → x.uncorr ≤ fld s.cfg.fabctl 91 84 → exec (.fecUncorrLimit p) s = .next s) ∧
    (x.st = .up → fld s.cfg.fabctl 91 84 < x.uncorr → exec (.fecUncorrLimit p) s = .next
        (let u := s.raise evTpLinkDegraded [(1, p)]
         u.setLink p (if u.tpOn p = true then .training else .dark))) ∧
    (x.st = .up → ∀ d, exec (.linkDelayMeasure p d) s = .next (s.setPort p { x with delay := d })) ∧
    (x.st = .negotiating →
      exec (.versionRetry p) s = .next (s.sendLink p 0 [0x20, 0x30]) ∧
      ∀ lo hi v, v = (if lo ≤ 0x30 ∧ 0x30 ≤ hi then 0x30 else if lo ≤ 0x21 ∧ 0x21 ≤ hi then 0x21
          else if lo ≤ 0x20 ∧ 0x20 ≤ hi then 0x20 else 0) →
        (v ≠ 0 → exec (.versionExchange p lo hi) s = .next
          (((s.setPort p { x with version := v, verFail := false }).setLink p .exchanging).sendLink p 1 s.ownExchange)) ∧
        (v = 0 → exec (.versionExchange p lo hi) s = .next
          (if x.verFail = true then s else (s.setPort p { x with verFail := true }).raise evTpVersionFail [(1, p)]))) ∧
    (∀ n : Neighbour,
      let y : Port := { x with uid := n.uid, addr := n.addr, cascade := n.cascade, bcA := n.bcA }
      let same := n.cascade = s.isCascade ∧ n.rate = s.time.rate ∧ n.quantum = s.time.quantum ∧
        ¬(s.isCascade = true ∧ s.isMooring = true ∧ p = 0)
      (x.st = .exchanging → same →
        exec (.neighbourExchange p n) s = .next (((s.setPort p y).takePosition p n).setLink p .up)) ∧
      (x.st = .exchanging → ¬ same → exec (.neighbourExchange p n) s = .next
        (let u := s.setPort p { y with held := true }
         if x.held = true then u else u.raise evFabNeighbourMismatch [(1, p)])) ∧
      (x.st = .up → same →
        exec (.neighbourExchange p n) s = .next ((s.setPort p y).takePosition p n).floodOwn.reroute) ∧
      (x.st = .up → ¬ same → exec (.neighbourExchange p n) s = .next
        (((s.setPort p y).raise evFabNeighbourMismatch [(1, p)]).linkDown p)))

/-- A change of a link's state (R306, R309): the port, its counts and its mark start anew, and the change is reported,
naming the port and its neighbour; a link already there stays. -/
def Claims.LinkStates : Prop :=
  ∀ (s : State) (p : Nat) (st : Link),
    let x := s.port_ p
    (x.st = st → s.setLink p st = s) ∧
    (x.st ≠ st → s.setLink p st =
      (((s.setPort p { x with st := st, held := false, uncorr := 0 }).raise evTpLinkState [(1, p), (2, x.addr.getD 0)]).floodOwn).reroute)

/-- Records, fabric time and re-map indices (R43, R309, R310, R319, R321 to R324): a newer record is kept and flooded
on, an older one is not; a record that expires goes; a TIME flit is taken on the root's route only, and not after 32
hops; an index received or fixed is kept for its boundary. While the address is in conflict neither fabric time nor an
index is taken. -/
def Claims.FabricRecords : Prop :=
  ∀ (s : State) (p : Nat), p < 8 →
    (∀ r : Lsr, s.isCascade = false → s.tpUp p = true → r.uid ≠ s.uid →
      ((∀ x, s.fab.lsrs.find? (fun x => x.uid == r.uid) = some x → x.seq < r.seq) →
        let u : State := { s with fab.lsrs := r :: s.fab.lsrs.filter fun x => x.uid != r.uid }
        let v : State := (s.upPorts.filter (· != p)).foldl (fun t q => t.sendLsr q r) u
        exec (.lsrReceive p r) s = .next (v.conflictCheck r).reroute) ∧
      (∀ x, s.fab.lsrs.find? (fun x => x.uid == r.uid) = some x → r.seq ≤ x.seq → exec (.lsrReceive p r) s = .next s)) ∧
    exec .lsrPeriodic s = .next s.floodOwn ∧
    (∀ uid, (∃ x ∈ s.fab.lsrs, x.uid = uid) → exec (.lsrExpiry uid) s = .next
      (State.reroute { s with fab.lsrs := s.fab.lsrs.filter fun x => x.uid != uid })) ∧
    (∀ (f : TimeFlit) (res : Nat), s.fab.conflict = true → exec (.timeFlitReceive p f res) s = .next s) ∧
    (∀ (f : TimeFlit) (res : Nat), s.fab.conflict = false → s.tpUp p = true → s.fab.root = some f.root →
      (s.rootPort = some p → f.hops < 32 →
        let delay := f.delay + (s.port_ p).delay
        let t : State := { s with time.fabTime := some { f with delay := delay }, time.fabAt := some s.time.sample }
        let u : State := if t.time.src = 7 ∧ t.time.st ≠ .holdover ∧ t.time.st ≠ .freeRun
          then { t with free := t.free + 1, time.freqOff := Config.freeFreq t.free } else t
        let v : State := if f.rate = s.time.rate then u else u.sourceLost 7
        exec (.timeFlitReceive p f res) s = .next ((s.upPorts.filter (· != p)).foldl
          (fun t q => t.sendTime q { f with hops := f.hops + 1, delay := delay + res }) v)) ∧
      (s.rootPort ≠ some p ∨ 32 ≤ f.hops → exec (.timeFlitReceive p f res) s = .next s)) ∧
    (∀ (f n : Nat) (ret : Bool), f < 4096 → s.fab.conflict = true → exec (.remapIndexReceive f n ret) s = .next s) ∧
    (∀ (f n : Nat) (ret : Bool), f < 4096 → s.fab.conflict = false →
      exec (.remapIndexReceive f n ret) s = .next { s with fab.remap := tput s.fab.remap f (some (n, ret)) }) ∧
    (∀ f d, f < 4096 → tfind s.fab.declaredAt f = some d → tfind s.fab.remap f = none →
      (d + 8 ≤ s.time.sample / s.q → exec (.remapSelfApply f) s = .next
        { s with fab.remap := tput s.fab.remap f (some (s.time.sample / s.q + 1, false)) }) ∧
      (s.time.sample / s.q < d + 8 → exec (.remapSelfApply f) s = .next s))

/-- Failures (R310, R320, R321, R323, R324): a watched peer three of whose heartbeats have not come is declared
failed, reported once, and the coordinator announces the index four quanta on; a heartbeat is noted, with its sender's
quality and the engines it serves for, and one that says not-serving makes its sender failed. -/
def Claims.PeerFailures : Prop :=
  ∀ (s : State) (a : Nat), a < 4096 → a ∈ s.watch →
    (3 ≤ tget 0 s.fab.missed a → exec (.peerDeclaredFailed a) s = .next (s.declare a)) ∧
    (tget 0 s.fab.missed a < 3 → exec (.peerDeclaredFailed a) s = .next s) ∧
    (a ∈ s.fab.failed → s.declare a = s) ∧
    (a ∉ s.fab.failed →
      let n := s.boundaryOn
      let u := ({ s with fab.failed := s.fab.failed ++ [a], fab.declaredAt := tput s.fab.declaredAt a (some n) } : State).raise
        evFabPeerFailed [(2, a)]
      s.declare a = if u.coordinator a = some u.dev then u.announce a (n + 4) false else u) ∧
    (∀ h : Heartbeat, s.fab.conflict = true → exec (.heartbeatReceive h) s = .next s) ∧
    (∀ h : Heartbeat, h.sender = a → s.fab.conflict = false →
      ∃ t, exec (.heartbeatReceive h) s = .next t ∧ a ∈ t.fab.heard ∧ (∀ b ∈ s.fab.heard, b ∈ t.fab.heard) ∧
        (h.notServing = true → a ∈ t.fab.failed) ∧
        (h.notServing = false → a ∈ s.fab.remapped → a ∉ t.fab.failed) ∧
        (a ∈ t.fab.servedBy ↔ s.dev ∈ h.servingFor) ∧
        (∀ r ∈ t.fab.lsrs, r.addr = some a → r.quality = h.quality) ∧ t.cores = s.cores ∧ t.arrs = s.arrs ∧ t.loft = s.loft)

/-- Messages that leave (R181, R304, R310, R323): a message to another engine leaves the mesh for the switch, to the
engine that the re-map in force names, or to its group; with the address in conflict it goes nowhere. -/
def Claims.FabricSends : Prop :=
  ∀ (s : State) (m : Msg), m.remote = true → m ∈ s.grid.mesh → s.ready m = true →
    let u := s.arrive m
    (s.fab.conflict = true → exec (.fabricMessageSend m) s = .next u) ∧
    (s.fab.conflict = false →
      (m.kind = 6 → exec (.fabricMessageSend m) s = .next (u.multicast m)) ∧
      (m.kind ≠ 6 → exec (.fabricMessageSend m) s = .next (u.unicast (msgToDev m (s.remapDev m))))) ∧
    (∀ p, s.routeTo m.dev = some p → m.dev ≠ s.dev → m.dev ∉ s.fab.remapped → (m.fmt ≠ 8 ∧ m.fmt ≠ 9) →
      let k := streamNo 0 false m.dev m.vc
      let v := s.pathVersion s.dev m.dev
      let fs := flitsOn m.dev s.dev m.vc false m.vc (msgGen m) (msgShard m v) (tget 0 s.fab.txSeq k) (msgBytes m)
      s.unicast m = ({ s with fab.txSeq := tset 0 s.fab.txSeq k ((tget 0 s.fab.txSeq k + fs.length) % 65536) } : State).putFlits p fs) ∧
    (s.routeTo m.dev = none → m.dev ≠ s.dev → s.unicast m = s.count (kSwitch 9) 1)

/-- A message as flits (R302, R304): the pieces carry its bytes in order, 240 each and the last one fewer where need
be, FIRST marks the first and LAST the last, SEQ rises by one modulo 65,536, and every header is sound. -/
def Claims.FlitsCarryMessages : Prop :=
  ∀ (dst src vc stream gen shard seq : Nat) (mc : Bool) (bs : List Byte), bs ≠ [] → vc < 3 → stream < 16 →
    (mc = true → dst < 256) →
    let fs := flitsOn dst src vc mc stream gen shard seq bs
    fs.flatMap (fun f => fit 0 f.plen f.payload) = bs ∧ fs.length = cdiv bs.length 240 ∧
    ∀ i f, fs[i]? = some f → f.sound = true ∧ f.ftype = 0 ∧ f.dst = dst % 4096 ∧ f.src = src % 4096 ∧ f.mc = mc ∧
      f.stream = stream ∧ f.seq = (seq + i) % 65536 ∧ f.shard = shard % 65536 ∧
      f.first = decide (i = 0) ∧ f.last = decide (i + 1 = fs.length)

/-- A flit received (R300 to R304, R310), with the symbol errors of its codewords: a codeword corrects up to 7, and
one with more is counted as uncorrectable; one whose header is not sound is dropped and counted; a unicast flit for
another engine is forwarded on its route, and one for this engine is reassembled. A link that is not up yet takes its
exchange alone. -/
def Claims.FlitsReceived : Prop :=
  ∀ (s : State) (p : Nat) (f : Flit) (fec : List Nat), p < 8 →
    let x := (s.port_ p).st
    let bad := (fec.filter fun e => decide (7 < e)).length
    let syms := sumN (fec.filter fun e => decide (e ≤ 7))
    let c := s.counts [(kTether p 0, syms), (kTether p 1, bad), (kTether p 4, 1)]
    let u := c.setPort p { s.port_ p with uncorr := (s.port_ p).uncorr + bad }
    (x = .dark ∨ x = .training → exec (.flitReceive p f fec) s = .next s) ∧
    (x = .negotiating ∨ x = .exchanging → f.sound = true → f.ftype ≠ 3 → exec (.flitReceive p f fec) s = .next u) ∧
    (x ≠ .dark → x ≠ .training → f.sound = false → exec (.flitReceive p f fec) s = .next (u.count (kTether p 2) 1)) ∧
    (x = .up → f.sound = true → f.ftype = 0 → f.mc = false →
      (f.dst ≠ s.dev → ∀ q, s.routeTo f.dst = some q →
        exec (.flitReceive p f fec) s = .next ((u.emit (.flit q f)).count (kTether q 3) 1)) ∧
      (f.dst = s.dev → s.fab.conflict = false → exec (.flitReceive p f fec) s = .next (u.reassemble f)) ∧
      (f.dst = s.dev → s.fab.conflict = true → exec (.flitReceive p f fec) s = .next u)) ∧
    (x = .up → f.sound = true → f.ftype = 1 → f.dst = s.dev →
      (f.ctrlSound = false → exec (.flitReceive p f fec) s = .next (u.count (kSwitch 0) 1)) ∧
      (f.ctrlSound = true → exec (.flitReceive p f fec) s = .next (u.ctrlSeq f)))

/-- Reassembly (R304): a flit in sequence adds its bytes, the last one completes the message, and a gap discards it.
-/
def Claims.Reassembly : Prop :=
  ∀ (s : State) (f : Flit),
    let k := streamNo f.src f.mc f.dst f.stream
    let piece := fit 0 f.plen f.payload
    let next (r : Tab Reasm) : State := { s with fab.rxSeq := tput s.fab.rxSeq k (some ((f.seq + 1) % 65536)), fab.reasm := r }
    (∀ q ∈ tfind s.fab.rxSeq k, q = f.seq) →
      (f.first = true → tfind s.fab.reasm k = none →
        (f.last = false → s.reassemble f = next (tput s.fab.reasm k (some ⟨piece, f.hdr, false⟩))) ∧
        (f.last = true → s.reassemble f = (next (tdel s.fab.reasm k)).msgDone f.hdr piece f.seq)) ∧
      (∀ r, f.first = false → tfind s.fab.reasm k = some r →
        (f.last = false → s.reassemble f = next (tput s.fab.reasm k (some { r with bytes := r.bytes ++ piece }))) ∧
        (f.last = true → r.bad = false → s.reassemble f = (next (tdel s.fab.reasm k)).msgDone r.hdr (r.bytes ++ piece) f.seq) ∧
        (f.last = true → r.bad = true → s.reassemble f = next (tdel s.fab.reasm k)))

/-- The host link and its resets (R332 to R336, R351): a link that comes up or goes down is reported where rate or
width change; what takes the rings to their reset values discards the completions held, counting each, but for those
of abandoned installations, which wait for the rings, and ends an installation from host memory; a hot reset and FLR
also void the spill region and stop host DMA until a ring is enabled; each training after the first is a retrain;
D3hot keeps the rings, and the return to D0 lets held completions go. -/
def Claims.HostLink : Prop :=
  ∀ (s : State),
    let linked (t : State) (up : Bool) (rate width : Nat) : State :=
      let u : State := { t with host.up := up, host.rate := rate, host.width := width }
      if t.host.rate = rate ∧ t.host.width = width then u else u.raise evHostLinkState [(1, rate), (1, width)]
    let r := s.hostReset
    (r.host.sq = .reset ∧ r.host.cq = .reset ∧ r.host.eq = .reset ∧ r.host.tq = .reset ∧ r.host.phase = true ∧ r.host.msix = [] ∧
      r.host.pba = [] ∧ r.host.neg = 0x12 ∧ r.host.d3 = false ∧ r.host.held = s.host.held.filter (·.status == 0x0B) ∧
      (s.ctrOk → s.ctrAdd r (kHost 3) (s.host.held.filter (·.status != 0x0B)).length)) ∧
    (∀ rate width, s.port.lit = true → nth false s.port.dark 0 = false → rate ∈ [8, 16, 32] → width ∈ [1, 2, 4] →
      exec (.hostLinkUp rate width) s = .next
        ((linked { s with host.trained := true } true rate width).count (kHost 0) (if s.host.trained = true then 1 else 0))) ∧
    (s.host.up = true →
      exec .hostLinkDown s = .next (linked r false 0 0).dmaStopped ∧
      exec .hostFlr s = .next (State.voidSpill { r.dmaStopped with host.dmaHeld := true }) ∧
      exec .hostD3hotEntry s = .next (State.dmaStopped { s with host.d3 := true })) ∧
    exec .hostHotReset s = .next (State.voidSpill { (linked r false 0 0).dmaStopped with host.dmaHeld := true }) ∧
    (s.host.d3 = true → exec .hostD0Return s = .next (State.flushHeld { s with host.d3 := false })) ∧
    (s.model.install = none → s.dmaStopped = s) ∧
    (∀ i, s.model.install = some i → i.cmd.src = .host → s.dmaStopped.host.owed = s.host.owed - 1 ∧
      s.dmaStopped.host.held = s.host.held ++ [⟨.host, i.cmd.tag, 0x0B, 0, 0, 0, i.cmd.irq, s.host.sq.head, []⟩]) ∧ s.voidSpill.host.spillN = 0 ∧ s.voidSpill.host.spillBase = 0

/-- Other accesses (R7, R333, R404, R405, R485): a 1 clears its bit of the event summary; the MSI-X table is written a
half entry at a time, a vector that is unmasked with its pending bit set is sent, and no other register changes; a bad
access is counted and does nothing; a peer's event record goes to this engine's event ring. -/
def Claims.HostRegisters : Prop :=
  ∀ (s : State) (v : DWord) (off : Nat),
    (∃ t, exec (.evtSummaryClear v) s = .next t ∧ t = { s with host.eqOvf := t.host.eqOvf, host.sev := t.host.sev } ∧
      t.host.eqOvf = (s.host.eqOvf && !v.getLsbD 7) ∧
      ∀ i, t.host.sev.testBit i = (s.host.sev.testBit i && !(decide (i < 4) && v.getLsbD i))) ∧
    (s.host.up = true → s.host.d3 = false → 0xF0000 ≤ off → off < 0xF0200 → off % 8 = 0 → ∃ t,
      exec (.registerWrite off v) s = .next t ∧ t = { s with host.msix := t.host.msix, host.pba := t.host.pba, out := t.out } ∧
      (let i := (off - 0xF0000) / 16
       (i ∈ s.host.pba → t.vecMasked i = false → t.out = s.out ++ [.msix i] ∧ t.host.pba = s.host.pba.filter (· != i)) ∧
       (i ∉ s.host.pba ∨ t.vecMasked i = true → t.out = s.out ∧ t.host.pba = s.host.pba)) ∧
      (∀ i, tget 0 t.host.msix i =
        if i ≠ (off - 0xF0000) / 16 then tget 0 s.host.msix i
        else if off % 16 = 0 then (tget 0 s.host.msix i).extractLsb' 64 64 ++ v
        else v ++ (tget 0 s.host.msix i).extractLsb' 0 64)) ∧
    (off < 0xF0000 ∨ 0xF0200 ≤ off ∨ off % 8 ≠ 0 → exec (.registerWrite off v) s = .next s) ∧
    (∀ size w, exec (.bar0BadAccess off size w) s = .next
      (if (size = 4 ∨ size = 8) ∧ off % size = 0 then s else s.count (kHost 4) 1)) ∧
    (∀ rec : List Byte, rec.length = 32 → ∀ e : EvRec, leBytes 8 e.ts ++ leBytes 8 e.word ++ e.payload = rec →
      e.ts < 2 ^ 64 → e.word < 2 ^ 64 → s.fab.conflict = false →
      exec (.eventForwardReceive rec) s = .next (s.postHost e))

/-- Host reads of BAR0 (R7, R333, R404, R405): an access that is not an aligned one of 4 or 8 bytes reads zero,
write-only registers read zero, eight bytes read as the two words of four do, and the identity, the submission ring's
head, the quantum index, the number of events, the pending bits of masked vectors and the clock's states are where the
registers' fields put them. -/
def Claims.HostReads : Prop :=
  ∀ (s : State),
    (∀ off size, ¬ ((size = 4 ∨ size = 8) ∧ off % size = 0) → s.bar0Read off size = 0) ∧
    (∀ off, off % 8 = 0 → s.bar0Read off 8 = s.bar0Read (off + 4) 4 * 2 ^ 32 + s.bar0Read off 4) ∧
    (∀ off size, 0x200 ≤ off → off < 0x220 → s.bar0Read off size = 0) ∧
    s.bar0Read 0 8 = idReg % 2 ^ 64 ∧ s.bar0Read 0x20 4 = s.qindex % 2 ^ 32 ∧
    s.bar0Read 0x220 8 = s.host.sq.head % 2 ^ 16 ∧ s.bar0Read 0x4C 4 = s.host.evCount % 2 ^ 32 ∧
    (∀ v < 32, (s.bar0Read 0xF8000 8).testBit v = s.host.pba.contains v) ∧
    (∀ v, s.msix v = if s.vecMasked v = true then { s with host.pba := if v ∈ s.host.pba then s.host.pba else v :: s.host.pba }
      else s.emit (.msix v)) ∧
    s.bar0Read 0x20 8 / 2 ^ 61 = runCode s.run.st ∧ s.bar0Read 0x38 4 / 2 ^ 29 = bridleCode s.time.st

/-- Doorbells (R404, R406, R407): with the ring enabled, a value within the ring becomes its tail or head; one beyond
it is reported; otherwise the write does nothing. -/
def Claims.Doorbells : Prop :=
  ∀ (s : State) (v : DWord),
    let n := fld v 15 0
    let bell (i : Instr) (r : Ring) (t : State) : Prop :=
      (s.host.up = true → s.host.d3 = false → r.en = true → n < 2 ^ r.log2n → exec i s = .next t) ∧
      (s.host.up = true → s.host.d3 = false → r.en = true → 2 ^ r.log2n ≤ n →
        exec i s = .next (s.raise evHostRingError [])) ∧
      (s.host.up = false ∨ s.host.d3 = true ∨ r.en = false → exec i s = .next s)
    bell (.sqTailWrite v) s.host.sq { s with host.sq.tail := n } ∧
    bell (.cqHeadWrite v) s.host.cq { s with host.cq.head := n } ∧
    bell (.eqHeadWrite v) s.host.eq { s with host.eq.head := n } ∧
    bell (.tqHeadWrite v) s.host.tq (State.moveTrace { s with host.tq.head := n })

/-- The rings' registers (R334, R404, R406, R407, R415): a configuration in range takes effect, one that enables a
ring resets its pointers and ends the stop of host DMA, and one out of range leaves the ring disabled and is reported;
a base is written only while its ring is disabled, bits [11:0] as zero. -/
def Claims.RingRegisters : Prop :=
  ∀ (s : State) (v : DWord), s.host.up = true → s.host.d3 = false →
    let log := fld v 3 0
    let en (hi : Nat) : Bool := flag v 63 && decide (4 ≤ log ∧ log ≤ hi)
    let new (r : Ring) (hi : Nat) : Ring :=
      { base := r.base, en := en hi, irqEn := flag v 62, vec := fld v 52 48, log2n := log,
        head := if en hi = true ∧ r.en = false then 0 else r.head, tail := if en hi = true ∧ r.en = false then 0 else r.tail }
    let told (hi : Nat) (t : State) : State := if flag v 63 = true ∧ (log < 4 ∨ hi < log) then t.raise evHostRingError [] else t
    let d : State := { s with host.dmaHeld := s.host.dmaHeld && !(flag v 63) }
    exec (.ringCfgWrite 0 v) s = .next (told 12 { d with
      host.sq := new s.host.sq 12, host.neg := if en 12 = true ∧ s.host.sq.en = false then 0x12 else s.host.neg }) ∧
    exec (.ringCfgWrite 1 v) s = .next (told 12 { d with
      host.cq := new s.host.cq 12, host.phase := s.host.phase || (en 12 && !s.host.cq.en) }).flushHeld ∧
    exec (.ringCfgWrite 2 v) s = .next (told 15 { d with host.eq := new s.host.eq 15 }) ∧
    exec (.ringCfgWrite 3 v) s = .next (told 15 { d with host.tq := new s.host.tq 15 }).moveTrace ∧
    (let base (r : Ring) : Ring := if r.en = true then r else { r with base := v &&& ~~~ 0xFFF#64 }
     exec (.ringBaseWrite 0 v) s = .next { s with host.sq := base s.host.sq } ∧
     exec (.ringBaseWrite 1 v) s = .next { s with host.cq := base s.host.cq } ∧
     exec (.ringBaseWrite 2 v) s = .next { s with host.eq := base s.host.eq } ∧
     exec (.ringBaseWrite 3 v) s = .next { s with host.tq := base s.host.tq })

/-- Fetching and checking (R406 to R411): a command is fetched only where the completion ring has room for every
completion owed; one whose CRC fails, whose opcode is unknown, or that fails a later check is completed with that
status, and one that passes is accepted; a command from a peer takes the same checks, and none comes while the address
is in conflict (R310). -/
def Claims.CommandChecks : Prop :=
  ∀ (s : State) (bytes data : List Byte), bytes.length = 64 →
    let judged (u : State) (c : Cmd) (t : State) : Prop :=
      (crc32c (bytes.take 60) ≠ leAt bytes 60 4 → t = u.refuseCmd c 0x01) ∧
      (crc32c (bytes.take 60) = leAt bytes 60 4 →
        (u.checkCmd c = some 0x02 → t = u.refuseCmd c 0x02) ∧
        (u.checkCmd c ≠ some 0x02 →
          (leAt bytes 56 4 ≠ 0 → t = u.refuseCmd c 0x03) ∧
          (leAt bytes 56 4 = 0 →
            (∀ st, u.checkCmd c = some st → t = u.refuseCmd c st) ∧
            (u.checkCmd c = none → c.fwd = false → t = u.acceptCmd c) ∧
            (u.checkCmd c = none → c.fwd = true → c.src = .host → c.dmaOk = true → t = u.relay c))))
    (∀ (lok dok : Bool), s.dmaOn = true → s.host.sq.en = true → s.host.cq.en = true → s.host.sq.head ≠ s.host.sq.tail →
      s.takes = true →
      let c := cmdOf .host bytes data lok dok
      let two := 0x20 ≤ s.host.neg ∧ (opRow c.opcode).any (·.long) = true
      let need := s.host.owed + s.host.held.length + if two then 2 else 1
      (s.host.cq.room < need → exec (.commandFetch bytes data lok dok) s = .next s) ∧
      (need ≤ s.host.cq.room → ∃ t, exec (.commandFetch bytes data lok dok) s = .next t ∧
        judged { s with host.sq.head := (s.host.sq.head + 1) % 2 ^ s.host.sq.log2n } c t)) ∧
    (s.fab.conflict = true → ∀ src, exec (.peerCommand src bytes data) s = .next s) ∧
    (∀ src, s.fab.conflict = false → data.length ≤ 8128 →
      let c := cmdOf (.peer src) bytes data true true
      s.takes = true ∨ (s.run.resetting ≠ none ∧ s.runBit ≠ 0 ∧ (c.opcode = 0x10 ∨ c.opcode = 0x11)) →
      (c.opcode ≠ 0x20 ∧ c.opcode ≠ 0x30) ∨ data ≠ [] → ∃ t, exec (.peerCommand src bytes data) s = .next t ∧ judged s c t)

/-- Completions (R335, R407, R409): with the ring enabled the 16 bytes stand at its tail with their CRC, the tail
moves on and the phase turns at the ring's end; while the ring is disabled they are held; while host DMA is stopped
they are lost and counted. -/
def Claims.Completions : Prop :=
  ∀ (s : State) (c : Cpl), c.dst = .host → c.kind = 0 → c.data = [] → c.irq = false → c.status ≠ 1 →
    let u : State := { s with host.owed := s.host.owed - 1 }
    let q := s.host.cq
    let w := c.tag % 65536 * 2 ^ 48 + c.status % 256 * 2 ^ 40 + (if s.host.phase = true then 2 ^ 39 else 0) + c.head % 65536 * 2 ^ 16
      + c.r1 % 65536
    let body := leBytes 8 w ++ leBytes 4 c.r0
    (s.dmaOn = false → s.postCpl c = u.count (kHost 3) 1) ∧
    (s.dmaOn = true → q.en = false → s.postCpl c = { u with host.held := s.host.held ++ [c] }) ∧
    (s.dmaOn = true → q.en = true → s.postCpl c = { u with
      out := s.out ++ [.hostWrite (q.base.toNat + 16 * q.tail) (body ++ leBytes 4 (crc32c body))],
      host.cq.tail := if q.tail + 1 = 2 ^ q.log2n then 0 else q.tail + 1,
      host.phase := s.host.phase != decide (q.tail + 1 = 2 ^ q.log2n) })

/-- Counters and the ripcord (R468, R473 to R476, R483): COUNTER_READ answers each number with its value, and a number
from 2^31 on with the ripcord's snapshot, which reads as zero until the first fire; CLEAR of a snapshot number clears
the snapshot only, and of a model's MODEL_SWITCH the count kept with the model's ID; an arm fires at its instant; the
fire keeps every counter as it stood before the fire itself is counted. -/
def Claims.CountersAndRipcord : Prop :=
  ∀ (s : State) (c : Cmd), let u := s.begun c
    (s.turn 0x50 c →
      let first := fld c.p3 63 32
      let k := fld c.p3 31 16
      ∃ (v : State) (ws : List Nat), exec (.counterRead c) s = .next (v.finish c 0 0 0 (ws.flatMap (leBytes 8))) ∧
        ws.length = k ∧ (∀ i < k, first + i < 4608 → timed (first + i) = false → nth 0 ws i = u.ctr (first + i)) ∧
        (∀ i < k, ∀ n, first + i = 2 ^ 31 + n → nth 0 ws i = u.snapshot n) ∧
        (c.p3.getLsbD 0 = false → v = { u with free := u.free + 1 }) ∧
        (c.p3.getLsbD 0 = true →
          (∀ n < 2 ^ 31, n < 0x400000 ∨ 0x401000 ≤ n ∨ n % 4 ≠ 1 → v.ctr n = if first ≤ n ∧ n < first + k then 0 else u.ctr n) ∧
          (∀ y < 1024, ∀ e, u.dirEnt y = some e → first ≤ kDir y 1 → kDir y 1 < first + k → tget 0 v.model.switchCnt e.model = 0) ∧
          ∀ n, v.snapshot n = if first ≤ 2 ^ 31 + n ∧ 2 ^ 31 + n < first + k then 0 else u.snapshot n)) ∧
    (State.reset.obs.snapN = none ∧ (s.obs.snapN = none → ∀ n, s.snapshot n = 0) ∧
      ∀ n < 4608, timed n = false → s.fire.snapshot n = s.ctr n) ∧
    (s.turn 0x51 c →
      let ts := c.p1.toNat
      let v : State := { u with
        obs.armed := some (if ts ≤ u.tstamp then u.phaseTick.tstamp else ts), obs.reqInstant := ts, obs.armer := u.dev }
      let told := if c.p2.getLsbD 0 = true then v.peersAll.foldl (fun s a => s.sendCtrl a 8 [ts, u.dev]) v else v
      exec (.ripcordArm c) s = .next (told.finish c 0 0 0 [])) ∧
    (s.obs.armed = none → exec .ripcordFire s = .next s) ∧
    (∀ ts, s.obs.armed = some ts → s.reaches ts = true → exec .ripcordFire s = .next (s.toTs ts).fire) ∧
    (∀ ts, s.obs.armed = some ts → s.reaches ts = false → exec .ripcordFire s = .next s) ∧
    (s.fab.conflict = true → ∀ ts src, exec (.ripcordBroadcastReceive ts src) s = .next s) ∧
    (s.fab.conflict = false → ∀ ts src, exec (.ripcordBroadcastReceive ts src) s =
      .next (if ts < s.tstamp then (s.arm ts src).fire else s.arm ts src)) ∧
    (s.fire.obs.armed = none ∧ s.fire.obs.firedInstant = s.tstamp ∧ s.fire.obs.snapClr = [] ∧ s.fire.obs.snapN = some s.free ∧
      (∀ n < 4608, tget 0 s.fire.obs.snap n = s.ctr n) ∧ (s.ctrOk → s.ctrUp s.fire (kEngine 20))) ∧
    (s.obs.captureOff = true → s.obs.copying = [] ∨ s.host.tq.en = false →
      exec .traceCopyDone s = .next (State.marker { s with obs.captureOff := false, obs.copying := [] } 4)) ∧
    (s.obs.captureOff = false ∨ (s.obs.copying ≠ [] ∧ s.host.tq.en = true) → exec .traceCopyDone s = .next s)

/-- The debug halt (R478, R479): at its instant every core stops; once the mesh is empty the stop points are taken and
the halt is reported. -/
def Claims.DebugHalts : Prop :=
  ∀ (s : State),
    (s.obs.haltAt = none → exec .debugHaltInstant s = .next s) ∧
    (∀ ts, s.obs.haltAt = some ts → s.reaches ts = false → exec .debugHaltInstant s = .next s) ∧
    (∀ ts, s.obs.haltAt = some ts → s.reaches ts = true → ∃ t, exec .debugHaltInstant s = .next t ∧
      t.obs.haltAt = none ∧ t.obs.halting = true ∧ (∀ k < 64, t.core k = { s.core k with halt := true }) ∧
      (∀ k, 64 ≤ k → t.core k = s.core k) ∧ t.arrs = s.arrs ∧ t.loft = s.loft ∧ t.grid = s.grid) ∧
    (let still := s.obs.halting = true ∧ s.obs.halted = false ∧ s.grid.mesh = [] ∧
        ∀ p ∈ s.cores, ∀ d ∈ p.2.dma, d.rd = false
     (¬ still → exec .debugHalted s = .next s) ∧
     (still → ∃ stops, exec .debugHalted s =
        .next (State.raise { s with free := s.free + 1, obs.halted := true, obs.stops := stops } evDebugHalted []) ∧
        (∀ k < 64, tget 0 stops k = s.gaugeTag k % 2 ^ 16 * 2 ^ 48 + (s.core k).idx % 2 ^ 16 * 2 ^ 32)))

/-- Tokens and transitions (R439 to R441, R445 to R447): a token refused is counted and changes nothing else of the
security state; one admitted moves the life cycle as its target says. -/
def Claims.Tokens : Prop :=
  ∀ (s : State) (c : Cmd), let u := s.begun c
    s.turn 0x61 c →
      let t := c.data
      let did (v : State) : State := (v.programSlot t).lcDone c
      (∀ code, u.checkToken t = .error code → ∃ v : State, exec (.lcTransition c) s = .next (v.finish c 0x38 code 0 []) ∧
        v.nv.otp = u.nv.otp ∧ v.nv.keys = u.nv.keys ∧ v.sec = u.sec ∧ (u.ctrOk → u.ctrUp v (kEngine 9))) ∧
      (∀ l, u.checkToken t = .ok l →
        (tkKind t = 1 → ∃ v : State, exec (.lcTransition c) s = .next (v.finish c 0 0 0 []) ∧
          v.nv.keys.present = true ∧ v.nv.keys.seq = bf (leAt t 24 8) 31 0 ∧
          v.nv.keys.endorsed = (l.filter fun k => !keGroup k.entry && !keOwner k.entry).map (·.entry) ∧
          (u.nv.keys.owner ≠ [] → v.nv.keys.owner = u.nv.keys.owner) ∧ v.nv.otp = u.nv.otp ∧ v.lc = u.lc) ∧
        (tkKind t = 0 →
          (tkTarget t = 1 → u.keyWords = 1 →
            exec (.lcTransition c) s = .next (did (State.freshRecord { u with sec.kek := true } 0))) ∧
          (tkTarget t = 1 → u.keyWords ≠ 1 →
            exec (.lcTransition c) s = .next { u with sec.lcCmd := some c, sec.keygen := true }) ∧
          (tkTarget t = 2 → u.lc ≠ 1 → exec (.lcTransition c) s = .next (did u.endHalt)) ∧
          (tkTarget t = 2 → u.lc = 1 → ∀ k rest, l = k :: rest →
            let v := u.otpProgAll 0x80 (dwords (keyDigest (keMod k.entry)))
            exec (.lcTransition c) s = .next (did (v.saveKeys
              { v.nv.keys with present := true, seq := v.nv.keys.seq + 1, owner := k.entry }))) ∧
          (tkTarget t = 3 → exec (.lcTransition c) s = .next (did u)) ∧
          (tkTarget t = 4 → exec (.lcTransition c) s = .next ((u.programSlot t).zeroise.lcDone c))))

/-- The life-cycle state is that of the highest transition slot written (R439): with the slots filled in order, a
transition's slot puts its target in force and counts as one slot more. -/
def Claims.LifeCycleFollowsSlots : Prop :=
  ∀ (s : State) (t : List Byte), s.slotsUsed < 64 →
    (∀ i < 64, s.otpDone (0x100 + 16 * i) = decide (i < s.slotsUsed) ∧ s.otpDone (0x108 + 16 * i) = decide (i < s.slotsUsed)) →
    tkTarget t < 5 → tkSigner t < 2 →
      (s.programSlot t).lc = tkTarget t ∧ (s.programSlot t).slotsUsed = s.slotsUsed + 1 ∧
      (s.programSlot t).lcTorn = false ∧ s.programSlot t = { s with nv.otp := (s.programSlot t).nv.otp,
                                                                     nv.otpDone := (s.programSlot t).nv.otpDone }

/-- Keys, attestation and entropy (R436, R440, R447, R448): a completed key generation makes the device keys and ends
provisioning; retirement leaves no key; a report carries the nonce and its digest, and a BLANK engine signs with
zeros. -/
def Claims.KeysAndAttestation : Prop :=
  ∀ (s : State) (c : Cmd), let u := s.begun c
    (s.turn 0x60 c → ∃ b : List Byte,
      (b.drop 32).take 32 = fit 0 32 (ofDwords [c.p3, c.p4, c.p5, c.p6]) ∧
      (u.lc = 0 → exec (.attest c) s =
        .next (u.finish c 0 0 0 (b ++ fit 0 64 (Config.sha512 b) ++ List.replicate 512 0))) ∧
      (u.lc ≠ 0 → exec (.attest c) s = .next ((u.count (kEngine 11) 1).finish c 0 0 0
        (b ++ fit 0 64 (Config.sha512 b) ++ fit 0 512 (Config.rsaSign u.devicePriv (b ++ fit 0 64 (Config.sha512 b))))))) ∧
    exec .entropyHealthFail s = .next (State.raise { s with sec.entropyOk := false } evSecEntropyFail []) ∧
    exec .entropyTestsPass s = .next { s with sec.entropyOk := true } ∧
    (∀ keys : List Byte, s.sec.lcCmd = none → exec (.lcKeygenComplete keys) s = .next s) ∧
    (∀ keys : List Byte, s.sec.lcCmd = some c → s.sec.keygen = true → keys.length = 1824 →
      (keysMatch (keys.take 512) (keys.drop 512) = false → exec (.lcKeygenComplete keys) s = .next s) ∧
      (keysMatch (keys.take 512) (keys.drop 512) = true →
        exec (.lcKeygenComplete keys) s = .next (((s.otpProgAll 0xB00 (dwords (keys.take 512))).otpProgAll 0x500
          (dwords (keys.drop 512))).provision c))) ∧
    ((s.provision c).sec.kek = true ∧ (s.provision c).sec.storeKey = true ∧ (s.provision c).sec.lcCmd = none ∧
      (s.provision c).nv.keys.present = true ∧ (s.provision c).nv.keys.groups = []) ∧
    (s.zeroise.sec.kek = false ∧ s.zeroise.sec.storeKey = false ∧ s.zeroise.nv.keys = .reset)

/-- Self-test slices (R402, R451 to R457, R460): what fails a march, an LBIST, a zero pass and a port; a slice that
passes is noted, one that fails is counted, reported and written to the health record at once; then the run goes on or
ends. -/
def Claims.SelfTestSlices : Prop :=
  ∀ (s : State),
    (s.test.kind = 0 → ∀ o, exec (.selftestSliceEnd o) s = .next s) ∧
    (s.test.kind ≠ 0 → s.test.cur = none → ∀ o, exec (.selftestSliceEnd o) s = .next s.startSlice.runEnd) ∧
    (s.test.kind ≠ 0 → ∀ u, s.test.cur = some u → ∀ o,
      (s.sliceFails u o = none → exec (.selftestSliceEnd o) s = .next (s.sliceDone true 0).startSlice.runEnd) ∧
      (∀ code, s.sliceFails u o = some (some code) →
        exec (.selftestSliceEnd o) s = .next (s.sliceDone false code).startSlice.runEnd) ∧
      (s.sliceFails u o = some none → ∃ code < 65536,
        exec (.selftestSliceEnd o) s = .next (State.sliceDone { s with free := s.free + 1 } false code).startSlice.runEnd)) ∧
    (∀ u o,
      (u / 256 = 0 ∨ u / 256 = 2 → (s.sliceFails u o = none ↔ ∀ r ∈ o.reads, r.2.1 = r.2.2)) ∧
      (u / 256 = 1 → (s.sliceFails u o = none ↔ o.misr % 2 ^ 64 = Config.misrGolden 1 % 2 ^ 64)) ∧
      (u / 256 = 4 → (∃ l ∈ o.zeros.take 16, ∃ v ∈ l, v < -16 ∨ 16 < v) → ∃ k < 532, s.sliceFails u o = some (some k)) ∧
      (u / 256 = 6 → (s.sliceFails u o = none ↔ ∀ p ∈ o.lanes, let r := portOptics (u % 256)
        r.1 ≤ p.1 ∧ p.1 ≤ r.2.1 ∧ (s.portLinkUp (u % 256) = true → p.2 ≤ r.2.2)))) ∧
    (s.test.cur = none → exec .sliceBudgetExpiry s = .next s) ∧
    (∀ u, s.test.cur = some u → exec .sliceBudgetExpiry s = .next (s.sliceDone false 0xFFFF).startSlice.runEnd) ∧
    (∀ u code, s.test.cur = some u →
      ((s.sliceDone true code).test = { (s.reinit u).test with
        cur := none, ran := (s.reinit u).test.ran + 1, ok := u :: (s.reinit u).test.ok,
        passed := u :: ((s.reinit u).test.passed.filter (· != u)) } ∧ (s.sliceDone true code).nv = (s.reinit u).nv) ∧
      ((s.sliceDone false code).test.bad = (s.reinit u).test.bad + 1 ∧ (s.sliceDone false code).test.cur = none ∧
        heState ((s.sliceDone false code).hEntry (blockOf u)) = 2)) ∧
    (∀ c, s.turn 0x41 c →
      let u := s.begun c
      let cl := bitsSet 7 (fld c.p1 63 57)
      let q := if c.p1.getLsbD 56 = true then cl.map fun k => 256 * k + fld c.p1 55 48 else slicesOf cl
      let v := u.beginRun 2 q (some c) (c.p1.getLsbD 47)
      exec (.bist c) s = .next (if v.test.cur = none ∧ v.test.queue = [] then v.bistDone else v)) ∧
    (let v : State := State.beginRun { s with run.shut := 3 } 1 (slicesOf (List.range 7)) none false
     (s.run.st = .shutdown → s.run.shut = 2 → s.run.resetting = none → (∀ c ∈ s.host.long, c.opcode ≠ 0x20) →
       exec .shutdownSelftestStart s = .next (if v.test.cur = none ∧ v.test.queue = [] then v.shutDone none else v)) ∧
     (s.run.st ≠ .shutdown ∨ s.run.shut ≠ 2 ∨ s.run.resetting ≠ none ∨ (∃ c ∈ s.host.long, c.opcode = 0x20) → exec .shutdownSelftestStart s = .next s)) ∧
    (s.test.kind = 1 → exec .shutdownSelftestLimit s =
      .next (s.dropRun.shutDone (some (s.test.queue.length + s.test.cur.toList.length)))) ∧
    (s.test.kind ≠ 1 → exec .shutdownSelftestLimit s = .next s) ∧
    (s.run.inRecovery = true → flag s.cfg.policy 60 = true →
      let v := (dedupN (s.test.queue.map blockOf)).foldl State.unverify s
      exec .recoveryBudgetExpiry s = .next (State.runEnd { v with test.budgetOver := true, test.queue := [] })) ∧
    (s.run.inRecovery = false ∨ flag s.cfg.policy 60 = false → exec .recoveryBudgetExpiry s = .next s)

/-- The health record and the lasers (R331, R459, R460): an entry's fields are where the record's layout puts them; a
failed array is written FAILED with its count one higher; a first laser fault darkens the chiplet for one retry, a
second keeps it dark. -/
def Claims.HealthAndLasers : Prop :=
  (∀ st cls cnt seq code, st < 4 → cls < 16 → cnt < 256 → seq < 2 ^ 32 → code < 2 ^ 16 →
    let e := mkHEntry st cls cnt seq code
    fld e 63 62 = st ∧ fld e 61 58 = cls ∧ fld e 57 50 = cnt ∧ fld e 47 16 = seq ∧ fld e 15 0 = code ∧ fld e 49 48 = 0) ∧
  ∀ (s : State),
    (∀ a < 48, (s.arr a).st = .failed → heState (s.hEntry (64 + a)) ≠ 2 →
      exec (.arrayFailRecord a) s = .next (State.failEntry { s with free := s.free + 1 } (64 + a) 14 (Config.freeCount s.free a % 65536))) ∧
    (∀ a < 48, (s.arr a).st ≠ .failed ∨ heState (s.hEntry (64 + a)) = 2 → exec (.arrayFailRecord a) s = .next s) ∧
    (∀ b cls code, cls < 16 → let t := s.failEntry b cls code
      (heState (t.hEntry b) = 2 ∧ fld (t.hEntry b) 61 58 = cls ∧ fld (t.hEntry b) 57 50 = min 255 (fld (s.hEntry b) 57 50 + 1) ∧
        t.nv.health.hseq = s.nv.health.hseq + 1 ∧ t.nv.health.clean = s.nv.health.clean) ∧
        (∀ d, d ≠ b → t.hEntry d = s.hEntry d)) ∧
    (∀ i < 4, s.port.lit = true → nth false s.port.dark i = false → ∀ within,
      let second := within && nth false s.port.faulted i
      let v := State.darken { s with port.faulted := put s.port.faulted i true, port.retry := put s.port.retry i (!second) } i
      exec (.portLaserFault i within) s = .next (if second = true then v.laserDead i else v)) ∧
    (∀ i < 4, s.port.lit = false ∨ nth false s.port.dark i = true → ∀ within, exec (.portLaserFault i within) s = .next s) ∧
    (∀ i < 4, nth false s.port.retry i = true →
      exec (.laserRetry i true) s =
        .next (State.relight { s with port.retry := put s.port.retry i false, port.dark := put s.port.dark i false }) ∧
      exec (.laserRetry i false) s = .next ((s.raise evPortLaserFault [(1, i)]).laserDead i)) ∧
    (∀ i < 4, nth false s.port.retry i = false → ∀ ok, exec (.laserRetry i ok) s = .next s) ∧
    (∀ i < 4, s.port.dead.length = 4 → s.port.retry.length = 4 →
      nth false (s.laserDead i).port.dead i = true ∧ nth false (s.laserDead i).port.retry i = false)

/-- Supply and the boot's beginning (R17, R24, R398, R401, R420): a rail out of limits takes the engine to OFF with
all volatile state lost, and the directory as far as a switch had written it (R296); good supplies start the boot,
once; a ROM whose digest fails halts dark; the boot runs steps 1 to 8 or waits in step 6 for its recovery slices. -/
def Claims.BootBegins : Prop :=
  ∀ (s : State),
    (s.run.st = .off → exec .supplyGood s = .next { s with run.st := .boot, run.step := 1, sup.good := true }) ∧
    (s.run.st ≠ .off → exec .supplyGood s = .next s) ∧
    (∀ rail < 7, ∀ reads, (s.run.st = .off → exec (.railTrip rail reads) s = .next s) ∧
      (s.run.st ≠ .off → ∃ t, exec (.railTrip rail reads) s = .next t ∧ t.run.st = .off ∧
        t = { State.reset with nv := t.nv, out := t.out, free := t.free, pending := s.pending } ∧
        t.nv = { s.nv with sectors := t.nv.sectors, intents := t.nv.intents, dir := s.undoWrites.nv.dir } ∧
        (s.store.banks = [] → s.model.unwritten = [] → t.nv = s.nv))) ∧
    (∀ vreq,
      (s.run.st ≠ .boot ∨ 1 < s.run.step ∨ s.run.dark = true →
        ∀ ok, exec (.bootSequence ok vreq) s = .next s) ∧
      (s.run.st = .boot → s.run.step ≤ 1 → s.run.dark = false →
        exec (.bootSequence false vreq) s = .next { s with run.step := 2, run.dark := true } ∧
        (let v := (s.bootRom vreq).bootStore.bootKeys.bootSpill.bootConfig.bootProtect.bootHealth
         exec (.bootSequence true vreq) s = .next (if v.run.unclean = true then
           (State.beginRun { v with run.inRecovery := true } 3 (slicesOf [0, 1, 2]) none false).runEnd else v.bootTail))))

/-- The boot's steps 2 to 7 (R366, R371, R379, R396, R419, R435, R438, R439, R459): what each leaves. Where no key
record verifies, a fresh one stands. -/
def Claims.BootSteps : Prop :=
  ∀ (s : State),
    (∀ vreq, let t := s.bootRom vreq
      t.run.step = 2 ∧ t.sec.kek = decide (s.lc = 1 ∨ s.lc = 2 ∨ s.lc = 3) ∧
      (s.run.warm = true → t.sup = s.sup) ∧
      (s.run.warm = false → 600 ≤ vreq → vreq ≤ 800 → vreq % 10 = 0 → t.sup.vreq = vreq ∧ t.sup.vref = vreq)) ∧
    (let t := s.bootStore
     t.run.step = 3 ∧ t.store = { StoreSt.reset with loaded := true, map := s.bootMap 0 ++ s.bootMap 1 } ∧ t.nv.sectors = s.nv.sectors ∧
       t.run.mapRebuilt = (s.run.mapRebuilt || !(s.ckptOf 0).isSome || !(s.ckptOf 1).isSome)) ∧
    (s.lc = 4 → s.bootKeys.nv.keys = .reset) ∧ (s.lc = 0 → s.bootKeys = s) ∧
    (s.lc = 1 ∨ s.lc = 2 ∨ s.lc = 3 → s.keyTaken = none → s.sec.entropyOk = true → let k := s.bootKeys.nv.keys
      k.present = true ∧ k.seq = 0 ∧ k.owner = [] ∧ k.endorsed = [] ∧ k.groups = [] ∧ s.bootKeys.sec.storeKey = true) ∧
    (s.selectSlot = none → s.bootConfig =
      { s with run.step := 4, run.cause := 1, time.rate := 1, time.quantum := 2 }) ∧
    (∀ slot fb, s.selectSlot = some (slot, fb) → let t := s.bootConfig
      t.run.slot = slot ∧ t.run.fallback = fb ∧ t.run.selected = true ∧
      (∀ c, checkRecord slot (s.slotRecord slot).1 = .ok c → t.cfg = c ∧ t.run.cfgOk = true ∧
        t.time.rate = fld c.clocking 63 61 ∧ t.time.quantum = fld c.clocking 60 58) ∧
      (∀ c n o, checkRecord slot (s.slotRecord slot).1 = .error (c, n, o) → t.run.cfgOk = s.run.cfgOk ∧
        t.run.cause = c ∧ t.run.errSect = n ∧ t.run.errOfs = o ∧ t.time.rate = 1 ∧ t.time.quantum = 2)) ∧
    (s.lc = 0 ∨ s.lc = 3 → s.bootProtect.store.protect = []) ∧
    (s.lc = 1 ∨ s.lc = 2 ∨ s.lc = 4 →
      s.bootProtect.store.protect = (s.cfg.protect.drop 1).map fun e => (fld e 63 40, fld e 39 16)) ∧
    (s.bootHealth.nv.health.clean = false ∧ s.bootHealth.nv.health.present = true ∧
      s.bootHealth.nv.health.blocks = s.bootRecord.blocks ∧ s.bootHealth.nv.health.hseq = s.bootRecord.hseq + 1 ∧
      s.bootHealth.run.unclean = !(s.bootRecord.present && s.bootRecord.clean))

/-- The boot's end (R17, R52, R399, R401, R461): steps 9 to 11 start after link training; a failed configuration ends
in MAINTENANCE; step 11 loads the placement that passes its checks, and else keeps none but the activations that
BOOT_ACT asked for (R501). A warm reset drains the engine, and its links go dark (R306). -/
def Claims.BootEnds : Prop :=
  ∀ (s : State),
    (s.run.st ≠ .boot ∨ s.run.step ≠ 8 → exec .linkTrainingEnd s = .next s) ∧
    (s.run.st = .boot → s.run.step = 8 →
      let u := (List.range 48).foldl State.loadArr { s with run.step := 11, run.s10 := true }
      (s.run.cfgOk = false → exec .linkTrainingEnd s =
        .next (State.postHeld { s with run.st := .maintenance, run.step := 12, run.result := 4, time.counting := true })) ∧
      (s.run.cfgOk = true →
        (∀ x, u.bestSrc = some x → exec .linkTrainingEnd s = .next (u.takeSrc x)) ∧
        (u.bestSrc = none → u.sources ≠ [] → exec .linkTrainingEnd s = .next u) ∧
        (u.bestSrc = none → u.sources = [] →
          exec .linkTrainingEnd s = .next { u with run.s9 := true, time.counting := true }))) ∧
    (s.run.st ≠ .boot ∨ s.run.s10 = false ∨ s.run.s11 = true → exec .fabricConvergence s = .next s) ∧
    (s.run.st = .boot → s.run.s10 = true → s.run.s11 = false →
      let u := s.takeAddress
      let end_ (t : State) : State := State.sayExcluded { t with run.s11 := true }
      let r := u.tryPlacement true
      (r.1 = true → exec .fabricConvergence s = .next (end_ r.2)) ∧
      (r.1 = false → exec .fabricConvergence s = .next (end_ { r.2 with
        run.cause := if u.fab.conflict = true then 5 else if u.fab.tooLong = true then 6 else 4 }))) ∧
    (s.run.resetting = none → exec .warmResetDrainDone s = .next s) ∧
    (s.run.resetting ≠ none → ∃ t, exec .warmResetDrainDone s = .next t ∧ t.run.st = .boot ∧ t.run.step = 1 ∧
      t.run.warm = true ∧ t.cores = State.reset.cores ∧ t.loft = State.reset.loft ∧ t.host = State.reset.host ∧
      t.sup.vref = s.sup.vref ∧ t.sup.dies = s.sup.dies ∧ s.ev.seq ≤ t.ev.seq ∧ t.nv.otp = s.nv.otp ∧ t.cnt = [] ∧
      ((∀ p < 8, (s.port_ p).st = .dark) → s.store.banks = [] → t.ev.seq = s.ev.seq))

/-- Rails and clock stretching (R419 to R422): a glitch is counted; V_REQ moves by one 10 mV step within its range; a
droop halves the clock until the hold has ended, then the two ramp steps follow; each loses the slots that its cycles
had no edge in. -/
def Claims.SupplyAndStretch : Prop :=
  ∀ (s : State),
    (∀ rail < 7, (s.sup.good = true → exec (.supplyGlitch rail) s = .next (s.count (kSupply (8 + rail)) 1)) ∧
      (s.sup.good = false → exec (.supplyGlitch rail) s = .next s)) ∧
    (∀ mV, let legal := s.sup.good = true ∧ 2 < s.run.step ∧ s.sup.vnext = none ∧ 600 ≤ mV ∧ mV ≤ 800 ∧
        (mV = s.sup.vref + 10 ∨ mV + 10 = s.sup.vref)
      (legal → exec (.vreqAnnounce mV) s =
        .next (State.raise { s with sup.vreq := mV, sup.vnext := some mV } evSupplyVreq [(2, mV)])) ∧
      (¬ legal → exec (.vreqAnnounce mV) s = .next s)) ∧
    (∀ mV, s.sup.vnext = some mV → exec .vreqApply s = .next { s with sup.vref := mV, sup.vnext := none }) ∧
    (s.sup.vnext = none → exec .vreqApply s = .next s) ∧
    (s.sup.good = false ∨ s.sup.stretch = 1 → exec .droopDetect s = .next s) ∧
    (s.sup.good = true → s.sup.stretch ≠ 1 → ∃ t n, exec .droopDetect s = .next (t.count (kSupply 0) 1) ∧ t.sup.stretch = 1 ∧
      n ≤ (if s.sup.stretch = 2 then 16 else if s.sup.stretch = 3 then 8 else 0) ∧
      (s.ctrOk → s.ctrAdd t (kSupply 1) n) ∧ t.cores = s.cores ∧ t.arrs = s.arrs ∧ t.time = s.time) ∧
    (∀ cycles, (s.sup.stretch = 1 → 64 ≤ cycles →
        exec (.stretchHoldEnd cycles) s = .next (State.loseSlots { s with sup.stretch := 2 } cycles)) ∧
      (s.sup.stretch ≠ 1 ∨ cycles < 64 → exec (.stretchHoldEnd cycles) s = .next s)) ∧
    (s.sup.stretch = 2 → exec .rampStepEnd s = .next (State.loseSlots { s with sup.stretch := 3 } 16)) ∧
    (s.sup.stretch = 3 → exec .rampStepEnd s = .next (State.loseSlots { s with sup.stretch := 0 } 8)) ∧
    (s.sup.stretch ≠ 2 → s.sup.stretch ≠ 3 → exec .rampStepEnd s = .next s) ∧
    (∀ n, let t := s.loseSlots n
      (s.ctrOk → s.ctrAdd t (kSupply 1) n) ∧ (s.time.windowOpen = false → t = s.count (kSupply 1) n) ∧
      (s.time.windowOpen = true → t.sup.lost = s.sup.lost + n ∧
        t.sup.storm = (s.sup.storm || decide (s.windowSlots < 16 * (s.sup.lost + n) * rateHz s.time.rate))))

/-- The ballast order (R423 to R426): a demand rises one enabled stage at a time when its quantity reaches the stage's
entry level, and falls one when it reaches the exit level; the stage in force is the highest of the three. -/
def Claims.BallastOrder : Prop :=
  ∀ (s : State),
    (∀ cause, let k := max s.sup.sag (max s.sup.tempD s.sup.power)
      (s.newStage cause).sup.stage = k ∧ (k = s.sup.stage → s.newStage cause = s) ∧
      (s.newStage cause).cores = s.cores ∧ (s.newStage cause).loft = s.loft) ∧
    (∀ j, (∀ k, s.stageUp j = some k → j < k ∧ k < 9 ∧ sgEn (s.stageWord k) = true ∧
        ∀ i, j < i → i < k → sgEn (s.stageWord i) = false) ∧
      (s.stageUp j = none → ∀ i, j < i → i < 9 → sgEn (s.stageWord i) = false)) ∧
    (∀ rail depth, rail < 7 → s.sup.good = true →
      let u : State := { s with sup.depths := tset 0 s.sup.depths rail depth }
      (s.stageUp s.sup.sag = none → exec (.sagDemandRise rail depth) s = .next u) ∧
      ∀ k, s.stageUp s.sup.sag = some k →
        (depth < sgVEnter (s.stageWord k) → exec (.sagDemandRise rail depth) s = .next u) ∧
        (sgVEnter (s.stageWord k) ≤ depth → exec (.sagDemandRise rail depth) s =
          .next ((State.count { u with sup.sag := k } (kSupply (16 + 3 * (k - 1))) 1).newStage 0))) ∧
    (∀ rail depth, rail < 7 → s.sup.good = false → exec (.sagDemandRise rail depth) s = .next s) ∧
    (s.sup.sag = 0 → exec .sagDemandFall s = .next s) ∧
    (s.sup.sag ≠ 0 → ∃ depths, exec .sagDemandFall s =
      .next (State.newStage { s with sup.sag := s.stageDown s.sup.sag, sup.depths := depths } 0)) ∧
    (∀ (x : Int) (r : List Int), s.sup.good = true →
      let hottest := r.foldl max x
      let u : State := { s with sup.dies := x :: r }
      let v := if theta ≤ hottest ∧ s.sup.therm = 0 then State.raise { u with sup.therm := 999 } evThermLimit []
        else { u with sup.therm := s.sup.therm - 1 }
      exec (.tempEvaluation (x :: r)) s = .next (v.tempStep hottest)) ∧
    (∀ t : Int,
      let up := (s.stageUp s.sup.tempD).filter fun k =>
        decide (theta - 16 * (sgTEnter (s.stageWord k) : Int) ≤ t)
      let w := s.stageWord s.sup.tempD
      (∀ k, up = some k → s.tempStep t =
        (State.count { s with sup.tempD := k } (kSupply (16 + 3 * (k - 1) + 1)) 1).newStage 1) ∧
      (up = none → s.sup.tempD ≠ 0 → t ≤ theta - 16 * (sgTEnter w : Int) - 16 * (sgTHyst w : Int) →
        s.tempStep t = State.newStage { s with sup.tempD := s.stageDown s.sup.tempD } 1) ∧
      (up = none → s.sup.tempD = 0 ∨ theta - 16 * (sgTEnter w : Int) - 16 * (sgTHyst w : Int) < t → s.tempStep t = s)) ∧
    (∀ power rails, s.sup.good = true → ∃ v : State, exec (.powerEvaluation power rails) s = .next (v.powerStep power) ∧
      v = { s with sup.pkg := power, sup.rails := v.sup.rails, sup.currents := v.sup.currents, sup.depths := v.sup.depths }) ∧
    (∀ p, (5800 < p →
        let u := State.count { s with sup.low := 0 } (kSupply 2) 1
        (u.stageUp s.sup.power = none → s.powerStep p = u) ∧
        ∀ k, u.stageUp s.sup.power = some k → s.powerStep p =
          (State.count { u with sup.power := k } (kSupply (16 + 3 * (k - 1) + 2)) 1).newStage 2) ∧
      (5200 ≤ p → p ≤ 5800 → s.powerStep p = { s with sup.low := 0 }) ∧
      (p < 5200 → s.sup.low < 9 → s.powerStep p = { s with sup.low := s.sup.low + 1 }) ∧
      (p < 5200 → 9 ≤ s.sup.low → s.sup.power ≠ 0 → s.powerStep p =
        State.newStage { s with sup.low := 0, sup.power := s.stageDown s.sup.power } 2) ∧
      (p < 5200 → 9 ≤ s.sup.low → s.sup.power = 0 → s.powerStep p = { s with sup.low := 0 }))

/-- Reads of the store (R352, R355, R358, R359, R364, R370): a read of a bank in a program step, or in an erase that
does not suspend itself, waits; else the answer by the sector's state; sound cells answer with their words; an
uncorrectable codeword is retried, and what stays so reads with POISON and leaves the sector POISONED. -/
def Claims.StoreReads : Prop :=
  ∀ (s : State) (l : Nat) (env : CellEnv), l < 16777216 →
    let e := s.ent l
    let x := s.sector e.phys
    let b := bankOf e.phys
    let reads (r : StoreRes) : Prop := ∃ t, exec (.storeRead l env) s = .next t ∧ t.store.last = r ∧ t.nv.sectors = s.nv.sectors
    (e.st = .unmapped → exec (.storeRead l env) s = .next { s with store.last := ⟨8, false, false, false, 0, []⟩ }) ∧
    (e.st = .retired → s.usersOf l = [] →
      exec (.storeRead l env) s = .next { s with store.last := ⟨5, false, false, true, 0, []⟩ }) ∧
    (e.st = .erased ∨ e.st = .erasing → exec (.storeRead l env) s = .next
      { s with store.last := ⟨0, false, false, false, 0, List.replicate 4096 255#8⟩ }) ∧
    (e.st = .written ∨ e.st = .refresh →
      ((s.bank b).job = none → s.readWaits l = false) ∧
      (∀ j, (s.bank b).job = some j → j.erase = false ∨ (j.suspended = false ∧ (s.run.st = .boot ∨ s.run.st = .off)) →
        s.readWaits l = true) ∧
      (s.readWaits l = true →
        exec (.storeRead l env) s = .next (s.setBank b { s.bank b with reads := (s.bank b).reads ++ [(l, env)] }))) ∧
    (e.st = .written ∨ e.st = .refresh → s.readWaits l = false →
      ((∀ c < 8, nth 0 env.errs c = 0) → reads ⟨0, x.isOpen, false, false, 0, x.bytes⟩) ∧
      ((∃ c < 8, x.isClosed c = true ∧ 40 < nth 0 env.errs c) →
        ((∀ c < 8, nth 0 env.retryErrs c = 0) → e.preq = false → (∀ c < 8, x.isClosed c = true) →
          reads ⟨0, false, true, false, 0, x.bytes⟩ ∧
          ∀ t, exec (.storeRead l env) s = .next t → (t.ent l).st = .refresh) ∧
        ((∃ c < 8, x.isClosed c = true ∧ 40 < nth 0 env.retryErrs c) → s.usersOf l = [] →
          ∃ t, exec (.storeRead l env) s = .next t ∧ t.store.last.status = 1 ∧ t.store.last.poison = true ∧
            (t.ent l).st = .poisoned ∧ t.nv.sectors = s.nv.sectors))) ∧
    (e.st = .written → exec (.patrolRead l env) s = exec (.storeRead l env) s) ∧
    (e.st ≠ .written → exec (.patrolRead l env) s = .next s) ∧
    (e.st = .written ∨ e.st = .refresh ∨ e.st = .poisoned →
      exec (.poisonReport l) s = .next (s.setEnt l { e with st := .poisoned, preq := true })) ∧
    (e.st ≠ .written → e.st ≠ .refresh → e.st ≠ .poisoned → exec (.poisonReport l) s = .next s)

/-- The map's journal (R367, R370): a checkpoint holds a stack's half of the map, leaves the stack's other checkpoint
as it is, and ends the journal that both contain; the map loaded at a boot is the newer checkpoint's with every later
commit; relocation, on an idle bank, moves a sector's words to a spare, commits the new mapping and erases the old
sector. -/
def Claims.StoreMap : Prop :=
  ∀ (s : State),
    (∀ t < 2, let q := tget 0 s.nv.jseq t
      let half := s.store.map.filter fun p => stackOf p.1 == t
      ∃ u i, exec (.checkpointWrite t) s = .next u ∧ i < 2 ∧ u.store = s.store ∧ u.nv.sectors = s.nv.sectors ∧
        tfind u.nv.ckpt (2 * t + i) = some (q, half) ∧ tfind u.nv.ckpt (2 * t + (1 - i)) = tfind s.nv.ckpt (2 * t + (1 - i)) ∧
        (s.ckptOf t = none → u.journalOf t = s.journalOf t) ∧
        (∀ c, s.ckptOf t = some c → u.journalOf t = (s.journalOf t).filter fun r => decide (c.1 < r.seq)) ∧
        ((∀ r ∈ s.journalOf t, r.seq ≤ q) → (∀ c, s.ckptOf t = some c → c.1 < q) → u.loadedMap t = half)) ∧
    (∀ l e, let t := stackOf l
      (∀ q m, s.ckptOf t = some (q, m) → q ≤ tget 0 s.nv.jseq t →
        (s.commit l e).loadedMap t =
          tput (s.loadedMap t) l (some ⟨e.phys, if e.st = .retired then .retired else .written, false⟩)) ∧
      ((s.commit l e).store.map = tput s.store.map l (some e) ∧ (∀ p, ((s.commit l e).sector p).words = (s.sector p).words))) ∧
    (∀ l env, l < 16777216 →
      let e := s.ent l
      let b := bankOf e.phys
      (e.st = .refresh ∨ (e.st = .written ∧ s.cold e.phys = true)) → s.storeDrained = false → s.isolated (128 + stackOf l) = false →
      ((s.bank b).job ≠ none ∨ (s.bank b).queue ≠ [] → exec (.relocation l env) s = .next s) ∧
      ((s.bank b).job = none → (s.bank b).queue = [] → (∀ c < 8, nth 0 env.errs c = 0) → s.pool b ≠ [] → e.phys ∉ s.pool b →
        ∃ t q j, exec (.relocation l env) s = .next t ∧ q ∈ s.pool b ∧ t.ent l = ⟨q, .written, false⟩ ∧
          (t.sector q).words = (s.sector e.phys).words ∧ (t.sector q).closed = (s.sector e.phys).closed ∧
          (t.bank b).job = some j ∧ j.erase = true ∧ j.logical = noLogical ∧ j.phys = e.phys)) ∧
    (∀ l env, l < 16777216 → (s.ent l).st ≠ .refresh → (s.ent l).st ≠ .written → exec (.relocation l env) s = .next s)

/-- Programs (R23, R357, R360, R371, R373): what is refused and why; an accepted request goes row by row and only
clears bits; a step that fails its verify retires the sector. -/
def Claims.StorePrograms : Prop :=
  ∀ (s : State) (l first : Nat) (data : List DWord) (clr seal_ : Bool) (by_ : Requester), l < 16777216 →
    let e := s.ent l
    let x := s.sector e.phys
    let b := bankOf e.phys
    let asked := Instr.storeProgramRequest l first data clr seal_ by_
    let ends (n : Nat) (t : State) : Prop := t.store.last = ⟨n, false, false, false, 0, []⟩ ∧ t.nv = s.nv
    (e.st = .unmapped → exec asked s = .next (s.answer 8)) ∧ (e.st = .retired → exec asked s = .next (s.answer 5)) ∧
    (e.st ≠ .unmapped → e.st ≠ .retired →
      (by_ = .outside → s.protected_ l = true →
        exec asked s = .next ((s.answer 4).count (kStack (stackOf l) 5) 1)) ∧
      (by_ ≠ .outside ∨ s.protected_ l = false → s.storeDrained = true → exec asked s = .next (s.answer 9)) ∧
      (by_ ≠ .outside ∨ s.protected_ l = false → s.storeDrained = false →
        (512 < first + data.length ∨ 512 ≤ first → exec asked s = .next (s.answer 8)) ∧
        (first + data.length ≤ 512 → first < 512 → (s.bank b).job ≠ none → exec asked s = .next (s.setBank b
          { s.bank b with queue := (s.bank b).queue ++ [⟨false, l, e.phys, first, data, seal_, clr, 0, false⟩] })) ∧
        (first + data.length ≤ 512 → first < 512 → (s.bank b).job = none → (s.bank b).queue = [] →
          let shut := ∃ i < data.length, x.isClosed ((first + i) / 64) = true
          let bad := ∃ i < data.length, x.word (first + i) ≠ ones64 ∧
            ¬ (clr = true ∧ nth 0 data i &&& x.word (first + i) = nth 0 data i)
          (shut → ∃ t, exec asked s = .next t ∧ ends 3 t) ∧ (¬ shut → bad → ∃ t, exec asked s = .next t ∧ ends 2 t) ∧
          (¬ shut → ¬ bad → data ≠ [] → ∃ t, exec asked s = .next t ∧ t.nv = s.nv ∧
            (t.bank b).job = some ⟨false, l, e.phys, first, data, seal_, clr, 0, false⟩)))) ∧
    (∀ i w, (x.prog i w).word i = x.word i &&& w ∧ ∀ j, j ≠ i → (x.prog i w).word j = x.word j) ∧
    (∀ k < 32, ∀ j, (s.bank k).job = some j → j.erase = false → (s.bank k).queue = [] → (s.bank k).reads = [] →
      (stepLen j < j.data.length → s.storeDrained = true → ∃ t, exec (.programStepComplete k true) s = .next t ∧
        t.sector j.phys = (s.sector j.phys).step j ∧ (t.bank k).job = none ∧ t.store.last.status = 9) ∧
      (j.data.length ≤ stepLen j → ∃ t, exec (.programStepComplete k true) s = .next t ∧ t.sector j.phys = (s.sector j.phys).step j ∧
        (t.bank k).job = none ∧ t.store.last.status = 0) ∧
      (stepLen j < j.data.length → s.storeDrained = false → ∃ t, exec (.programStepComplete k true) s = .next t ∧
        t.sector j.phys = (s.sector j.phys).step j ∧
        (t.bank k).job = some { j with first := j.first + stepLen j, data := j.data.drop (stepLen j) }) ∧
      (∃ t, exec (.programStepComplete k false) s = .next t ∧ (t.bank k).job = none ∧ t.store.last.status = 6 ∧
        t.nv.retiredList = s.nv.retiredList ++ [j.phys])) ∧
    (∀ k < 32, ∀ ok, (∀ j ∈ (s.bank k).job, j.erase = true) → exec (.programStepComplete k ok) s = .next s)

/-- Erases (R23, R363 to R365, R369): an erase starts with its intent record and the entry in ERASING; complete, the
sector is all ones with its count one higher and its record done; it fails, or has been erased 20,000 times, into
retirement. -/
def Claims.StoreErases : Prop :=
  ∀ (s : State) (l : Nat) (by_ : Requester), l < 16777216 →
    let e := s.ent l
    let b := bankOf e.phys
    let asked := Instr.storeEraseRequest l by_
    (e.st = .unmapped → exec asked s = .next (s.answer 8)) ∧ (e.st = .retired → exec asked s = .next (s.answer 5)) ∧
    (e.st ≠ .unmapped → e.st ≠ .retired →
      (by_ = .outside → s.protected_ l = true → exec asked s = .next ((s.answer 4).count (kStack (stackOf l) 5) 1)) ∧
      (by_ ≠ .outside ∨ s.protected_ l = false → s.storeDrained = true → exec asked s = .next (s.answer 9)) ∧
      (by_ ≠ .outside ∨ s.protected_ l = false → s.storeDrained = false →
        (e.st = .erased → exec asked s = .next (s.answer 0)) ∧ (e.st = .erasing → exec asked s = .next s) ∧
        (e.st ≠ .erased → e.st ≠ .erasing → l ≠ noLogical → (s.bank b).job = none → (s.bank b).queue = [] → e.phys < 16777216 →
          ∃ t j, exec asked s = .next t ∧ (t.bank b).job = some j ∧ j.erase = true ∧ j.phys = e.phys ∧ j.suspended = false ∧
            (t.ent l).st = .erasing ∧ t.nv.sectors = s.nv.sectors ∧
            ⟨j.intent, (s.sector e.phys).ecount, e.phys, l, false⟩ ∈ t.intentsOf (stackOf e.phys)))) ∧
    (∀ k < 32, ∀ j, (s.bank k).job = some j → j.erase = true → j.suspended = false → (s.bank k).queue = [] → (s.bank k).reads = [] →
      s.storeDrained = false →
      let p := j.phys
      let n := (s.sector p).ecount + 1
      (n < 20000 → j.logical ≠ noLogical → (∀ q ∈ s.pool (bankOf p), n ≤ (s.sector q).ecount + 2000) →
        ∃ t, exec (.eraseComplete k true) s = .next t ∧ t.sector p = (s.sector p).erase ∧ (t.bank k).job = none ∧
          t.ent j.logical = ⟨p, .erased, false⟩ ∧ t.store.last.status = 0 ∧
          ∀ r ∈ t.intentsOf (stackOf p), r.seq = j.intent → r.done = true) ∧
      (∃ t, exec (.eraseComplete k false) s = .next t ∧ t.nv.retiredList = s.nv.retiredList ++ [p] ∧ t.store.last.status = 7 ∧
        (t.bank k).job = none) ∧
      (20000 ≤ n → ∃ t, exec (.eraseComplete k true) s = .next t ∧ t.nv.retiredList = s.nv.retiredList ++ [p])) ∧
    (∀ k < 32, ∀ ok, (∀ j ∈ (s.bank k).job, j.erase = false ∨ j.suspended = true ∨ s.storeDrained = true) →
      exec (.eraseComplete k ok) s = .next s) ∧
    (∀ k < 32, ∀ j, (s.bank k).job = some j → j.erase = true → s.storeDrained = false →
      exec (.eraseResume k) s = .next (s.setBank k { s.bank k with job := some { j with suspended := false } })) ∧
    (∀ x : Sector, x.erase.ecount = x.ecount + 1 ∧ x.erase.bytes = List.replicate 4096 255#8 ∧ x.erase.isOpen = true)

/-- The quantum (R17, R25, R30, R31, R47): while sample time is counted, a boundary stands at the next multiple of the
quantum, after the deadline of a window still open; in RUN, MAINTENANCE and SHUTDOWN the next window opens on the
quantum before; the deadline comes two samples before the boundary and closes the window; otherwise nothing happens.
-/
def Claims.Quantum : Prop :=
  ∀ (s : State),
    (s.time.counting = false → exec .quantumBoundary s = .next s ∧ exec .deadline s = .next s) ∧
    (s.time.windowOpen = false → exec .deadline s = .next s) ∧
    (s.time.counting = true → s.time.windowOpen = true → ∃ t, exec .deadline s = .next t ∧ t.time.windowOpen = false ∧
      t.time.window = s.time.window ∧ (s.time.sample < s.nextBoundary - 2 → t.time.sample = s.nextBoundary - 2) ∧
      t.run.st = s.run.st ∧ t.cfg = s.cfg ∧
      exec .quantumBoundary s = .next t.boundary) ∧
    (s.time.counting = true → s.time.windowOpen = false → exec .quantumBoundary s = .next s.boundary) ∧
    (let t := s.boundary
     s.time.rephased = none → s.run.st = .run → s.run.pend = none → s.obs.resume = false → 0 < s.q →
       t.time.sample = (s.time.sample / s.q + 1) * s.q % 2 ^ 64 ∧ t.time.handed = (s.time.sample / s.q + 2) * s.q + 24 ∧ t.time.tick = 0 ∧ t.time.windowOpen = true ∧
       t.time.window = s.time.sample / s.q ∧ t.time.opened = true ∧ t.run.st = .run ∧ t.sup.lost = 0 ∧ t.sup.storm = false) ∧
    (s.run.st = .boot → (s.run.s9 && s.run.s10 && s.run.s11) = true → 0 < s.q →
      let run := s.cfg.startRun && s.run.placeOk && decide (s.lc ≠ 0)
      s.boundary.run.st = (if run = true then .run else .maintenance) ∧ s.boundary.run.step = 12 ∧
        s.boundary.run.result = (if s.lc = 0 then 3 else if s.run.placeOk = false then 5 else if run = true then 1 else 2))

/-- Run-state changes at a boundary (R17, R20, R21, R24, R412): RUN and MAINTENANCE take effect and complete their
command; SHUTDOWN begins its fade and ends the long commands; its fade over, the streams stop, the units and the store
drain, and each stack's half of the map is written to one of its two checkpoints (R367). -/
def Claims.RunStateChanges : Prop :=
  ∀ (s : State) (n : Nat),
    (s.run.pend = none → s.transition n = s) ∧
    (∀ t, s.run.pend = some t → (s.transition n).run.pend = none ∧
      (t = .run ∨ t = .maintenance ∨ t = .shutdown → (s.transition n).run.st = t) ∧
      (t = .run → (s.transition n).run.runQ = n) ∧
      (t = .shutdown → (s.transition n).run.shut = 1 ∧ (s.transition n).run.fadeQ = n) ∧
      (t = .run ∨ t = .maintenance → (s.transition n).run.pendCmd = none)) ∧
    (let past := s.run.fadeQ < s.time.window ∨ (s.time.window = s.run.fadeQ ∧ s.time.windowOpen = false)
     let v := (((s.streamStop.abandonWork true).drainStore).saveAdapters.checkpoint 0).checkpoint 1
     (s.run.st = .shutdown → s.run.shut = 1 → past → s.run.resetting = none → exec .shutdownFadeDone s = .next { v with run.shut := 2 } ∧
       ∀ t < 2, ∃ i < 2, tfind v.nv.ckpt (2 * t + i) = some (tget 0 v.nv.jseq t, v.store.map.filter fun p => stackOf p.1 == t)) ∧
     (s.run.st ≠ .shutdown ∨ s.run.shut ≠ 1 ∨ s.run.resetting ≠ none ∨ ¬ past → exec .shutdownFadeDone s = .next s))

/-- What the commands of a flank complete with (R118, R124, R125, R138, R163 to R165, R171, R180): a pass is latched,
a column group leaves its converters, the columns whose partial sums are there get their values, the terms reach the
row that waits for them, the condition is noted, a calibration goes on and ends. -/
def Claims.FlankCompletions : Prop :=
  ∀ (s : State) (a : Nat), a < 48 →
    let x := s.arr a
    (∀ (j : RowJob) (rest : List RowJob), x.fifo = j :: rest → x.drain = [] →
      (∀ ns, x.serves = true → s.obs.halting = false → s.draining = false → j.flat = false → j.passes < lgPasses (x.desc j.desc) →
        x.flying < 2 → ∃ t, exec (.passIssue a ns) s = .next t ∧ (t.arr a).fifo = { j with passes := j.passes + 1 } :: rest) ∧
      (∀ codes scale, x.serves = true → s.obs.halting = false → s.draining = false → j.again = some (codes, scale) →
        lgPasses (x.desc j.desc) ≤ j.donePasses →
          ∃ t j', exec (.rerunPass a) s = .next t ∧ (t.arr a).fifo = j' :: rest ∧ j'.codes = codes ∧ j'.scale = scale ∧ j'.passes = 1) ∧
      (∀ g dev, g < 8 → j.flat = false → j.donePasses < j.passes → j.group = g → j.donePasses + 1 < lgPasses (x.desc j.desc) →
        s.holds (localAddr 1 a 0) = false →
          ∃ t j', exec (.flankGroupOut a g dev) s = .next t ∧ (t.arr a).fifo = j' :: rest ∧ j'.group = (g + 1) % 8) ∧
      (∀ g dev, g < 8 → j.flat = false → j.donePasses < j.passes → j.group = g → s.holds (localAddr 1 a 0) = false →
        ∃ t, exec (.flankGroupOut a g dev) s = .next t) ∧
      (j.flat = false → x.adapting j.desc = true → j.terms = none →
        (∀ y ∈ x.late, rhSlot y.hdr ≠ rhSlot j.hdr ∨ rhTpos y.hdr ≠ rhTpos j.hdr) →
          ∃ t, exec (.adapterTermReceive a (rhSlot j.hdr) (rhTpos j.hdr)) s = .next t ∧
            (t.arr a).fifo = { j with terms := some (s.termsOf a j).1, wait := [] } :: rest)) ∧
    (∀ j rest, x.late = j :: rest → j.flat = false → x.adapting j.desc = true → j.terms = none →
      ∃ t, exec (.adapterTermReceive a (rhSlot j.hdr) (rhTpos j.hdr)) s = .next t ∧ (t.arr a).late = rest) ∧
    (∀ slot tpos k j, x.joins.filter (fun p => p.1 / 1024 == slot * 65536 + tpos) = [(k, j)] →
      s.holds (localAddr 1 a 0) = false → ∃ t, exec (.joinReduce a slot tpos) s = .next t ∧
        ∀ y, tfind (t.arr a).joins k = some y →
          ∀ p ∈ j.got, (if lcRole (x.desc (k % 1024)) = 2 then lcTiles (x.desc (k % 1024)) else 1) ≤ p.2.1 → (tfind y.z p.1).isSome = true) ∧
    (∀ temp, ∃ t, exec (.calConditionCheck a temp) s = .next t ∧ (t.arr a).temp = temp ∧ (t.arr a).passes16 = 0) ∧
    (∀ q rest, x.calQ = q :: rest →
      (∀ p, s.mayPass a = true → x.fifo = [] → (∀ r, x.asm = some r → r.whole = true) → s.ballast 1 = false → s.isolated (64 + a) = false →
        x.calDone < 64 * q.planes.length →
        ∃ t, exec (.calSlice a p) s = .next t ∧
          (t.arr a).calDone = x.calDone + min p (min 250 (64 * q.planes.length - x.calDone))) ∧
      (∀ meas curves, x.serves = true → 64 * q.planes.length ≤ x.calDone → q.cmd = none →
        ∃ t, exec (.calibrationComplete a meas curves) s = .next t ∧ (t.arr a).calQ = rest ∧ (t.arr a).calDone = 0 ∧
          (s.nv.dir = [] → t.nv.calSeq = s.nv.calSeq + q.planes.length)))

/-- What the commands that repair an array and train its adapters complete with (R149, R152, R169, R172 to R174): a
program asked for waits its turn, the capture ends it, a probe is saved, the adapter takes its step, a candidate that
is better becomes the next, and the adapters are written back. -/
def Claims.RepairCompletions : Prop :=
  ∀ (s : State) (a pl d : Nat), a < 48 → pl < 16 →
    let x := s.arr a
    let l := x.desc d
    let ad := tget .reset x.adapters d
    (∀ cols stuck, let cs := (cols.filter (tget [] x.flagged pl).contains).take 8
      cs ≠ [] → s.draining = false →
        ∃ t, exec (.columnProgram a pl cols stuck) s = .next t ∧ (⟨a, pl, false, cs, stuck, none⟩ : ProgReq) ∈ t.model.progs) ∧
    (∀ meas (p : ProgJob), x.prog = some p → p.done = false →
      (p.whole = false → ∃ t, exec (.columnProgramDone a meas) s = .next t ∧ (t.arr a).prog = some { p with done := true }) ∧
      (p.whole = true → ∀ off,
        ∃ t, exec (.planeProgramDone a meas off) s = .next t ∧ (t.arr a).prog = some { p with done := true })) ∧
    (∀ env w, s.switchFor a pl = some w → s.draining = false → (s.checkPlane (some env) a (w.oldPlane a pl) w.model w.gen).1 = true →
      ∃ t, exec (.planeProgram a pl env) s = .next t ∧ (⟨a, pl, true, [], [], none⟩ : ProgReq) ∈ t.model.progs) ∧
    (∀ col k stuck, let cst (e : Nat) := fld (tget colReset (tget .reset x.recs pl).cols e) 2 0
      col ∈ tget [] x.flagged pl → col ∈ tget [] x.spent pl → s.draining = false → cst (x.entryOf pl col) ≠ 3 →
      (∀ r ∈ s.model.progs, r.arr = a → r.plane = pl → r.spare = none) → x.prog = none →
      (List.range 8).find? (fun i => !((tget [] x.colmap pl).map (·.1) ++ (x.mapNext.filter fun p => p.1 == pl).map (fun p => p.2.1)
        ++ (List.range 64).filter fun k => decide (2 ≤ cst (2048 + k))).contains (8 * (col / 256) + i)) = some k →
        ∃ t, exec (.spareRemap a pl col stuck) s = .next t ∧
          (⟨a, pl, false, [col], stuck, some (8 * (col / 256) + k)⟩ : ProgReq) ∈ t.model.progs) ∧
    (∀ r, tfind x.lastRow d = some r → lpAdapt l = true → s.ballast 2 = false →
      (∀ q ∈ tfind x.probeAt d, q + lpProbe l ≤ s.qindex) →
      ∃ t, exec (.probeSave a d) s = .next t ∧ tfind (t.arr a).probeAt d = some s.qindex ∧
        (tget [] (t.arr a).probe d).getLast? = some r) ∧
    (∀ rows ga gb, lpAdapt l = true → s.ballast 2 = false → x.toLearn l ≠ [] → rows.length = 32 → rows.Nodup →
      (∀ i ∈ rows, 64 ≤ i ∧ i < (tget [] x.probe d).length) → (s.checkRef a d).1 = true →
      ∃ t, exec (.adapterTrainStep a d rows ga gb) s = .next t ∧
        (tget .reset (t.arr a).adapters d).steps = ad.steps + 1) ∧
    (∀ rank, let gen := tget 0 s.model.captured (s.descModel a d)
      let bf (l : List Nat) : List Nat := l.map fun m => (bf16Of s.cfg.bcA m).val
      let u := (s.checkRef a d).2
      let new := u.probeTerms a d rank (bf ad.ma) (bf ad.mb)
      let old := u.probeTerms a d ad.rank ad.a ad.b
      ad.steps ≠ 0 → ad.steps % 64 = 0 → lpAdapt l = true → ad.ofGen = gen → ad.ofSerial = ad.serial → (s.checkRef a d).1 = true →
      outCols l x.flagged ≠ [] → (∀ c ∈ outCols l x.flagged, probeError new.1 c < probeError old.1 c) →
      rank ≤ lpMax l → rank = 4 ∨ rank = 8 ∨ rank = 16 → rank = ad.rank ∨ rank = 2 * ad.rank ∨ (ad.rank = 0 ∧ rank = 4) →
        ∃ t, exec (.adapterCandidateEval a d rank) s = .next t ∧
          (tget .reset (t.arr a).adapters d).next = some (rank, bf ad.ma, bf ad.mb) ∧
          (tget .reset (t.arr a).adapters d).serial = (ad.serial + 1) % 65536) ∧
    ((∀ q ∈ s.nv.adapterQ, q + 65536 ≤ s.qindex) → ∃ t, exec .adapterWriteback s = .next t ∧ t.nv.adapterQ = some s.qindex)

/-- What the commands of a switch over several engines, of the reels and of the channel stage complete with (R64,
R196, R249, R251, R252, R257, R297). -/
def Claims.SwitchAndReelCompletions : Prop :=
  ∀ (s : State),
    (∀ w : Switch, s.fab.conflict = false → s.model.switches.find? (fun v => v.model == w.model && v.gen == w.gen) = some w →
      let others := s.otherHolders w.model
      (∀ holder, w.ready = false → holder ∈ others → (∀ a ∈ others, s.dev ≤ a) → (∀ a ∈ s.dev :: others, a ∈ holder :: w.reports) →
        ∃ t, exec (.switchReadyReport w.model w.gen holder) s = .next t ∧
          ∃ v ∈ t.model.switches, v.model = w.model ∧ v.gen = w.gen ∧ v.ready = true ∧ v.atQ = max w.atQ s.switchIndex) ∧
      (∀ n, w.todo = [] → ∃ t, exec (.switchIndexReceive w.model w.gen n) s = .next t ∧
        { w with ready := true, atQ := n } ∈ t.model.switches) ∧
      (s.switchOf w.model = some w → w.ready = false → others ≠ [] → s.isPlacement w = false →
        ∃ t, exec (.switchTimeout w.model) s = .next t ∧ ∀ v ∈ t.model.switches, v.model ≠ w.model ∨ v.gen ≠ w.gen)) ∧
    (∀ k, k < 16 → let r := s.reel k
      (∀ y, r.active = true → s.obs.halting = false → s.draining = false → r.out.length ≤ (if s.ballast 3 = true then 1 else r.d) →
        s.reelSeek 2048 r = some y → ∃ t, exec (.reelFillStart k) s = .next t ∧
          (t.reel k).pos = if (reEn (y.entry y.pos) = true ∧ reLast (y.entry y.pos) = true) ∨ 1023 ≤ y.pos then 0 else y.pos + 1) ∧
      (∀ o env stalls data, r.out.find? (fun o => !o.filled) = some o → s.obs.halting = false →
        s.sourceUp (r.entry o.entry) = true → (s.reelFill k (r.entry o.entry) env data).1 = none →
        ∃ t, exec (.reelFillComplete k env stalls data) s = .next t ∧
          (t.reel k).out = r.out.map fun x =>
            if x = o then { x with filled := true, signalled := (s.reelFill k (r.entry o.entry) env data).2.windowOf o.quantum } else x) ∧
      (∀ m : Msg, m.type = 3 → m.toUnit 2 = true → s.ready m = true → m.unit = k → m.arg % 16 = 0 → m.sync < 16 →
        ∃ t freed, exec (.reelRelease m) s = .next t ∧ r.out = freed ++ (t.reel k).out ∧
          tget 0 (t.reel k).ctr m.sync +
            sumN ((freed.filter fun o => reCtr (r.entry o.entry) == m.sync).map fun o => reN (r.entry o.entry))
              = min (tget 0 r.ctr m.sync + m.arg / 16 % 65536) 65535) ∧
      (∀ core obj op n o, core < 64 → (s.core core).run = .waitSync obj op n →
        r.out.find? (fun x => !x.signalled && reSync (r.entry x.entry) == obj) = some o → o.late = false →
          ∃ t, exec (.reelLateNotify k core) s = .next t ∧
            (t.reel k).out = r.out.map fun x => if x = o then { x with late := true } else x)) ∧
    (∀ m : Msg, m.type = 2 → s.ready m = true → m.toUnit 0 = false → m.remote = false → m.kind = 3 → m.qtag = s.qindex % 4 →
      s.time.windowOpen = true →
      let h := leAt m.payload 0 16
      let ws := exitForm s.cfg.bcA m.fmt (bf h 79 64) (m.payload.drop 16)
      ∃ t, exec (.resultDeliver m) s = .next t ∧
        ∀ i w, ws[i]? = some w → tfind (t.slot (bf h 127 116)).out (bf h 115 100 + bf h 63 48 + i) = some w.1)

/-- What the commands of the tether links and of the fabric complete with (R301, R304, R306 to R309, R319, R321 to
R324). -/
def Claims.LinkCompletions : Prop :=
  ∀ (s : State) (p : Nat), p < 8 →
    let x := s.port_ p
    let goes (i : Instr) (st : Link) : Prop := ∃ t, exec i s = .next t ∧ (t.port_ p).st = st
    (x.st = .training → s.tpOn p = true → goes (.linkTrained p) .negotiating) ∧
    (x.st ≠ .dark → x.st ≠ .training → goes (.linkLossOfSignal p) (if s.tpOn p = true then .training else .dark)) ∧
    (x.st = .up → fld s.cfg.fabctl 91 84 < x.uncorr → goes (.fecUncorrLimit p) (if s.tpOn p = true then .training else .dark)) ∧
    (x.st = .training → goes (.trainingTimeout p) .training) ∧
    (∀ lo hi, x.st = .negotiating → (lo ≤ 0x20 ∧ 0x20 ≤ hi) ∨ (lo ≤ 0x21 ∧ 0x21 ≤ hi) ∨ (lo ≤ 0x30 ∧ 0x30 ≤ hi) →
      goes (.versionExchange p lo hi) .exchanging) ∧
    (x.st = .negotiating → goes (.versionRetry p) .negotiating) ∧
    (∀ d, x.st = .up → ∃ t, exec (.linkDelayMeasure p d) s = .next t ∧ (t.port_ p).delay = d) ∧
    (∀ n : Neighbour, x.st = .exchanging ∨ x.st = .up → n.cascade = s.isCascade → n.rate = s.time.rate → n.quantum = s.time.quantum →
      ¬(s.isCascade = true ∧ s.isMooring = true ∧ p = 0) →
      ∃ t, exec (.neighbourExchange p n) s = .next t ∧ (t.port_ p).st = .up ∧ (t.port_ p).uid = n.uid) ∧
    (∀ r : Lsr, s.isCascade = false → s.tpUp p = true → r.uid ≠ s.uid → (∀ y, s.fab.lsrs.find? (fun y => y.uid == r.uid) = some y → y.seq < r.seq) →
      ∃ t, exec (.lsrReceive p r) s = .next t ∧ r ∈ t.fab.lsrs) ∧
    (s.isCascade = false → ∃ t, exec .lsrPeriodic s = .next t ∧ t.fab.lsrSeq = (s.fab.lsrSeq + 1) % 2 ^ 32) ∧
    (∀ uid, (∃ y ∈ s.fab.lsrs, y.uid = uid) → ∃ t, exec (.lsrExpiry uid) s = .next t ∧ ∀ y ∈ t.fab.lsrs, y.uid ≠ uid) ∧
    (∀ (f : TimeFlit) res, s.fab.conflict = false → s.tpUp p = true → s.fab.root = some f.root → s.rootPort = some p → f.hops < 32 →
      ∃ t, exec (.timeFlitReceive p f res) s = .next t ∧ t.time.fabTime = some { f with delay := f.delay + x.delay }) ∧
    (∀ f n ret, f < 4096 → s.fab.conflict = false →
      ∃ t, exec (.remapIndexReceive f n ret) s = .next t ∧ tfind t.fab.remap f = some (n, ret)) ∧
    (∀ f d, f < 4096 → tfind s.fab.declaredAt f = some d → tfind s.fab.remap f = none → d + 8 ≤ s.time.sample / s.q →
      ∃ t, exec (.remapSelfApply f) s = .next t ∧ tfind t.fab.remap f = some (s.time.sample / s.q + 1, false)) ∧
    (∀ h : Heartbeat, s.fab.conflict = false → ∃ t, exec (.heartbeatReceive h) s = .next t ∧ h.sender ∈ t.fab.heard) ∧
    (∀ b, b < 4096 → b ∈ s.watch → 3 ≤ tget 0 s.fab.missed b → ∃ t, exec (.peerDeclaredFailed b) s = .next t ∧ b ∈ t.fab.failed)

end Sys2Proof

open Sys2Proof Sys2Proof.Machine

/-- A step (the model's queue; log entry 5): the command at the front of the queue runs on the state with the queue's
rest, whatever it is. On an empty queue every core issues one instruction of its program (R207, R211), in ascending
number, and then sample time moves, where it is counted (R25, R28, R47): by one interpolator phase, tick 4,095 being
followed by tick 0 of the next sample, and never onto or past the next quantum boundary. Then the sources whose timing
has stayed away beyond its limit are lost (R43, R45), and the store banks that have fallen idle serve the reads that
wait (R352). -/
def Obligations.EngineStep : Prop :=
  (∀ (c : Instr) (rest : List Instr) (s : State),
    step (s.withPending (c :: rest)) = exec c (s.withPending rest)) ∧
  (∀ s : State, s.pending = [] → ∀ t, t = s.runCores →
    let after (u : State) := u.lapseSources.serveIdle
    (t.time.counting = false → step s = .next t.serveIdle) ∧
    (t.time.counting = true → t.time.tick + t.phaseTicks < 4096 →
      step s = .next (after { t with time.tick := t.time.tick + t.phaseTicks })) ∧
    (t.time.counting = true → 4096 ≤ t.time.tick + t.phaseTicks → t.time.sample + 1 < t.nextBoundary →
      step s = .next (after { t with time.tick := 0, time.sample := t.time.sample + 1 })) ∧
    (t.time.counting = true → 4096 ≤ t.time.tick + t.phaseTicks → t.nextBoundary ≤ t.time.sample + 1 → step s = .next (after t))) ∧
  (∀ s : State, s.cores = [] → s.runCores = s) ∧
  (∀ (s : State) (k : Nat), (s.core k).run = .late → s.runCore k = s.startCore k) ∧
  (∀ (s : State) (k : Nat) (i : Instr) (t : State), (s.core k).hasProg = true → s.runs k = true →
    Sys2Proof.decodeCoreWord k (tget 0 (s.core k).imem (s.core k).idx) = some i → exec i s = .next t → s.runCore k = t)

/-- The engine right after reset meets the invariants (R25, R423, R468): every byte memory in canonical form, no
counter beyond its width, the stage in force the highest demand, and the tick in range. -/
def Obligations.ResetInvariants : Prop :=
  State.reset.memWf = true ∧ State.reset.ctrOk ∧ State.reset.stageOk ∧ State.reset.time.tick < 4096 ∧
  State.reset.pending = [] ∧ State.reset.run.st = .off

/-- Every step keeps the byte memories, the loft's and the cores', in canonical form (R186, R244). -/
def Obligations.MemoryInvariant : Prop :=
  ∀ s t : State, s.memWf = true → step s = .next t → t.memWf = true

/-- Every step keeps every counter within 64 bits (R468). -/
def Obligations.CounterInvariant : Prop :=
  ∀ s t : State, s.ctrOk → step s = .next t → t.ctrOk

/-- Every step keeps the stage in force at the highest of the three demands (R423), and the tick within its sample
(R25). -/
def Obligations.StageAndTickInvariant : Prop :=
  (∀ s t : State, s.stageOk → step s = .next t → t.stageOk) ∧
  (∀ s t : State, s.time.tick < 4096 → step s = .next t → t.time.tick < 4096)

/-- A word of the OTP row that has been programmed keeps its value, and stays programmed, through every step (R374).
-/
def Obligations.OtpProgrammedOnce : Prop :=
  ∀ s t : State, step s = .next t → ∀ i, s.nv.otpDone.contains i = true →
    t.nv.otpDone.contains i = true ∧ tget 0 t.nv.otp i = tget 0 s.nv.otp i

/-- Scalar instructions between registers: `Claims.ScalarArithmetic`, `Claims.ScalarLogic`. -/
def Obligations.ScalarRegisterForms : Prop :=
  Claims.ScalarArithmetic ∧ Claims.ScalarLogic

/-- ADDI, ANDI, ORI, LUI, LLO and SCALEC (R220, R222). -/
def Obligations.ScalarImmediates : Prop :=
  ∀ (s : State) (k : Nat) (o : Ops23), s.issues k →
    let c := s.core k
    let a := c.sr (oSA o)
    let imm := oImm13 o
    Completes (.iAddi k o) s k
      (intFx c (oSD o) false (c.srI (oSA o) + if imm < 4096 then (imm : Int) else (imm : Int) - 8192)) ∧
    Completes (.iAndi k o) s k (wordFx c (oSD o) (a &&& imm)) ∧
    Completes (.iOri k o) s k (wordFx c (oSD o) (a ||| imm)) ∧
    Completes (.iLui k o) s k (wordFx c (oSD o) (oImm18 o * 16384)) ∧
    (oImm18 o < 16384 → Completes (.iLlo k o) s k (wordFx c (oSD o) (c.sr (oSD o) / 16384 * 16384 + oImm18 o))) ∧
    (fld o 9 8 ≠ 3 → (flag o 12 = true → fld o 7 0 = 0) → Completes (.iScalec k o) s k (wordFx c (oSD o)
      (Dy.sc16 (if flag o 12 then ⟨scMan (a % 65536), scExp (a % 65536) - 8⟩ else ⟨a, sx 8 (fld o 7 0)⟩)
        (nth 0 [4, 5, 6, 8] (fld o 11 10)) (4 * nth 0 [127, 255, 32767] (fld o 9 8)))))

/-- Scales and constants (R221): SCMAX writes the code of the larger value, a larger exponent winning and between
equal exponents a larger fraction; LUI and then LLO load any 32-bit constant. -/
def Obligations.ScalesAndConstants : Prop :=
  (∀ (s : State) (k : Nat) (o : Ops23), s.issues k → srOk o = true → Completes (.iScmax k o) s k
    (wordFx (s.core k) (oSD o) (scMax ((s.core k).sr (oSA o) % 65536) ((s.core k).sr (oSB o) % 65536)))) ∧
  (∀ a b, a < 65536 → b < 65536 →
    (scMax a b = a ∨ scMax a b = b) ∧ scUnits (scMax a b) = max (scUnits a) (scUnits b) ∧
    (scExp b < scExp a → scMax a b = a) ∧ (scExp a < scExp b → scMax a b = b) ∧
    (scExp a = scExp b → b % 256 < a % 256 → scMax a b = a) ∧ (scExp a = scExp b → a % 256 < b % 256 → scMax a b = b)) ∧
  (∀ (s t : State) (k : Nat) (o p : Ops23) (w : Nat), s.issues k → (s.core k).idx < 16383 → w < 2 ^ 32 → oSD o ≠ 0 →
    oSD p = oSD o → oImm18 o = w / 16384 → oImm18 p = w % 16384 → exec (.iLui k o) s = .next t →
      ∃ u, exec (.iLlo k p) t = .next u ∧ (u.core k).sr (oSD o) = w)

/-- `sc16_ceil` (R102): the smallest scale that is not below the exact value, and the largest scale where none is. -/
def Obligations.ScaleCeiling : Prop :=
  ∀ n d, 0 < d →
    sc16Ceil n d < 65536 ∧ (sc16Ceil n d = 0x7FFF ∨ n * 2 ^ 136 ≤ d * scUnits (sc16Ceil n d)) ∧
    (∀ c < 65536, n * 2 ^ 136 ≤ d * scUnits c → scUnits (sc16Ceil n d) ≤ scUnits c) ∧
    ((∀ c < 65536, d * scUnits c < n * 2 ^ 136) → sc16Ceil n d = 0x7FFF)

/-- Special registers and the register file: `Claims.SpecialRegisters`, `Claims.RegisterFile`. -/
def Obligations.CoreRegisters : Prop :=
  Claims.SpecialRegisters ∧ Claims.RegisterFile

/-- Vector lanes, their results and their conditions: `Claims.VectorLanes`, `Claims.IntegerLanes`,
`Claims.LaneConditions`. -/
def Obligations.VectorLanes : Prop :=
  Claims.VectorLanes ∧ Claims.IntegerLanes ∧ Claims.LaneConditions

/-- VRSUM, VRMAX, VAMAX and VQUANT (R92, R224, R226, R227): a scalar from the active lanes, and lanes coded at a
scale. -/
def Obligations.VectorReductions : Prop :=
  ∀ (s : State) (k : Nat) (o : Ops23), s.issues k →
    let c := s.core k
    let l := (c.vr (oVA o)).take c.vlen
    (vrOk ⟨false, true, false, true, true, false, true⟩ o = true →
      (oTY o = 0 → Completes (.iVrsum k o) s k (intFx c (oSS o) (oVMODW o) ((l.map (sx 32)).sum))) ∧
      (oTY o ≠ 0 → Completes (.iVrsum k o) s k (c.one (oSS o) (redSum s.bcA 1 (oVMODW o) l)))) ∧
    (vrOk ⟨false, true, false, true, true, false, false⟩ o = true →
      (oTY o = 0 → Completes (.iVrmax k o) s k (wordFx c (oSS o) (maxS32 l)) ∧
        Completes (.iVamax k o) s k (wordFx c (oSS o) (l.foldl (fun m x => max m (sx 32 x).natAbs) 0))) ∧
      (oTY o ≠ 0 →
        let xs := l.map (rd32 s.bcA)
        Completes (.iVrmax k o) s k (c.one (oSS o) (.fp xs (fpCode fp32 (maxFp xs), false))) ∧
        Completes (.iVamax k o) s k (c.one (oSS o)
          (.fp xs (fpCode fp32 (maxFp (xs.map fun x => { x with neg := false, val := x.val.abs })), false))))) ∧
    (vrOk ⟨true, true, true, true, true, false, false⟩ o = true → oVB o ≤ 1 →
      let r := (c.vr (oVA o)).map (quantLane s.bcA (oTY o) (c.sr (oSS o) % 65536) (if oVB o = 0 then 127 else 32767))
      let hits := ((r.take c.vlen).filter (·.2)).length
      let xs := if oTY o = 0 then [] else l.map (rd32 s.bcA)
      ∃ t, exec (.iVquant k o) s = .next t ∧ s.onlyCore k t ∧ t.core k = { c.setV (oVD o) (r.map (·.1)) with
        idx := c.idx + 1, qclamp := min (c.qclamp + hits) (2 ^ 32 - 1),
        flags := laneFlags c.flags hits (xs.filter (·.nan)).length (xs.filter (·.inf)).length 0 })

/-- Vector loads and stores, and the byte memory: `Claims.VectorMemory`, `Claims.ByteMemory`. -/
def Obligations.VectorMemory : Prop :=
  Claims.VectorMemory ∧ Claims.ByteMemory

/-- LD, ST and the branches: `Claims.ScalarMemory`, `Claims.Branches`. -/
def Obligations.ScalarMemoryAndBranches : Prop :=
  Claims.ScalarMemory ∧ Claims.Branches

/-- MLDW, MMAC and MDRAIN in a COMPUTE phase (R228 to R231), within local memory. -/
def Obligations.MatrixInstructions : Prop :=
  ∀ (s : State) (k : Nat) (o : Ops23), s.issues k → (s.core k).compute = true →
    let c := s.core k
    (let a := c.sr (fld o 17 13)
     let mt := fld o 21 19
     let ec := flag o 18
     let st := if c.sr (fld o 12 8) % 65536 = 0 then mldwRow mt ec else c.sr (fld o 12 8) % 65536
     let rows := (List.range 32).map fun r => mldwEntries c.lmem mt ec (a + r * st)
     fld o 7 0 = 0 → mt ≤ 4 → (ec = true → mt = 2 ∨ mt = 3) → a + (31 * st + mldwRow mt ec) ≤ 0x200000 →
       CompletesT (.iMldw k o) s k []
         ⟨{ c with wb := putFrom c.wb (2048 * fld o 22 22) (rows.flatMap (·.1)) }, [(19, sumN (rows.map (·.2)))]⟩) ∧
    (let a := c.sr (fld o 12 8)
     let b := c.sr (fld o 7 3)
     let mt := fld o 19 17
     let ec := flag o 13
     let st := if b / 65536 = 0 then mmacRow mt ec else b / 65536
     let acc := fld o 22 21
     let view := viewOf s.bcA mt (fld o 16 15)
     let fresh := flag o 14 || tget 0 c.tag acc != view + 1
     let rows := (List.range (b % 64 + 1)).map fun i => mmacVals c.lmem mt ec (a + i * st)
     fld o 2 0 = 0 → viewOk mt (fld o 16 15) = true → (ec = true → mt = 2 ∨ mt = 3) →
     a + (b % 64 * st + mmacRow mt ec) ≤ 0x200000 →
       ∃ t, exec (.iMmac k o) s = .next t ∧ s.onlyIssued k [] t ∧ (t.core k).idx = c.idx + 1 ∧
         t.core k = { c with idx := c.idx + 1, acc := (t.core k).acc, flags := (t.core k).flags,
                             tag := tset 0 c.tag acc (view + 1) } ∧
         (∃ x, (t.core k).flags = c.flags ||| x ∧ x % 16 = 0 ∧ x < 256) ∧
         (∀ i j, i ≤ b % 64 → j < 64 →
           tget 0 (t.core k).acc (4096 * acc + 64 * i + j) =
             (accElem s.bcA mt view (if fresh then 0 else tget 0 c.acc (4096 * acc + 64 * i + j))
               (nth ([], 0) rows i).1 (c.wcol (fld o 20 20) j)).1) ∧
         (∀ n, n < 4096 * acc ∨ 4096 * acc + 64 * (b % 64 + 1) ≤ n → tget 0 (t.core k).acc n = tget 0 c.acc n)) ∧
    (let a := c.sr (fld o 12 8)
     let w := c.sr (fld o 7 3)
     let hi := c.sr (fld o 7 3 + 1)
     let acc := fld o 22 21
     let df := fld o 20 17
     let st := if w / 65536 = 0 then 64 * dfSize df else w / 65536
     df ≤ 8 → fld o 16 15 ≠ 3 → fld o 7 3 % 2 = 0 → a + (w % 64 * st + 64 * dfSize df) ≤ 0x200000 →
       let view := if tget 0 c.tag acc = 0 then 4 else tget 0 c.tag acc - 1
       let row (i : Nat) := (List.range 64).map fun j =>
         drainElem s.bcA df (fld o 16 15) (sx 8 (w / 256))
           ([nth 0 (c.vr (fld o 2 0)) i % 65536, hi / 65536, hi % 65536].take (fld o 14 13)) view
           (tget 0 c.acc (4096 * acc + 64 * i + j))
       ∃ t, exec (.iMdrain k o) s = .next t ∧ s.onlyIssued k [] t ∧
         t.core k = { c with idx := c.idx + 1, lmem := (t.core k).lmem, flags := (t.core k).flags } ∧
         (∃ x, (t.core k).flags = c.flags ||| x ∧ x % 16 = 0 ∧ x < 256) ∧
         (t.core k).lmem = (List.range (w % 64 + 1)).foldl
           (fun m i => wrBytes m (a + i * st) ((row i).flatMap fun v => leBytes (dfSize df) v.1)) c.lmem)

/-- Transfers and receive rings: `Claims.TransferInstructions`, `Claims.RingInstructions`. -/
def Obligations.TransferAndRingInstructions : Prop :=
  Claims.TransferInstructions ∧ Claims.RingInstructions

/-- SEND and AEVAL in a LOAD phase (R104, R185, R193, R194, R204, R233, R235): the messages that leave; a row or a
RESULT may record its peak, a sync operation that is misuse traps, and one that answers keeps the core waiting. -/
def Obligations.MessageInstructions : Prop :=
  ∀ (s : State) (k : Nat) (o : Ops23), s.issues k → (s.core k).compute = false →
    let c := s.core k
    (fld o 17 0 = 0 →
      let a := c.sr (oSD o)
      let m := c.readMsg k a
      a + 16 + m.payload.length ≤ 0x200000 →
        (m.sendable = true → m.payload.length ≤ 8192 →
          (m.type = 0 ∨ m.type = 6 → CompletesT (.iSend k o) s k [m] ⟨c, []⟩) ∧
          (m.type = 1 ∨ m.type = 2 → ∃ t, exec (.iSend k o) s = .next t ∧
            s.onlyIssued k [m] { t with model.peaks := s.model.peaks } ∧ t.core k = { c with idx := c.idx + 1 } ∧
            (s.ctrOk → s.ctrUp t (kCore k 0))) ∧
          (m.type = 3 → s.opMisused m = true →
            ∃ t, exec (.iSend k o) s = .next t ∧ (t.core k).run = .trapped ∧ (t.core k).trapCause = 5) ∧
          (m.type = 3 → s.opMisused m = false →
            (opAfter m = none → CompletesT (.iSend k o) s k [m] ⟨c, []⟩) ∧
            ∀ w, opAfter m = some w → WaitsT (.iSend k o) s k [m] w)) ∧
        (m.sendable = false ∨ 8192 < m.payload.length ∨ (3 < m.type ∧ m.type ≠ 6) →
          CompletesT (.iSend k o) s k [] ⟨{ c with flags := c.flags ||| 4 }, [(8, 1)]⟩)) ∧
    (fld o 4 0 = 0 → fld o 7 5 ≤ 4 →
      let f := fld o 7 5
      let n := min (c.sr (oSD o) % 2 ^ 17) 65536
      let a := c.sr (oSA o)
      let w := c.sr (oSB o)
      let hdr := leBytes 16 (rowHdrGen (rdLe c.lmem a 16) (tget 0 c.gens (bf w 15 12)))
      let pieces := chunks 8176 (rdBytes c.lmem (a + 16) (n * aevalSize f))
      (n = 0 → CompletesT (.iAeval k o) s k [] ⟨c, []⟩) ∧
      (n ≠ 0 → a + 16 + n * aevalSize f ≤ 0x200000 →
        (bf w 31 26 < 48 → ∃ t, exec (.iAeval k o) s = .next t ∧ s.onlyIssued k
          (pieces.map fun p => mkMsg (localAddr 1 (bf w 31 26) 0) (coreAddr k) 1 (aevalFmt f) false 0 c.qindex (bf w 25 16)
            (hdr ++ p)) { t with model.peaks := s.model.peaks } ∧ t.core k = { c with idx := c.idx + 1 } ∧
          (s.ctrOk → s.ctrUp t (kCore k 0))) ∧
        (48 ≤ bf w 31 26 → CompletesT (.iAeval k o) s k []
          ⟨{ c with flags := c.flags ||| 4 }, [(8, pieces.length)]⟩)))

/-- SIG, SSET, SCLR, ARRIVE, SWAIT, SWAITSET and SREAD on an object that the operation suits (R198, R203, R236): a
SYNC_OP message leaves for the object's home router, and the core goes on or waits. -/
def Obligations.SyncInstructions : Prop :=
  ∀ (s : State) (k : Nat) (o : Ops23), s.issues k →
    let c := s.core k
    let obj := if oXR o then (oOBJ o + c.sr (oYSB o)) % 4096 else oOBJ o
    let n := c.sr (oYSA o) % 65536
    let kind := (s.obj obj).kind
    let msg (op n : Nat) : Msg := mkMsg (localAddr 7 0 0) (localAddr 0 k 0) 3 0 false obj c.qindex (n * 16 + op) []
    (oSEL o = false → obj < 3840 →
      (kind = 1 ∨ kind = 3 → CompletesT (.iSig k o) s k [msg 0 n] ⟨c, []⟩) ∧
      (kind = 3 → CompletesT (.iSset k o) s k [msg 2 0] ⟨c, []⟩ ∧ CompletesT (.iSclr k o) s k [msg 3 0] ⟨c, []⟩)) ∧
    (oSEL o = false → c.compute = false →
      (obj < 3840 → kind = 2 → WaitsT (.iArrive k o) s k [msg 1 0] (.waitSync obj 1 0)) ∧
      (kind = 1 → WaitsT (.iSwait k o) s k [msg 4 n] (.waitSync obj 4 n)) ∧
      (kind = 3 → WaitsT (.iSwaitset k o) s k [msg 5 0] (.waitSync obj 5 0))) ∧
    (c.compute = false → kind ≠ 0 → WaitsT (.iSread k o) s k [msg 6 0] (.waitRead obj (oSEL o) (oYSA o)))

/-- QEND, TEND, TAKE and the task taken: `Claims.TaskInstructions`, `Claims.TaskChoice`, `Claims.TaskAvailable`. -/
def Obligations.TaskInstructions : Prop :=
  Claims.TaskInstructions ∧ Claims.TaskChoice ∧ Claims.TaskAvailable

/-- Time instructions and their instants: `Claims.TimeInstructions`, `Claims.CoreInstants`. -/
def Obligations.TimeInstructions : Prop :=
  Claims.TimeInstructions ∧ Claims.CoreInstants

/-- When an instruction does not issue, and phase switches: `Claims.IssueTraps`, `Claims.IssueSwitchesPhase`,
`Claims.PhaseSwitches`. -/
def Obligations.InstructionIssue : Prop :=
  Claims.IssueTraps ∧ Claims.IssueSwitchesPhase ∧ Claims.PhaseSwitches

/-- Clock sources, lock and step 9: `Claims.ClockSources`, `Claims.ClockLock`, `Claims.ClockTimeoutAndStatus`. -/
def Obligations.ClockSources : Prop :=
  Claims.ClockSources ∧ Claims.ClockLock ∧ Claims.ClockTimeoutAndStatus

/-- Instants, schedule releases and late results: `Claims.TimeMovesOn`, `Claims.ScheduleReleases`,
`Claims.LateResultsAndUse`. -/
def Obligations.InstantsAndReleases : Prop :=
  Claims.TimeMovesOn ∧ Claims.ScheduleReleases ∧ Claims.LateResultsAndUse

/-- Sync objects: signals, barriers, events, releases and misuse: `Claims.SyncSignals`, `Claims.SyncBarriers`,
`Claims.SyncWaits`, `Claims.SyncReleases`, `Claims.SyncMisuseRule`. -/
def Obligations.SyncObjects : Prop :=
  Claims.SyncSignals ∧ Claims.SyncBarriers ∧ Claims.SyncWaits ∧ Claims.SyncReleases ∧ Claims.SyncMisuseRule

/-- The loft and the transfers between it and the cores: `Claims.LoftAccess`, `Claims.TransfersComplete`. -/
def Obligations.LoftAndTransfers : Prop :=
  Claims.LoftAccess ∧ Claims.TransfersComplete

/-- Messages to cores and to task queues: `Claims.CoreReceives`, `Claims.TaskMessages`. -/
def Obligations.MessagesReceived : Prop :=
  Claims.CoreReceives ∧ Claims.TaskMessages

/-- Media packets and ports: `Claims.MediaReceive`, `Claims.MediaTransmit`, `Claims.MediaPorts`. -/
def Obligations.MediaStreams : Prop :=
  Claims.MediaReceive ∧ Claims.MediaTransmit ∧ Claims.MediaPorts

/-- PTP, MADI and tether streams: `Claims.PtpMessages`, `Claims.SerialAudio`, `Claims.TetherReceive`. -/
def Obligations.OtherAudio : Prop :=
  Claims.PtpMessages ∧ Claims.SerialAudio ∧ Claims.TetherReceive

/-- Rows at a flank and the quantiser: `Claims.RowReceive`, `Claims.RowQuantiser`. -/
def Obligations.FlankRows : Prop :=
  Claims.RowReceive ∧ Claims.RowQuantiser

/-- Passes and conversions of an array: `Claims.FlankPasses`, `Claims.FlankConversions`, `Claims.Converters`. -/
def Obligations.FlankPasses : Prop :=
  Claims.FlankPasses ∧ Claims.FlankConversions ∧ Claims.Converters

/-- Column sums, joins and adapter terms: `Claims.ColumnArithmetic`, `Claims.JoinsAndTerms`, `Claims.AdapterTerms`. -/
def Obligations.FlankArithmetic : Prop :=
  Claims.ColumnArithmetic ∧ Claims.JoinsAndTerms ∧ Claims.AdapterTerms

/-- Calibration, nearest record and column repair: `Claims.NearestRecord`, `Claims.Calibration`,
`Claims.RepairRequests`, `Claims.ColumnRepair`. -/
def Obligations.Calibration : Prop :=
  Claims.NearestRecord ∧ Claims.Calibration ∧ Claims.RepairRequests ∧ Claims.ColumnRepair

/-- Adapters (R169, R171 to R173): a probe saved in the tile's ring of 256 every PROBE_INT quanta, a training step on
32 probes beside those held out, by the gradients of their squared error, a candidate accepted where the error of
every flagged column of the tile falls, or discarded, and the write-back at most once in 65,536 quanta; ballast stage
B2 pauses probes and training. That 64 probes are held out, and the step that leaves zero, are log entry 69. -/
def Obligations.Adapters : Prop :=
  ∀ (s : State) (a d : Nat), a < 48 →
    let x := s.arr a
    let l := x.desc d
    let ad := tget .reset x.adapters d
    let gen := tget 0 s.model.captured (s.descModel a d)
    let puts (s : State) (y : Adapter) : State := s.setArr a { x with adapters := tset .reset x.adapters d y }
    let with_ (y : Adapter) (c : Nat) : State := (s.setArr a { x with adapters := tset .reset x.adapters d y }).count (kDesc a d c) 1
    (∀ r, tfind x.lastRow d = some r → lpAdapt l = true → s.ballast 2 = false →
      (∀ q ∈ tfind x.probeAt d, q + lpProbe l ≤ s.qindex) →
      ∃ ring, exec (.probeSave a d) s =
          .next (State.setArr { s with loft.wrote := s.loft.wrote.filter (fun p =>
            !s.loft.regions.any fun w => rgKind w == 4 && inRegion p.1 w) } a { x with probe := tset [] x.probe d ring, probeAt := tput x.probeAt d (some s.qindex) }) ∧
        ((tget [] x.probe d).length < 256 → ring = tget [] x.probe d ++ [r]) ∧
        ((tget [] x.probe d).length = 256 → ring = (tget [] x.probe d).drop 1 ++ [r])) ∧
    (∀ rows ga gb, lpAdapt l = true → s.ballast 2 = false → x.toLearn l ≠ [] → rows.length = 32 → rows.Nodup →
      (∀ i ∈ rows, 64 ≤ i ∧ i < (tget [] x.probe d).length) →
      let c := s.checkRef a d
      let cur : Adapter := if ad.steps = 0 then { ad with ofSerial := ad.serial, ofGen := gen, ma := ad.a.map (· * 65536),
                                                          mb := ad.b.map (· * 65536) } else ad
      let fa := cur.ma.map (bf16Of s.cfg.bcA)
      let fb := cur.mb.map (bf16Of s.cfg.bcA)
      let seen := rows.map fun i =>
        let p := nth ([], []) (tget [] x.probe d) i
        (p.1.map fun (q : Nat) => (q : Int) - (qcZ l : Int), ((c.2.probeRef a d p.1).zip p.2).map fun e => e.1 - e.2)
      let g := if (cur.ma ++ cur.mb).all (fun m => m % 2 ^ 31 == 0) = true then (ga.map Lane.pure, gb.map Lane.pure)
        else gradients s.cfg.bcA (lgK l) (lgC l) (fa.map (·.val)) (fb.map (·.val)) seen
      let na := sgdAll s.cfg.bcA (lpRate l) cur.ma (g.1.map (·.val))
      let nb := sgdAll s.cfg.bcA (lpRate l) cur.mb (g.2.map (·.val))
      (c.1 = false → exec (.adapterTrainStep a d rows ga gb) s = .next c.2) ∧
      (c.1 = true → exec (.adapterTrainStep a d rows ga gb) s = .next (((puts c.2
        { cur with steps := ad.steps + 1, ma := na.map (·.val), mb := nb.map (·.val) }).raisedOn (lpCore l)
          (raisedBy (fa ++ fb ++ g.1 ++ g.2 ++ na ++ nb))).count (kDesc a d 14) 1))) ∧
    (s.ballast 2 = true → exec (.probeSave a d) s = .next s ∧ ∀ rows ga gb, exec (.adapterTrainStep a d rows ga gb) s = .next s) ∧
    (∀ rank, ad.steps ≠ 0 → ad.steps % 64 = 0 → lpAdapt l = true →
      let run := Instr.adapterCandidateEval a d rank
      let c := s.checkRef a d
      let fa := ad.ma.map (bf16Of s.cfg.bcA)
      let fb := ad.mb.map (bf16Of s.cfg.bcA)
      let new := c.2.probeTerms a d rank (fa.map (·.val)) (fb.map (·.val))
      let old := c.2.probeTerms a d ad.rank ad.a ad.b
      let did := raisedBy (fa ++ fb ++ [new.2, old.2])
      let better := outCols l x.flagged ≠ [] ∧ ∀ k ∈ outCols l x.flagged, probeError new.1 k < probeError old.1 k
      let fits := rank ≤ lpMax l ∧ (rank = 4 ∨ rank = 8 ∨ rank = 16) ∧
        (rank = ad.rank ∨ rank = 2 * ad.rank ∨ (ad.rank = 0 ∧ rank = 4))
      let serial := (ad.serial + 1) % 65536
      (ad.ofGen ≠ gen ∨ ad.ofSerial ≠ ad.serial → exec run s = .next (with_ { ad with steps := 0 } 16)) ∧
      (ad.ofGen = gen → ad.ofSerial = ad.serial →
        (¬ fits → exec run s = .next s) ∧
        (fits → c.1 = false → exec run s = .next c.2) ∧
        (fits → c.1 = true → ¬ better → exec run s = .next (c.2.raisedOn (lpCore l) did)) ∧
        (fits → c.1 = true → better → exec run s = .next (((puts c.2
          { ad with next := some (rank, fa.map (·.val), fb.map (·.val)), serial := serial, ofSerial := serial, gen := gen }).raisedOn
            (lpCore l) did).count (kDesc a d 15) 1)))) ∧
    ((∀ q ∈ s.nv.adapterQ, q + 65536 ≤ s.qindex) →
      exec .adapterWriteback s = .next { s.saveAdapters with nv.adapterQ := some s.qindex }) ∧
    (∀ q, s.nv.adapterQ = some q → s.qindex < q + 65536 → exec .adapterWriteback s = .next s)

/-- Plane programs and switches over several engines: `Claims.PlanePrograms`, `Claims.SwitchReports`. -/
def Obligations.ModelSwitches : Prop :=
  Claims.PlanePrograms ∧ Claims.SwitchReports

/-- Reel fills and releases: `Claims.ReelFillStarts`, `Claims.ReelFillCompletes`, `Claims.ReelReleases`. -/
def Obligations.Reels : Prop :=
  Claims.ReelFillStarts ∧ Claims.ReelFillCompletes ∧ Claims.ReelReleases

/-- RESULT messages (R32, R64, R90, R95, R194 to R197): one to a core is received there; at the channel stage the exit
words stand from the row's sample and column on, each clamp counted; after the deadline the message is a late result,
and so is one of another quantum; a stale one counts at a flank too (that LATE_RESULT counts it there is log entry
74). -/
def Obligations.ResultsDelivered : Prop :=
  ∀ (s : State) (m : Msg), m.type = 2 → s.ready m = true →
    let u := s.arrive m
    let h := leAt m.payload 0 16
    let slot := bf h 127 116
    let ws := exitForm s.cfg.bcA m.fmt (bf h 79 64) (m.payload.drop 16)
    (m.toUnit 0 = true → exec (.resultDeliver m) s = .next (s.toCore m.unit m)) ∧
    (m.toUnit 0 = false → m.remote = false →
      (m.qtag ≠ s.qindex % 4 → exec (.resultDeliver m) s = .next
        (if m.kind = 3 then u.count (kEngine 0) 1 else if m.toUnit 1 = true then u.count (kArr m.unit 22) 1 else u)) ∧
      (m.qtag = s.qindex % 4 → m.kind ≠ 3 → exec (.resultDeliver m) s = .next (u.syncAction m)) ∧
      (m.qtag = s.qindex % 4 → m.kind = 3 →
        (s.time.windowOpen = false → exec (.resultDeliver m) s = .next (u.count (kEngine 0) 1)) ∧
        (s.time.windowOpen = true → ∃ out,
          exec (.resultDeliver m) s = .next (((u.setSlot slot { s.slot slot with out := out }).count (kExit slot)
            ((ws.filter (·.2)).length)).syncAction m) ∧
          (∀ k, let b := bf h 115 100 + bf h 63 48
            tfind out k = if b ≤ k ∧ k < b + ws.length then some (nth 0 (ws.map (·.1)) (k - b)) else tfind (s.slot slot).out k))))

/-- The life of a tether link: `Claims.TetherLinks`, `Claims.LinkStates`. -/
def Obligations.TetherLinks : Prop :=
  Claims.TetherLinks ∧ Claims.LinkStates

/-- Fabric records, time, indices and peer failures: `Claims.FabricRecords`, `Claims.PeerFailures`. -/
def Obligations.FabricRecordsAndPeers : Prop :=
  Claims.FabricRecords ∧ Claims.PeerFailures

/-- Messages that leave, as flits: `Claims.FabricSends`, `Claims.FlitsCarryMessages`. -/
def Obligations.FabricSends : Prop :=
  Claims.FabricSends ∧ Claims.FlitsCarryMessages

/-- Flits received and reassembly: `Claims.FlitsReceived`, `Claims.Reassembly`. -/
def Obligations.FabricReceives : Prop :=
  Claims.FlitsReceived ∧ Claims.Reassembly

/-- Multicast acknowledgements and prunes, and bulk resends (R310, R313, R315, R317): an acknowledgement covers the
quanta whose traffic on its virtual channel's stream it reaches; a member whose prune notice comes discards its
partial message and takes no more; a missing sector is asked for four times at most, and the sectors asked for are
sent again: the pieces of a transfer that this engine relayed, else sectors of its store copy. While the address is in
conflict no acknowledgement and no notice is taken. -/
def Obligations.MulticastAndBulk : Prop :=
  ∀ (s : State),
    (s.fab.conflict = true → ∀ g a c n, g < 256 → exec (.mcAckReceive g a c n) s = .next s ∧ exec (.mcPruneNotice a g) s = .next s) ∧
    (∀ g member c seq, g < 256 → s.fab.conflict = false →
      let x := tget .reset s.fab.groups g
      let done := (x.ends.filter fun e => decide (e.2.1 = c ∧ (seq + 65536 - e.2.2 % 65536) % 65536 < 32768)).map (·.1)
      let y : McGroup := { x with acks := tput x.acks (4 * member + c) (some (maxN done)) }
      let u : State := if done = [] then s else { s with fab.groups := tset .reset s.fab.groups g y }
      exec (.mcAckReceive g member c seq) s = .next (u.mcPrune g)) ∧
    (∀ src g, g < 256 → s.fab.conflict = false →
      ∃ t, exec (.mcPruneNotice src g) s = .next t ∧ (tget .reset t.fab.mcIn (src * 256 + g)).pruned = true ∧
        (∀ v < 3, ∀ p ∈ t.fab.reasm, p.1 ≠ streamNo src true g v) ∧ t.cores = s.cores ∧ t.loft = s.loft ∧
        (s.ctrOk → s.ctrAdd t (kEngine 17) 1)) ∧
    (∀ src tr sectors, tr < 128 →
      let k := src * 128 + tr
      let b := tget .reset s.fab.bulk k
      let missing := sectors.filter fun x => (tfind b.data x).isNone
      (b.failed = true ∨ missing = [] → exec (.bulkResendRequest src tr sectors) s = .next s) ∧
      (b.failed = false → missing ≠ [] →
        ((∃ x ∈ missing, 4 ≤ tget 0 b.tries x) → exec (.bulkResendRequest src tr sectors) s = .next
          (({ s with fab.bulk := tset .reset s.fab.bulk k { b with failed := true } } : State).raise evFabXferFailed
            [(2, src), (1, tr)])) ∧
        ((∀ x ∈ missing, tget 0 b.tries x < 4) →
          ∃ tries, exec (.bulkResendRequest src tr sectors) s = .next
            (({ s with fab.bulk := tset .reset s.fab.bulk k { b with tries := tries } } : State).sendCtrl src 4 (tr :: missing)) ∧
            (sectors.Nodup → ∀ x, tget 0 tries x = tget 0 b.tries x + if x ∈ missing then 1 else 0)))) ∧
    (∀ src tr sectors, tr < 128 →
      (tfind s.fab.bulkOut (128 * src + tr) = none → exec (.resendRequestReceive src tr sectors) s = .next
        (sectors.foldl (fun s x => s.bulkShard src tr 0 x (s.sectorBytes x)) s)) ∧
      (∀ gen ps, tfind s.fab.bulkOut (128 * src + tr) = some (gen, ps) → exec (.resendRequestReceive src tr sectors) s = .next
        ((sectors.filter fun x => decide (x < ps.length)).foldl (fun s x => s.bulkShard src tr gen x (nth [] ps x)) s)))

/-- The host link, its resets and registers: `Claims.HostLink`, `Claims.HostRegisters`, `Claims.HostReads`. -/
def Obligations.HostLinkAndRegisters : Prop :=
  Claims.HostLink ∧ Claims.HostRegisters ∧ Claims.HostReads

/-- Doorbells and ring registers: `Claims.Doorbells`, `Claims.RingRegisters`. -/
def Obligations.HostRings : Prop :=
  Claims.Doorbells ∧ Claims.RingRegisters

/-- Command checks and completions: `Claims.CommandChecks`, `Claims.Completions`. -/
def Obligations.CommandsAndCompletions : Prop :=
  Claims.CommandChecks ∧ Claims.Completions

/-- Forwarded commands (R417): the target's completion, or the time-out, completes the command on this host's ring;
one that comes after it is discarded, and none comes while the address is in conflict (R310). -/
def Obligations.ForwardedCommands : Prop :=
  ∀ (s : State) (tag : Nat),
    (∀ f, s.host.fwd.find? (fun f => f.tag == tag) = some f →
      let u : State := { s with host.fwd := s.host.fwd.erase f }
      exec (.fwdTargetTimeout tag) s = .next (u.postCpl ⟨.host, tag, 0x0F, 0, 0, 0, f.irq, f.head, []⟩) ∧
      ∀ st r0 r1 (data : List Byte), s.fab.conflict = false → data.length ≤ f.total → exec (.fwdCompletionReceive tag st r0 r1 data) s = .next
        (u.postCpl ⟨.host, tag, st, 0, r0, r1, f.irq, f.head, data⟩)) ∧
    ((∀ f ∈ s.host.fwd, f.tag ≠ tag) → exec (.fwdTargetTimeout tag) s = .next s ∧
      ∀ st r0 r1 data, exec (.fwdCompletionReceive tag st r0 r1 data) s = .next s)

/-- The order of commands (R408 to R412, R480): an accepted command runs when it is the first of those accepted; a
FENCE waits; a command whose data could not be read ends with DMA_ERROR; with none accepted, the command is checked
first, and what fails a check is refused. -/
def Obligations.RomOrder : Prop :=
  ∀ p ∈ romCommands, ∀ (s : State) (c : Cmd), c.opcode = p.1 → c.fwd = false →
    (∀ x ∈ s.host.accepted.head?, x ≠ c → exec (p.2 c) s = .next s) ∧
    (s.host.accepted.head? = some c → s.fenced c → exec (p.2 c) s = .next s) ∧
    (s.host.accepted.head? = some c → ¬ s.fenced c → c.dmaOk = false →
      exec (p.2 c) s = .next ((s.begun c).finish c 0x0A 0 0 [])) ∧
    (s.host.accepted = [] →
      (s.takes = false → exec (p.2 c) s = .next s) ∧
      (s.takes = true → ∀ st, s.checkCmd c = some st → exec (p.2 c) s = .next (s.refuseCmd c st)))

/-- Versions, identity and the reads (R286, R405, R413, R415, R485, R499): NEGOTIATE takes the highest version of
both; the others answer with their pages: identity, telemetry, the directory's 1,024 places, and the log's records
from a sequence on. -/
def Obligations.RomReads : Prop :=
  ∀ (s : State) (c : Cmd), let u := s.begun c
    (s.turn 0x01 c →
      let lo := fld c.p1 15 8
      let hi := fld c.p1 7 0
      let known : List Nat := [0x12, 0x20, 0x21, 0x22, 0x23]
      ((∀ v ∈ known, ¬ (lo ≤ v ∧ v ≤ hi)) → exec (.negotiate c) s = .next (u.finish c 0x09 0 0 [])) ∧
      ∀ v ∈ known, lo ≤ v → v ≤ hi → (∀ w ∈ known, w ≤ hi → w ≤ v) →
        (c.src = .host → exec (.negotiate c) s = .next (State.finish { u with host.neg := v } c 0 v 0 [])) ∧
        ∀ a, c.src = .peer a → exec (.negotiate c) s =
          .next (State.finish { u with host.peerNeg := tset 0x20 u.host.peerNeg a v } c 0 v 0 [])) ∧
    (s.turn 0x02 c → ∃ page : List Byte, page.length = 4096 ∧
      page.take 24 = leBytes 8 idReg ++ leBytes 8 Config.romVersion.toNat ++ leBytes 8 u.uid ∧
      exec (.identify c) s = .next (u.finish c 0 0 0 page)) ∧
    (s.turn 0x52 c → ∃ page : List Byte, page.length = 4096 ∧
      page.take 16 = leBytes 8 u.tstamp ++ leBytes 8 u.ballastWord ∧
      (page.drop 72).take 88 = (List.range 11).flatMap (fun i => leBytes 8 (ux 12 (nth 0 u.sup.dies i) * 2 ^ 52)) ∧
      exec (.telemetry c) s = .next (u.finish c 0 0 0 page)) ∧
    (s.turn 0x32 c → exec (.dirRead c) s =
      .next (u.finish c 0 0 0 ((List.range 1024).flatMap fun x =>
        dirBytes ((u.dirEnt x).map fun e => { e with useRecent := u.useOf (x, e) })))) ∧
    (s.turn 0x53 c → exec (.eventlogRead c) s = .next (u.finish c 0 0 0
      ((u.nv.log.filter fun r => decide (c.p3.toNat ≤ bf r.word 63 32)).flatMap recBytes))) ∧
    (s.turn 0x21 c →
      let slot := if c.p3.getLsbD 0 = true then 1 else 0
      let rec_ := (u.slotRecord slot).1
      exec (.cfgRead c) s = .next (u.finish c 0 0 0
        (if u.slotValid slot = true then rec_.take (hdLength (leAt rec_ 0 32)) else u.sectorBytes (128 * slot))))

/-- Run state and resets (R17, R412, R413): a change of run state waits for the boundary; entry to RUN needs a
verified configuration and a placement that passes; WARM_RESET ends the long commands and takes the host link down. -/
def Obligations.RomRunState : Prop :=
  ∀ (s : State) (c : Cmd), let u := s.begun c
    (s.turn 0x10 c →
      let t : RunState := if c.p1.toNat = 2 then .run else if c.p1.toNat = 3 then .maintenance else .shutdown
      let go (v : State) : State := { v with run.pend := some t, run.pendCmd := some c }
      (u.run.st = t → exec (.setRunState c) s = .next (u.finish c 0 0 0 [])) ∧
      (u.run.st ≠ t → t ≠ .run → exec (.setRunState c) s = .next (go u)) ∧
      (u.run.st ≠ t → t = .run →
        (u.run.cfgOk = false → exec (.setRunState c) s = .next (u.finish c 0x0E 0 0 [])) ∧
        (u.run.cfgOk = true → u.run.placeOk = true → exec (.setRunState c) s =
          .next (if u.placementOk = true then go u else u.finish c 0x0E 0 0 [])) ∧
        (u.run.cfgOk = true → u.run.placeOk = false →
          ((u.tryPlacement false).1 = true → exec (.setRunState c) s = .next (go (u.tryPlacement false).2)) ∧
          ((u.tryPlacement false).1 = false → exec (.setRunState c) s = .next (u.finish c 0x0E 0 0 []))))) ∧
    (s.turn 0x11 c →
      let ended : State := (u.loseInstall.abortLong [0x10, 0x20, 0x30, 0x31, 0x40, 0x41, 0x70]).dropRun
      let told := State.finish { ended with run.pendCmd := none } c 0 0 0 []
      exec (.warmReset c) s = .next (State.hostLink { told.hostReset with run.resetting := some c } false 0 0)) ∧
    (s.turn 0x42 c →
      (u.obs.haltAt ≠ none ∨ u.obs.halting = true → exec (.debugHalt c) s = .next (u.finish c 0x07 0 0 [])) ∧
      (u.obs.haltAt = none → u.obs.halting = false →
        exec (.debugHalt c) s = .next (State.finish { u with obs.haltAt := some c.p1.toNat } c 0 0 0 []))) ∧
    (s.turn 0x43 c →
      (u.obs.haltAt ≠ none ∨ u.obs.halting = true →
        exec (.debugResume c) s = .next (State.finish { u with obs.resume := true } c 0 0 0 [])) ∧
      (u.obs.haltAt = none → u.obs.halting = false → exec (.debugResume c) s = .next (u.finish c 0 0 0 []))) ∧
    (s.turn 0x70 c →
      (fld c.p1 11 0 ∈ u.fab.remapped → exec (.remapReturn c) s =
        .next (u.announce (fld c.p1 11 0) (u.boundaryOn + 8) true)) ∧
      (fld c.p1 11 0 ∉ u.fab.remapped → exec (.remapReturn c) s = .next (u.finish c 0 0 0 [])))

/-- Configuration and partitions (R356, R371, R380, R413): CFG_WRITE writes the slot not in use, refused in the order
of its checks: on idle banks whose sectors wear out neither by this erase nor by a swap, the record's sectors hold its
bytes after it and the rest of the slot is ERASED. REFORMAT erases a partition's sectors, RETIRED ones included where
their banks have spares. -/
def Obligations.RomConfiguration : Prop :=
  ∀ (s : State) (c : Cmd), let u := s.begun c
    (s.turn 0x20 c →
      let slot := if u.run.selected = true then 1 - u.cfg.slot else if u.slotSeq 1 < u.slotSeq 0 then 1 else 0
      let ls := (List.range 128).map (128 * slot + ·)
      let older := u.run.selected = true ∧ hdSeq (leAt c.data 0 32) ≤ u.cfg.seq
      let kept := ∃ l ∈ ls, u.protected_ l = true
      let gone := ∃ l ∈ ls, (u.ent l).st = .retired
      let secs := chunks 4096 (c.data.take (hdLength (leAt c.data 0 32)))
      let clean := ls.foldl State.eraseLogical u
      (older → exec (.cfgWrite c) s = .next (u.finish c 0x30 0 0 [])) ∧
      (¬ older → u.headerOk c.data = false → exec (.cfgWrite c) s = .next (u.finish c 0x31 0 0 [])) ∧
      (¬ older → u.headerOk c.data = true →
        (kept → exec (.cfgWrite c) s = .next ((u.protRefused (128 * slot)).finish c 0x24 0 0 [])) ∧
        (¬ kept → gone → exec (.cfgWrite c) s = .next (u.finish c 0x25 0 0 [])) ∧
        (¬ kept → ¬ gone → exec (.cfgWrite c) s = .next
          (((((ls.zip secs).drop 1).foldl (fun s p => s.writeSector p.1 p.2) clean).writeSector (128 * slot) (secs.headD [])).finish
            c 0 0 0 []))) ∧
      (¬ older → u.headerOk c.data = true → ¬ kept →
        (∀ l ∈ ls, let e := u.ent l
          let x := u.sector e.phys
          (u.bank (bankOf e.phys)).job = none ∧ (u.bank (bankOf e.phys)).queue = [] ∧ (∀ k ∈ ls, k ≠ l → (u.ent k).phys ≠ e.phys) ∧
          ((e.st = .erased ∧ x.words = []) ∨
           (e.st = .written ∧ x.ecount + 1 < 20000 ∧ ∀ q ∈ u.pool (bankOf e.phys), x.ecount + 1 ≤ (u.sector q).ecount + 2000))) →
        ∃ v : State, exec (.cfgWrite c) s = .next (v.finish c 0 0 0 []) ∧ ∀ i < 128, let l := 128 * slot + i
          (i = 0 ∨ i < secs.length → (v.ent l).st = .written ∧ v.sectorBytes l = fit 0 4096 (nth [] secs i)) ∧
          (0 < i → secs.length ≤ i → (v.ent l).st = .erased))) ∧
    (s.turn 0x62 c → ∃ v : State,
      exec (.reformat c) s = .next (v.finish c 0 0 0 []) ∧
      v.cores = u.cores ∧ v.loft = u.loft ∧ v.cfg = u.cfg ∧ v.time = u.time ∧ v.fab = u.fab ∧
      (c.p1.toNat = 1 → v.nv.health = .reset ∧ v.nv.keys = .reset ∧ v.nv.calRecs = []) ∧
      (c.p1.toNat = 2 → v.nv.log = []) ∧ (c.p1.toNat = 3 → v.nv.dir = []) ∧
      (let mine (l : Nat) := partitionOf l = some c.p1.toNat
       let gone := (u.store.map.filter fun p => partitionOf p.1 == some c.p1.toNat && p.2.st == .retired).length
       u.store.loaded = true → (∀ b, (u.bank b).job = none ∧ (u.bank b).queue = []) →
       (∀ l, mine l → let e := u.ent l
         let x := u.sector e.phys
         e.st = .erased ∨ (e.st = .retired ∧ gone ≤ (u.pool (bankOf (homePhys l))).length) ∨
         ((e.st = .written ∨ e.st = .refresh ∨ e.st = .poisoned) ∧ x.ecount + 1 < 20000 ∧
           (∀ q ∈ u.pool (bankOf e.phys), x.ecount + 1 ≤ (u.sector q).ecount + 2000) ∧
           ∀ k, mine k → k ≠ l → (u.ent k).st = .erased ∨ (u.ent k).phys ≠ e.phys)) →
       ∀ l, mine l → (v.ent l).st = .erased))

/-- Models and calibration (R259, R282, R283, R291, R293 to R295, R165, R413, R501): ACTIVATE of another generation of
an active model begins a switch, on the atomic path with a FREE plane in PENDING for each plane in use, or leaves
BOOT_ACT where the shapes differ. -/
def Obligations.RomModels : Prop :=
  ∀ (s : State) (c : Cmd), let u := s.begun c
    (s.turn 0x30 c → exec (.install c) s = .next (u.installRun c c.data)) ∧
    (∀ i, s.model.install = some i → i.cmd = c →
      (s.installPaused i = false → exec (.installComplete c) s = .next (s.installDone i)) ∧
      (s.installPaused i = true → exec (.installComplete c) s = .next s)) ∧
    (s.turn 0x31 c →
      (u.entOf (fld c.p1 63 32) (fld c.p1 31 16) = none → exec (.activate c) s = .next (u.finish c 0x40 0 0 [])) ∧
      ∀ x e, u.entOf (fld c.p1 63 32) (fld c.p1 31 16) = some (x, e) →
        (e.st ∈ [1, 5, 6] → exec (.activate c) s = .next (u.finish c 0x43 0 0 [])) ∧
        (e.st ∉ [1, 5, 6] → e.active = true → u.dirEnt x = some e → ∃ v : State, exec (.activate c) s = .next (v.finish c 0 0 0 []) ∧
          v = { u with nv.dir := v.nv.dir } ∧ tfind v.nv.dir x = some e) ∧
        (e.st ∉ [1, 5, 6] → e.active = false → ∀ w, u.switchOf e.model = some w → w.cmd ≠ none →
          exec (.activate c) s = .next (u.finish c 0x07 0 0 [])) ∧
        (e.st ∉ [1, 5, 6] → e.active = false → u.switchOf e.model = none → u.dirEnt x = some e →
          ∀ y o, u.activeEnt e.model = some (y, o) →
          (shapeOk e o = false → ∃ v : State, exec (.activate c) s = .next (v.finish c 0 0 0 []) ∧
            v = { u with nv.dir := v.nv.dir } ∧ v.dirEnt x = some { e with bootAct := true } ∧
            ∀ k, k ≠ x → v.dirEnt k =
              (u.dirEnt k).map fun f => if f.model = e.model then { f with bootAct := false } else f) ∧
          (let used := if u.modelNamed e.model = true then u.usedPlanes e.model else []
           shapeOk e o = true → u.evictPolicy = false → u.atomicOk e.model used = true →
             ∃ (t : State) (w : Switch), exec (.activate c) s = .next t ∧ w ∈ t.model.switches ∧
               w.model = e.model ∧ w.gen = e.gen ∧ w.old = some o.gen ∧ w.atomic = true ∧ w.cmd = some c ∧ (used ≠ [] → w.atQ = c.p2.toNat) ∧
               ∀ k ∈ used, ∃ p ∈ w.pairs, p.1 = k.1 ∧ p.2.1 = k.2 ∧ p.2.2 ∈ u.freePlanes p.1 ∧
                 tget 0 t.nv.alloc (16 * p.1 + p.2.2) = 1))) ∧
    (s.turn 0x33 c →
      (u.entOf (fld c.p1 63 32) (fld c.p1 31 16) = none → exec (.modelRemove c) s = .next (u.finish c 0x40 0 0 [])) ∧
      ∀ x e, u.entOf (fld c.p1 63 32) (fld c.p1 31 16) = some (x, e) →
        (e.active = true → exec (.modelRemove c) s = .next (u.finish c 0x41 0 0 [])) ∧
        (e.active = false →
          (e.st = 1 ∨ u.hasPending e = true → exec (.modelRemove c) s = .next (u.finish c 0x07 0 0 [])) ∧
          (e.st ≠ 1 → u.hasPending e = false →
            (∀ l, u.protEnt e = some l → exec (.modelRemove c) s = .next ((u.protRefused l).finish c 0x24 0 0 [])) ∧
            (u.protEnt e = none → exec (.modelRemove c) s = .next ((u.freeEntry x).finish c 0 0 0 []))))) ∧
    (s.turn 0x34 c → exec (.spillRegister c) s = .next (State.finish { u.voidSpill with
      host.spillBase := if c.p2.toNat = 0 then 0 else c.p1.toNat, host.spillN := c.p2.toNat } c 0 0 0 [])) ∧
    (s.turn 0x40 c →
      let named := bitsSet 48 c.p1.toNat
      let good := named.filter fun a => decide ((u.arr a).st ≠ .failed)
      (named = [] → exec (.calibrate c) s = .next (u.finish c 0 0 0 [])) ∧
      (named ≠ [] → good = [] → exec (.calibrate c) s = .next (u.finish c 0x42 0 0 [])) ∧
      (good ≠ [] → ∃ t, exec (.calibrate c) s = .next t ∧ t.host.cals = u.host.cals ++ [(c, good, [])] ∧
        ∀ a, (t.arr a).calQ = (u.arr a).calQ ++ if a ∈ good then [⟨bitsSet 16 c.p2.toNat, some c, false⟩] else []))

/-- Counters, the ripcord and the debug halt: `Claims.CountersAndRipcord`, `Claims.DebugHalts`. -/
def Obligations.CountersAndDebug : Prop :=
  Claims.CountersAndRipcord ∧ Claims.DebugHalts

/-- Tokens, life cycle, keys and attestation: `Claims.Tokens`, `Claims.LifeCycleFollowsSlots`,
`Claims.KeysAndAttestation`. -/
def Obligations.LifeCycleAndKeys : Prop :=
  Claims.Tokens ∧ Claims.LifeCycleFollowsSlots ∧ Claims.KeysAndAttestation

/-- Self-test, the health record and the lasers: `Claims.SelfTestSlices`, `Claims.HealthAndLasers`. -/
def Obligations.SelfTestAndHealth : Prop :=
  Claims.SelfTestSlices ∧ Claims.HealthAndLasers

/-- The boot: `Claims.BootBegins`, `Claims.BootSteps`, `Claims.BootEnds`. -/
def Obligations.Boot : Prop :=
  Claims.BootBegins ∧ Claims.BootSteps ∧ Claims.BootEnds

/-- Supply, clock stretching and the ballast order: `Claims.SupplyAndStretch`, `Claims.BallastOrder`. -/
def Obligations.SupplyAndBallast : Prop :=
  Claims.SupplyAndStretch ∧ Claims.BallastOrder

/-- Store reads, relocation and the journal: `Claims.StoreReads`, `Claims.StoreMap`. -/
def Obligations.StoreReadsAndMap : Prop :=
  Claims.StoreReads ∧ Claims.StoreMap

/-- Store programs and erases: `Claims.StorePrograms`, `Claims.StoreErases`. -/
def Obligations.StoreWrites : Prop :=
  Claims.StorePrograms ∧ Claims.StoreErases

/-- The quantum and changes of run state: `Claims.Quantum`, `Claims.RunStateChanges`. -/
def Obligations.QuantumAndRunState : Prop :=
  Claims.Quantum ∧ Claims.RunStateChanges

/-- What the commands of flanks, arrays, switches, reels and links complete with: `Claims.FlankCompletions`,
`Claims.RepairCompletions`, `Claims.SwitchAndReelCompletions`, `Claims.LinkCompletions`. -/
def Obligations.UnitCompletions : Prop :=
  Claims.FlankCompletions ∧ Claims.RepairCompletions ∧ Claims.SwitchAndReelCompletions ∧ Claims.LinkCompletions
end

