-- ==== Sys2Proof/Laws/Tab.lean ====
section
/-!
SUPPORT. The sparse tables and the byte memories: a read after a write to the same key gives the value written, a write
leaves every other key alone, and every write keeps the canonical form.
-/

namespace Sys2Proof.Machine

variable {α : Type}

@[simp] theorem keysUp_nil : keysUp ([] : Tab α) := trivial

@[simp] theorem tfind_nil (k : Nat) : tfind ([] : Tab α) k = none := rfl
@[simp] theorem tget_nil (d : α) (k : Nat) : tget d [] k = d := rfl

theorem keysFrom_weaken {lo lo' : Option Nat} (t : Tab α) (h : keysFrom lo t) (hl : ∀ b' ∈ lo', ∃ b ∈ lo, b' ≤ b) :
    keysFrom lo' t := by
  cases t with
  | nil => trivial
  | cons p r =>
    refine ⟨fun b' hb' => ?_, h.2⟩
    obtain ⟨b, hb, hle⟩ := hl b' hb'
    exact Nat.lt_of_le_of_lt hle (h.1 b hb)

theorem tfind_below (t : Tab α) (b k : Nat) (h : keysFrom (some b) t) (hk : k ≤ b) : tfind t k = none := by
  induction t generalizing b with
  | nil => rfl
  | cons p r ih =>
    obtain ⟨k', v⟩ := p
    have h1 : b < k' := h.1 b rfl
    simp only [tfind, if_neg (show ¬ k' = k by omega)]
    exact ih k' h.2 (by omega)

/-- A write leaves every other key alone. -/
theorem tfind_tput_ne (t : Tab α) (k j : Nat) (o : Option α) (h : j ≠ k) : tfind (tput t k o) j = tfind t j := by
  induction t generalizing o with
  | nil => cases o <;> simp [tput, tfind, Ne.symm h]
  | cons p r ih =>
    obtain ⟨k', v⟩ := p
    simp only [tput]
    split
    · cases o <;> simp [tfind, ih, Ne.symm h]
    · split
      · subst k'; cases o <;> simp [tfind, ih, Ne.symm h]
      · simp only [tfind, ih]

/-- A read after a write of the same key gives the value written. -/
@[simp] theorem tfind_tput_self (t : Tab α) (k : Nat) (o : Option α) : tfind (tput t k o) k = o := by
  induction t generalizing o with
  | nil => cases o <;> simp [tput, tfind]
  | cons p r ih =>
    obtain ⟨k', v⟩ := p
    simp only [tput]
    split
    · cases o
      · simp only [tfind, ih, if_neg (show ¬ k' = k by omega)]
      · simp [tfind]
    · split
      · cases o <;> simp [tfind, ih]
      · rename_i hne; simp only [tfind, if_neg (Ne.symm hne), ih]

theorem tput_none (t : Tab α) (k : Nat) : tput t k none = t.filter fun p => p.1 != k := by
  induction t with
  | nil => rfl
  | cons p r ih =>
    obtain ⟨k', v⟩ := p
    simp only [tput, ih, List.filter_cons]
    by_cases h : k' = k
    · subst h; simp
    · simp [h, Ne.symm h]

theorem keysFrom_filter (t : Tab α) (lo : Option Nat) (p : Nat × α → Bool) (h : keysFrom lo t) :
    keysFrom lo (t.filter p) := by
  induction t generalizing lo with
  | nil => trivial
  | cons q r ih =>
    simp only [List.filter_cons]
    split
    · exact ⟨h.1, ih (some q.1) h.2⟩
    · exact ih lo (keysFrom_weaken r h.2 fun b hb => ⟨q.1, rfl, Nat.le_of_lt (h.1 b hb)⟩)

theorem keysFrom_tput (t : Tab α) (lo : Option Nat) (k : Nat) (o : Option α) (h : keysFrom lo t) (hk : ∀ b ∈ lo, b < k) :
    keysFrom lo (tput t k o) := by
  cases o with
  | none => rw [tput_none]; exact keysFrom_filter t lo _ h
  | some w =>
    induction t generalizing lo with
    | nil => exact ⟨hk, trivial⟩
    | cons p r ih =>
      obtain ⟨k', v⟩ := p
      simp only [tput]
      split
      · exact ⟨hk, fun b hb => by cases hb; assumption, h.2⟩
      · split
        · subst k'; exact ⟨hk, h.2⟩
        · exact ⟨h.1, ih (some k') h.2 fun b hb => by cases hb; omega⟩

/-- Every write keeps the keys strictly rising. -/
@[simp] theorem keysUp_tput (t : Tab α) (k : Nat) (o : Option α) (h : keysUp t) : keysUp (tput t k o) :=
  keysFrom_tput t none k o h (by simp)

@[simp] theorem keysUp_tdel (t : Tab α) (k : Nat) (h : keysUp t) : keysUp (tdel t k) := keysUp_tput t k none h

theorem keysFrom_map {β : Type} (t : Tab α) (lo : Option Nat) (f : Nat × α → β) (h : keysFrom lo t) :
    keysFrom lo (t.map fun p => (p.1, f p)) := by
  induction t generalizing lo with
  | nil => trivial
  | cons p r ih => exact ⟨h.1, ih (some p.1) h.2⟩

/-- A change of values keeps the keys. -/
@[simp] theorem keysUp_map {β : Type} (t : Tab α) (f : Nat × α → β) (h : keysUp t) : keysUp (t.map fun p => (p.1, f p)) :=
  keysFrom_map t none f h

@[simp] theorem keysUp_filter (t : Tab α) (p : Nat × α → Bool) (h : keysUp t) : keysUp (t.filter p) :=
  keysFrom_filter t none p h

section
variable [DecidableEq α]

@[simp] theorem keysUp_tset (d : α) (t : Tab α) (k : Nat) (v : α) (h : keysUp t) : keysUp (tset d t k v) :=
  keysUp_tput t k _ h

@[simp] theorem keysUp_tmod (d : α) (t : Tab α) (k : Nat) (f : α → α) (h : keysUp t) : keysUp (tmod d t k f) :=
  keysUp_tset d t k _ h

theorem tget_tset_ne (d : α) (t : Tab α) (k j : Nat) (v : α) (h : j ≠ k) : tget d (tset d t k v) j = tget d t j := by
  simp only [tget, tset, tfind_tput_ne t k j _ h]

@[simp] theorem tget_tset_self (d : α) (t : Tab α) (k : Nat) (v : α) : tget d (tset d t k v) k = v := by
  simp only [tget, tset, tfind_tput_self]
  split
  · rename_i hv; exact hv.symm
  · rfl

/-- The canonical form says that keys rise and that no entry equals the value of an unlisted key. -/
theorem tabWfFrom_iff (d : α) (lo : Option Nat) (t : Tab α) :
    tabWfFrom d lo t = true ↔ keysFrom lo t ∧ ∀ p ∈ t, p.2 ≠ d := by
  induction t generalizing lo with
  | nil => simp [tabWfFrom, keysFrom]
  | cons p r ih =>
    obtain ⟨k, v⟩ := p
    cases lo <;> simp [tabWfFrom, keysFrom, ih, and_assoc, and_left_comm]

theorem tabWf_iff (d : α) (t : Tab α) : tabWf d t = true ↔ keysUp t ∧ ∀ p ∈ t, p.2 ≠ d := tabWfFrom_iff d none t

theorem tabWf_keys {d : α} {t : Tab α} (h : tabWf d t = true) : keysUp t := ((tabWf_iff d t).1 h).1

omit [DecidableEq α] in
theorem mem_tput (t : Tab α) (k : Nat) (o : Option α) (p : Nat × α) (h : p ∈ tput t k o) :
    p ∈ t ∨ ∃ v ∈ o, p = (k, v) := by
  cases o with
  | none => rw [tput_none] at h; exact .inl (List.mem_filter.1 h).1
  | some w =>
    induction t with
    | nil => exact .inr ⟨w, rfl, by simpa [tput] using h⟩
    | cons q r ih =>
      obtain ⟨k', v'⟩ := q
      simp only [tput] at h
      split at h
      · rcases List.mem_cons.1 h with h | h
        · exact .inr ⟨w, rfl, h⟩
        · exact .inl h
      · split at h
        · rcases List.mem_cons.1 h with h | h
          · exact .inr ⟨w, rfl, h⟩
          · exact .inl (List.mem_cons_of_mem _ h)
        · rcases List.mem_cons.1 h with h | h
          · exact .inl (by rw [h]; exact List.mem_cons_self ..)
          · rcases ih h with h | h
            · exact .inl (List.mem_cons_of_mem _ h)
            · exact .inr h

/-- Every write keeps the canonical form. -/
@[simp] theorem tabWf_tset (d : α) (t : Tab α) (k : Nat) (v : α) (h : tabWf d t = true) : tabWf d (tset d t k v) = true := by
  rw [tabWf_iff] at h ⊢
  refine ⟨keysUp_tset d t k v h.1, fun p hp => ?_⟩
  rcases mem_tput t k _ p hp with hp | ⟨w, hw, rfl⟩
  · exact h.2 p hp
  · split at hw
    · cases hw
    · cases hw; assumption

@[simp] theorem tabWf_nil (d : α) : tabWf d [] = true := rfl

@[simp] theorem tabWf_filter (d : α) (t : Tab α) (p : Nat × α → Bool) (h : tabWf d t = true) :
    tabWf d (t.filter p) = true := by
  rw [tabWf_iff] at h ⊢
  exact ⟨keysUp_filter t p h.1, fun q hq => h.2 q ((List.mem_filter.1 hq).1)⟩

end

/-! ### Byte memories -/

@[simp] theorem tabWf_wrByte (m : Tab Byte) (a : Nat) (b : Byte) (h : tabWf 0 m = true) : tabWf 0 (wrByte m a b) = true :=
  tabWf_tset 0 m a b h

@[simp] theorem tabWf_wrBytes (m : Tab Byte) (a : Nat) (l : List Byte) (h : tabWf 0 m = true) :
    tabWf 0 (wrBytes m a l) = true := by
  induction l generalizing m a with
  | nil => exact h
  | cons b r ih => exact ih _ _ (tabWf_wrByte m a b h)

@[simp] theorem tabWf_wrLe (m : Tab Byte) (a n w : Nat) (h : tabWf 0 m = true) : tabWf 0 (wrLe m a n w) = true :=
  tabWf_wrBytes m a _ h

/-- A byte outside those written reads as before. -/
theorem rdByte_wrBytes_ne (m : Tab Byte) (a j : Nat) (l : List Byte) (h : j < a ∨ a + l.length ≤ j) :
    rdByte (wrBytes m a l) j = rdByte m j := by
  induction l generalizing m a with
  | nil => rfl
  | cons b r ih =>
    simp only [List.length_cons] at h
    rw [wrBytes, ih _ _ (by omega)]
    exact tget_tset_ne 0 m a j b (by omega)

/-- A byte among those written reads as written. -/
theorem rdByte_wrBytes_self (m : Tab Byte) (a i : Nat) (l : List Byte) (h : i < l.length) :
    rdByte (wrBytes m a l) (a + i) = l[i] := by
  induction l generalizing m a i with
  | nil => simp at h
  | cons b r ih =>
    rw [wrBytes]
    cases i with
    | zero =>
      rw [Nat.add_zero, rdByte_wrBytes_ne _ _ _ _ (by omega)]
      exact tget_tset_self 0 m a b
    | succ i =>
      have := ih (wrByte m a b) (a + 1) i (by simpa using h)
      simpa [Nat.add_assoc, Nat.add_comm 1 i] using this

end Sys2Proof.Machine
end

