-- ==== Sys2Proof/Laws/Ops.lean ====
section
/-!
SUPPORT. Counters and units: what a read gives after a write, one lemma for each operation.
-/

namespace Sys2Proof.Machine

/-! ### Counters -/

theorem State.ctr_count_ne (s : State) (k n j : Nat) (h : j ≠ k) : (s.count k n).ctr j = s.ctr j :=
  tget_tset_ne 0 s.cnt k j _ h

/-- A counter is raised by `n`, saturating. -/
theorem State.ctr_count_self (s : State) (k n : Nat) :
    (s.count k n).ctr k = min (s.ctr k + n) (2 ^ 64 - 1) :=
  tget_tset_self 0 s.cnt k _

/-- A counter stays within its width (R468). -/
theorem State.ctr_count_le (s : State) (k n j : Nat) (h : s.ctr j ≤ 2 ^ 64 - 1) :
    (s.count k n).ctr j ≤ 2 ^ 64 - 1 := by
  by_cases hj : j = k
  · subst hj; rw [ctr_count_self s j n]; omega
  · rw [ctr_count_ne s k n j hj]; exact h

theorem State.counts_nil (s : State) : s.counts [] = s := rfl
theorem State.counts_cons (s : State) (p : Nat × Nat) (l : List (Nat × Nat)) :
    s.counts (p :: l) = (s.count p.1 p.2).counts l := rfl

theorem State.ctr_counts_ne (s : State) (l : List (Nat × Nat)) (j : Nat) (h : ∀ p ∈ l, j ≠ p.1) :
    (s.counts l).ctr j = s.ctr j := by
  induction l generalizing s with
  | nil => rfl
  | cons p r ih =>
    rw [counts_cons, ih _ fun q hq => h q (List.mem_cons_of_mem _ hq)]
    exact ctr_count_ne s p.1 p.2 j (h p (List.mem_cons_self ..))

/-- What several raises add to one counter. -/
theorem State.ctr_counts (s : State) (l : List (Nat × Nat)) (j : Nat) (h : s.ctr j ≤ 2 ^ 64 - 1) :
    (s.counts l).ctr j = min (s.ctr j + ((l.filter fun p => p.1 == j).map (·.2)).sum) (2 ^ 64 - 1) := by
  induction l generalizing s with
  | nil => simp [counts_nil]; omega
  | cons p r ih =>
    rw [counts_cons, ih (s.count p.1 p.2) (ctr_count_le s _ _ _ h)]
    by_cases hp : p.1 = j
    · subst hp
      rw [ctr_count_self s p.1 p.2]
      simp
      omega
    · rw [ctr_count_ne s p.1 p.2 j (Ne.symm hp)]
      simp [hp]

end Sys2Proof.Machine
end

