-- ==== Sys2Proof/Laws/Core.lean ====
section
/-!
SUPPORT. What an instruction of a core does once it issues (R214): one lemma for each way of completing.
-/

namespace Sys2Proof.Machine

theorem State.core_setCore_ne (s : State) (k j : Nat) (c : Core) (h : j ≠ k) : (s.setCore k c).core j = s.core j :=
  tget_tset_ne Core.reset s.cores k j c h

@[simp] theorem State.core_setCore_self (s : State) (k : Nat) (c : Core) : (s.setCore k c).core k = c :=
  tget_tset_self Core.reset s.cores k c

theorem State.core_count (s : State) (k n j : Nat) : (s.count k n).core j = s.core j := rfl

theorem State.counts_eq (s : State) (l : List (Nat × Nat)) : s.counts l = { s with cnt := (s.counts l).cnt } := by
  induction l generalizing s with
  | nil => rfl
  | cons p r ih => rw [counts_cons, ih]; rfl

/-- Everything that completing an instruction does (R213, R214). -/
theorem State.retire_spec (s : State) (k : Nat) (f : Fx) (hi : (s.core k).idx ≤ 16383)
    (hn : ∀ p ∈ f.n, p.1 < 24) :
    s.onlyCore k (s.retire k f) ∧ (s.retire k f).core k = { f.c with idx := (s.core k).idx + 1 } ∧
      (s.ctrOk → ∀ o, o < 24 → (s.retire k f).ctr (kCore k o) =
        min (s.ctr (kCore k o) + f.total o + if o = 0 then 1 else 0) (2 ^ 64 - 1)) := by
  have hm : ((s.core k).idx + 1) % 2 ^ 32 = (s.core k).idx + 1 := Nat.mod_eq_of_lt (by omega)
  have hcore : ∀ j, (s.retire k f).core j = (s.setCore k { f.c with idx := (s.core k).idx + 1 }).core j := by
    intro j; rw [retire, hm, core_count, counts_eq]; rfl
  have hk : ∀ o, (kCore k o) = 24 * k + o := fun _ => rfl
  refine ⟨⟨?_, fun j hj => ?_, fun n hn' => ?_⟩, ?_, fun h o ho => ?_⟩
  · rw [retire, counts_eq]; rfl
  · rw [hcore]; exact core_setCore_ne s k j _ hj
  · rw [retire, ctr_count_ne _ _ _ _ (by rw [hk]; omega), ctr_counts_ne]
    · rfl
    · intro p hp
      obtain ⟨q, hq, rfl⟩ := List.mem_map.1 hp
      have := hn q hq
      simp only [hk]; omega
  · rw [hcore]; exact core_setCore_self s k _
  · have hs : ∀ c, (s.setCore k c).ctr (kCore k o) = s.ctr (kCore k o) := fun _ => rfl
    have hl := ctr_counts (s.setCore k { f.c with idx := ((s.core k).idx + 1) % 2 ^ 32 })
      (f.n.map fun p => (kCore k p.1, p.2)) (kCore k o) (h _)
    clear hcore
    have ht : (((f.n.map fun p => (kCore k p.1, p.2)).filter fun p => p.1 == kCore k o).map (·.2)).sum = f.total o := by
      rw [Fx.total, List.filter_map, List.map_map]
      have : ((fun p : Nat × Nat => p.1 == kCore k o) ∘ fun p : Nat × Nat => (kCore k p.1, p.2)) = fun p => p.1 == o := by
        funext p
        simp only [Function.comp, hk]
        rw [Bool.eq_iff_iff]
        simp
      rw [this]
      rfl
    rw [hs, ht] at hl
    rw [retire]
    by_cases h0 : o = 0
    · subst h0
      rw [ctr_count_self, hl]
      simp; omega
    · rw [ctr_count_ne _ _ _ _ (by simp only [hk]; omega), hl]
      simp [h0]

/-- A register instruction that issues completes with its effect on the core. -/
theorem State.reg_spec (s : State) (k : Nat) (legal : Bool) (f : Core → Fx) (h : s.issues k) (hl : legal = true) :
    s.reg k legal f = .next (s.retire k (f (s.core k))) := by
  obtain ⟨h1, h2, h3⟩ := h
  simp [reg, issue, inUnit, h1, h2, hl, Nat.not_lt.2 h3]

end Sys2Proof.Machine
end

