-- ==== Sys2Proof/Laws/Dispatch.lean ====
section
/-!
SUPPORT. The dispatch, one equation for each command.
-/

namespace Sys2Proof.Machine

theorem exec_supplyGood (s : State) : exec .supplyGood s = execSupplyGood s := rfl
theorem exec_railTrip (rail : Nat) (intentReads : Bool) (s : State) : exec (.railTrip rail intentReads) s = execRailTrip rail intentReads s := rfl
theorem exec_supplyGlitch (rail : Nat) (s : State) : exec (.supplyGlitch rail) s = execSupplyGlitch rail s := rfl
theorem exec_bootSequence (romOk : Bool) (vreq : Nat) (s : State) : exec (.bootSequence romOk vreq) s = execBootSequence romOk vreq s := rfl
theorem exec_recoveryBudgetExpiry (s : State) : exec .recoveryBudgetExpiry s = execRecoveryBudgetExpiry s := rfl
theorem exec_linkTrainingEnd (s : State) : exec .linkTrainingEnd s = execLinkTrainingEnd s := rfl
theorem exec_clockAcquisitionTimeout (s : State) : exec .clockAcquisitionTimeout s = execClockAcquisitionTimeout s := rfl
theorem exec_fabricConvergence (s : State) : exec .fabricConvergence s = execFabricConvergence s := rfl
theorem exec_warmReset (c : Cmd) (s : State) : exec (.warmReset c) s = execWarmReset c s := rfl
theorem exec_warmResetDrainDone (s : State) : exec .warmResetDrainDone s = execWarmResetDrainDone s := rfl
theorem exec_quantumBoundary (s : State) : exec .quantumBoundary s = execQuantumBoundary s := rfl
theorem exec_useRecentHalve (s : State) : exec .useRecentHalve s = execUseRecentHalve s := rfl
theorem exec_scheduleRelease (idx : Nat) (s : State) : exec (.scheduleRelease idx) s = execScheduleRelease idx s := rfl
theorem exec_deadline (s : State) : exec .deadline s = execDeadline s := rfl
theorem exec_lateResultDiscard (s : State) : exec .lateResultDiscard s = execLateResultDiscard s := rfl
theorem exec_coreDeadlineReached (core : Nat) (s : State) : exec (.coreDeadlineReached core) s = execCoreDeadlineReached core s := rfl
theorem exec_timeWaitResume (core : Nat) (s : State) : exec (.timeWaitResume core) s = execTimeWaitResume core s := rfl
theorem exec_sourceQualified (src : Nat) (ppb : Int) (s : State) : exec (.sourceQualified src ppb) s = execSourceQualified src ppb s := rfl
theorem exec_stabilityTestPass (src sec frac : Nat) (errs : List Int) (s : State) : exec (.stabilityTestPass src sec frac errs) s = execStabilityTestPass src sec frac errs s := rfl
theorem exec_slewComplete (s : State) : exec .slewComplete s = execSlewComplete s := rfl
theorem exec_sourceLost (src : Nat) (s : State) : exec (.sourceLost src) s = execSourceLost src s := rfl
theorem exec_phaseStep (errs : List Int) (s : State) : exec (.phaseStep errs) s = execPhaseStep errs s := rfl
theorem exec_holdoverExpiry (s : State) : exec .holdoverExpiry s = execHoldoverExpiry s := rfl
theorem exec_revertHoldoffExpiry (src : Nat) (s : State) : exec (.revertHoldoffExpiry src) s = execRevertHoldoffExpiry src s := rfl
theorem exec_mediaPacketRx (port : Nat) (p : MediaPkt) (s : State) : exec (.mediaPacketRx port p) s = execMediaPacketRx port p s := rfl
theorem exec_mediaPacketTx (stream : Nat) (s : State) : exec (.mediaPacketTx stream) s = execMediaPacketTx stream s := rfl
theorem exec_ptpMessageRx (port : Nat) (m : PtpMsg) (s : State) : exec (.ptpMessageRx port m) s = execPtpMessageRx port m s := rfl
theorem exec_arpIcmpRx (port : Nat) (kind : LanKind) (vid : Option Nat) (target sender : Nat) (payload : List Byte) (s : State) : exec (.arpIcmpRx port kind vid target sender payload) s = execArpIcmpRx port kind vid target sender payload s := rfl
theorem exec_mediaLinkDown (port : Nat) (s : State) : exec (.mediaLinkDown port) s = execMediaLinkDown port s := rfl
theorem exec_mediaLinkUp (port : Nat) (s : State) : exec (.mediaLinkUp port) s = execMediaLinkUp port s := rfl
theorem exec_mediaStreamStop (s : State) : exec .mediaStreamStop s = execMediaStreamStop s := rfl
theorem exec_madiFrameRx (port : Nat) (subs : List MadiSub) (s : State) : exec (.madiFrameRx port subs) s = execMadiFrameRx port subs s := rfl
theorem exec_madiFrameTx (port : Nat) (s : State) : exec (.madiFrameTx port) s = execMadiFrameTx port s := rfl
theorem exec_tetherStreamRx (m : Msg) (s : State) : exec (.tetherStreamRx m) s = execTetherStreamRx m s := rfl
theorem exec_rowReceive (m : Msg) (s : State) : exec (.rowReceive m) s = execRowReceive m s := rfl
theorem exec_passIssue (arr delayNs : Nat) (s : State) : exec (.passIssue arr delayNs) s = execPassIssue arr delayNs s := rfl
theorem exec_flankGroupOut (arr group : Nat) (dev : List Int) (s : State) : exec (.flankGroupOut arr group dev) s = execFlankGroupOut arr group dev s := rfl
theorem exec_rerunPass (arr : Nat) (s : State) : exec (.rerunPass arr) s = execRerunPass arr s := rfl
theorem exec_joinReduce (arr slot tpos : Nat) (s : State) : exec (.joinReduce arr slot tpos) s = execJoinReduce arr slot tpos s := rfl
theorem exec_adapterTermReceive (arr slot tpos : Nat) (s : State) : exec (.adapterTermReceive arr slot tpos) s = execAdapterTermReceive arr slot tpos s := rfl
theorem exec_calConditionCheck (arr : Nat) (temp : Int) (s : State) : exec (.calConditionCheck arr temp) s = execCalConditionCheck arr temp s := rfl
theorem exec_calSlice (arr passes : Nat) (s : State) : exec (.calSlice arr passes) s = execCalSlice arr passes s := rfl
theorem exec_calibrationComplete (arr : Nat) (meas : List CalMeas) (curves : List (List Int)) (s : State) : exec (.calibrationComplete arr meas curves) s = execCalibrationComplete arr meas curves s := rfl
theorem exec_planeProgram (arr plane : Nat) (env : List (Nat × CellEnv)) (s : State) : exec (.planeProgram arr plane env) s = execPlaneProgram arr plane env s := rfl
theorem exec_planeProgramDone (arr : Nat) (meas : CalMeas) (off : List StuckCell) (s : State) : exec (.planeProgramDone arr meas off) s = execPlaneProgramDone arr meas off s := rfl
theorem exec_columnProgram (arr plane : Nat) (cols : List Nat) (stuck : List StuckCell) (s : State) : exec (.columnProgram arr plane cols stuck) s = execColumnProgram arr plane cols stuck s := rfl
theorem exec_spareRemap (arr plane col : Nat) (stuck : List StuckCell) (s : State) : exec (.spareRemap arr plane col stuck) s = execSpareRemap arr plane col stuck s := rfl
theorem exec_probeSave (arr desc : Nat) (s : State) : exec (.probeSave arr desc) s = execProbeSave arr desc s := rfl
theorem exec_adapterTrainStep (arr desc : Nat) (rows ga gb : List Nat) (s : State) : exec (.adapterTrainStep arr desc rows ga gb) s = execAdapterTrainStep arr desc rows ga gb s := rfl
theorem exec_adapterCandidateEval (arr desc rank : Nat) (s : State) : exec (.adapterCandidateEval arr desc rank) s = execAdapterCandidateEval arr desc rank s := rfl
theorem exec_adapterWriteback (s : State) : exec .adapterWriteback s = execAdapterWriteback s := rfl
theorem exec_phaseSwitch (core : Nat) (compute : Bool) (s : State) : exec (.phaseSwitch core compute) s = execPhaseSwitch core compute s := rfl
theorem exec_dataDeliver (m : Msg) (s : State) : exec (.dataDeliver m) s = execDataDeliver m s := rfl
theorem exec_resultDeliver (m : Msg) (s : State) : exec (.resultDeliver m) s = execResultDeliver m s := rfl
theorem exec_taskEnqueue (m : Msg) (s : State) : exec (.taskEnqueue m) s = execTaskEnqueue m s := rfl
theorem exec_loftReadReq (m : Msg) (s : State) : exec (.loftReadReq m) s = execLoftReadReq m s := rfl
theorem exec_loftWrite (m : Msg) (s : State) : exec (.loftWrite m) s = execLoftWrite m s := rfl
theorem exec_dmaTransferComplete (core : Nat) (s : State) : exec (.dmaTransferComplete core) s = execDmaTransferComplete core s := rfl
theorem exec_syncSignal (obj n : Nat) (src : SyncSrc) (s : State) : exec (.syncSignal obj n src) s = execSyncSignal obj n src s := rfl
theorem exec_syncArrive (obj : Nat) (src : SyncSrc) (s : State) : exec (.syncArrive obj src) s = execSyncArrive obj src s := rfl
theorem exec_syncSet (obj : Nat) (src : SyncSrc) (s : State) : exec (.syncSet obj src) s = execSyncSet obj src s := rfl
theorem exec_syncClear (obj : Nat) (src : SyncSrc) (s : State) : exec (.syncClear obj src) s = execSyncClear obj src s := rfl
theorem exec_syncWait (obj n core : Nat) (s : State) : exec (.syncWait obj n core) s = execSyncWait obj n core s := rfl
theorem exec_syncWaitset (obj core : Nat) (s : State) : exec (.syncWaitset obj core) s = execSyncWaitset obj core s := rfl
theorem exec_syncRead (obj core : Nat) (s : State) : exec (.syncRead obj core) s = execSyncRead obj core s := rfl
theorem exec_coreWake (core : Nat) (s : State) : exec (.coreWake core) s = execCoreWake core s := rfl
theorem exec_taskAvailable (core : Nat) (s : State) : exec (.taskAvailable core) s = execTaskAvailable core s := rfl
theorem exec_iNop (core : Nat) (ops : BitVec 23) (s : State) : exec (.iNop core ops) s = execINop core ops s := rfl
theorem exec_iAdd (core : Nat) (ops : BitVec 23) (s : State) : exec (.iAdd core ops) s = execIAdd core ops s := rfl
theorem exec_iSub (core : Nat) (ops : BitVec 23) (s : State) : exec (.iSub core ops) s = execISub core ops s := rfl
theorem exec_iMul (core : Nat) (ops : BitVec 23) (s : State) : exec (.iMul core ops) s = execIMul core ops s := rfl
theorem exec_iAnd (core : Nat) (ops : BitVec 23) (s : State) : exec (.iAnd core ops) s = execIAnd core ops s := rfl
theorem exec_iOr (core : Nat) (ops : BitVec 23) (s : State) : exec (.iOr core ops) s = execIOr core ops s := rfl
theorem exec_iXor (core : Nat) (ops : BitVec 23) (s : State) : exec (.iXor core ops) s = execIXor core ops s := rfl
theorem exec_iShl (core : Nat) (ops : BitVec 23) (s : State) : exec (.iShl core ops) s = execIShl core ops s := rfl
theorem exec_iShr (core : Nat) (ops : BitVec 23) (s : State) : exec (.iShr core ops) s = execIShr core ops s := rfl
theorem exec_iSra (core : Nat) (ops : BitVec 23) (s : State) : exec (.iSra core ops) s = execISra core ops s := rfl
theorem exec_iSlt (core : Nat) (ops : BitVec 23) (s : State) : exec (.iSlt core ops) s = execISlt core ops s := rfl
theorem exec_iSltu (core : Nat) (ops : BitVec 23) (s : State) : exec (.iSltu core ops) s = execISltu core ops s := rfl
theorem exec_iMin (core : Nat) (ops : BitVec 23) (s : State) : exec (.iMin core ops) s = execIMin core ops s := rfl
theorem exec_iMax (core : Nat) (ops : BitVec 23) (s : State) : exec (.iMax core ops) s = execIMax core ops s := rfl
theorem exec_iAddi (core : Nat) (ops : BitVec 23) (s : State) : exec (.iAddi core ops) s = execIAddi core ops s := rfl
theorem exec_iAndi (core : Nat) (ops : BitVec 23) (s : State) : exec (.iAndi core ops) s = execIAndi core ops s := rfl
theorem exec_iOri (core : Nat) (ops : BitVec 23) (s : State) : exec (.iOri core ops) s = execIOri core ops s := rfl
theorem exec_iLui (core : Nat) (ops : BitVec 23) (s : State) : exec (.iLui core ops) s = execILui core ops s := rfl
theorem exec_iLlo (core : Nat) (ops : BitVec 23) (s : State) : exec (.iLlo core ops) s = execILlo core ops s := rfl
theorem exec_iLd (core : Nat) (ops : BitVec 23) (s : State) : exec (.iLd core ops) s = execILd core ops s := rfl
theorem exec_iSt (core : Nat) (ops : BitVec 23) (s : State) : exec (.iSt core ops) s = execISt core ops s := rfl
theorem exec_iBeq (core : Nat) (ops : BitVec 23) (s : State) : exec (.iBeq core ops) s = execIBeq core ops s := rfl
theorem exec_iBne (core : Nat) (ops : BitVec 23) (s : State) : exec (.iBne core ops) s = execIBne core ops s := rfl
theorem exec_iBlt (core : Nat) (ops : BitVec 23) (s : State) : exec (.iBlt core ops) s = execIBlt core ops s := rfl
theorem exec_iBge (core : Nat) (ops : BitVec 23) (s : State) : exec (.iBge core ops) s = execIBge core ops s := rfl
theorem exec_iJal (core : Nat) (ops : BitVec 23) (s : State) : exec (.iJal core ops) s = execIJal core ops s := rfl
theorem exec_iJr (core : Nat) (ops : BitVec 23) (s : State) : exec (.iJr core ops) s = execIJr core ops s := rfl
theorem exec_iMfs (core : Nat) (ops : BitVec 23) (s : State) : exec (.iMfs core ops) s = execIMfs core ops s := rfl
theorem exec_iMts (core : Nat) (ops : BitVec 23) (s : State) : exec (.iMts core ops) s = execIMts core ops s := rfl
theorem exec_iScalec (core : Nat) (ops : BitVec 23) (s : State) : exec (.iScalec core ops) s = execIScalec core ops s := rfl
theorem exec_iScmax (core : Nat) (ops : BitVec 23) (s : State) : exec (.iScmax core ops) s = execIScmax core ops s := rfl
theorem exec_iVadd (core : Nat) (ops : BitVec 23) (s : State) : exec (.iVadd core ops) s = execIVadd core ops s := rfl
theorem exec_iVsub (core : Nat) (ops : BitVec 23) (s : State) : exec (.iVsub core ops) s = execIVsub core ops s := rfl
theorem exec_iVmul (core : Nat) (ops : BitVec 23) (s : State) : exec (.iVmul core ops) s = execIVmul core ops s := rfl
theorem exec_iVmac (core : Nat) (ops : BitVec 23) (s : State) : exec (.iVmac core ops) s = execIVmac core ops s := rfl
theorem exec_iVmin (core : Nat) (ops : BitVec 23) (s : State) : exec (.iVmin core ops) s = execIVmin core ops s := rfl
theorem exec_iVmax (core : Nat) (ops : BitVec 23) (s : State) : exec (.iVmax core ops) s = execIVmax core ops s := rfl
theorem exec_iVabs (core : Nat) (ops : BitVec 23) (s : State) : exec (.iVabs core ops) s = execIVabs core ops s := rfl
theorem exec_iVand (core : Nat) (ops : BitVec 23) (s : State) : exec (.iVand core ops) s = execIVand core ops s := rfl
theorem exec_iVor (core : Nat) (ops : BitVec 23) (s : State) : exec (.iVor core ops) s = execIVor core ops s := rfl
theorem exec_iVxor (core : Nat) (ops : BitVec 23) (s : State) : exec (.iVxor core ops) s = execIVxor core ops s := rfl
theorem exec_iVshl (core : Nat) (ops : BitVec 23) (s : State) : exec (.iVshl core ops) s = execIVshl core ops s := rfl
theorem exec_iVsra (core : Nat) (ops : BitVec 23) (s : State) : exec (.iVsra core ops) s = execIVsra core ops s := rfl
theorem exec_iVcmplt (core : Nat) (ops : BitVec 23) (s : State) : exec (.iVcmplt core ops) s = execIVcmplt core ops s := rfl
theorem exec_iVsel (core : Nat) (ops : BitVec 23) (s : State) : exec (.iVsel core ops) s = execIVsel core ops s := rfl
theorem exec_iVbcast (core : Nat) (ops : BitVec 23) (s : State) : exec (.iVbcast core ops) s = execIVbcast core ops s := rfl
theorem exec_iVcvt (core : Nat) (ops : BitVec 23) (s : State) : exec (.iVcvt core ops) s = execIVcvt core ops s := rfl
theorem exec_iVscale (core : Nat) (ops : BitVec 23) (s : State) : exec (.iVscale core ops) s = execIVscale core ops s := rfl
theorem exec_iVrsum (core : Nat) (ops : BitVec 23) (s : State) : exec (.iVrsum core ops) s = execIVrsum core ops s := rfl
theorem exec_iVrmax (core : Nat) (ops : BitVec 23) (s : State) : exec (.iVrmax core ops) s = execIVrmax core ops s := rfl
theorem exec_iVamax (core : Nat) (ops : BitVec 23) (s : State) : exec (.iVamax core ops) s = execIVamax core ops s := rfl
theorem exec_iVquant (core : Nat) (ops : BitVec 23) (s : State) : exec (.iVquant core ops) s = execIVquant core ops s := rfl
theorem exec_iVld (core : Nat) (ops : BitVec 23) (s : State) : exec (.iVld core ops) s = execIVld core ops s := rfl
theorem exec_iVst (core : Nat) (ops : BitVec 23) (s : State) : exec (.iVst core ops) s = execIVst core ops s := rfl
theorem exec_iMldw (core : Nat) (ops : BitVec 23) (s : State) : exec (.iMldw core ops) s = execIMldw core ops s := rfl
theorem exec_iMmac (core : Nat) (ops : BitVec 23) (s : State) : exec (.iMmac core ops) s = execIMmac core ops s := rfl
theorem exec_iMdrain (core : Nat) (ops : BitVec 23) (s : State) : exec (.iMdrain core ops) s = execIMdrain core ops s := rfl
theorem exec_iDrd (core : Nat) (ops : BitVec 23) (s : State) : exec (.iDrd core ops) s = execIDrd core ops s := rfl
theorem exec_iDwr (core : Nat) (ops : BitVec 23) (s : State) : exec (.iDwr core ops) s = execIDwr core ops s := rfl
theorem exec_iDwait (core : Nat) (ops : BitVec 23) (s : State) : exec (.iDwait core ops) s = execIDwait core ops s := rfl
theorem exec_iSend (core : Nat) (ops : BitVec 23) (s : State) : exec (.iSend core ops) s = execISend core ops s := rfl
theorem exec_iRsetup (core : Nat) (ops : BitVec 23) (s : State) : exec (.iRsetup core ops) s = execIRsetup core ops s := rfl
theorem exec_iRadv (core : Nat) (ops : BitVec 23) (s : State) : exec (.iRadv core ops) s = execIRadv core ops s := rfl
theorem exec_iRstat (core : Nat) (ops : BitVec 23) (s : State) : exec (.iRstat core ops) s = execIRstat core ops s := rfl
theorem exec_iAeval (core : Nat) (ops : BitVec 23) (s : State) : exec (.iAeval core ops) s = execIAeval core ops s := rfl
theorem exec_iSig (core : Nat) (ops : BitVec 23) (s : State) : exec (.iSig core ops) s = execISig core ops s := rfl
theorem exec_iArrive (core : Nat) (ops : BitVec 23) (s : State) : exec (.iArrive core ops) s = execIArrive core ops s := rfl
theorem exec_iSset (core : Nat) (ops : BitVec 23) (s : State) : exec (.iSset core ops) s = execISset core ops s := rfl
theorem exec_iSclr (core : Nat) (ops : BitVec 23) (s : State) : exec (.iSclr core ops) s = execISclr core ops s := rfl
theorem exec_iSwait (core : Nat) (ops : BitVec 23) (s : State) : exec (.iSwait core ops) s = execISwait core ops s := rfl
theorem exec_iSwaitset (core : Nat) (ops : BitVec 23) (s : State) : exec (.iSwaitset core ops) s = execISwaitset core ops s := rfl
theorem exec_iSread (core : Nat) (ops : BitVec 23) (s : State) : exec (.iSread core ops) s = execISread core ops s := rfl
theorem exec_iQend (core : Nat) (ops : BitVec 23) (s : State) : exec (.iQend core ops) s = execIQend core ops s := rfl
theorem exec_iTake (core : Nat) (ops : BitVec 23) (s : State) : exec (.iTake core ops) s = execITake core ops s := rfl
theorem exec_iTend (core : Nat) (ops : BitVec 23) (s : State) : exec (.iTend core ops) s = execITend core ops s := rfl
theorem exec_iTnow (core : Nat) (ops : BitVec 23) (s : State) : exec (.iTnow core ops) s = execITnow core ops s := rfl
theorem exec_iTwait (core : Nat) (ops : BitVec 23) (s : State) : exec (.iTwait core ops) s = execITwait core ops s := rfl
theorem exec_iTwaitq (core : Nat) (ops : BitVec 23) (s : State) : exec (.iTwaitq core ops) s = execITwaitq core ops s := rfl
theorem exec_iTdline (core : Nat) (ops : BitVec 23) (s : State) : exec (.iTdline core ops) s = execITdline core ops s := rfl
theorem exec_reelFillStart (reel : Nat) (s : State) : exec (.reelFillStart reel) s = execReelFillStart reel s := rfl
theorem exec_reelFillComplete (reel : Nat) (env : List (Nat × CellEnv)) (stalls : List Nat) (data : List Byte) (s : State) : exec (.reelFillComplete reel env stalls data) s = execReelFillComplete reel env stalls data s := rfl
theorem exec_reelRelease (m : Msg) (s : State) : exec (.reelRelease m) s = execReelRelease m s := rfl
theorem exec_reelLateNotify (reel core : Nat) (s : State) : exec (.reelLateNotify reel core) s = execReelLateNotify reel core s := rfl
theorem exec_fabricMessageSend (m : Msg) (s : State) : exec (.fabricMessageSend m) s = execFabricMessageSend m s := rfl
theorem exec_flitReceive (port : Nat) (f : Flit) (fec : List Nat) (s : State) : exec (.flitReceive port f fec) s = execFlitReceive port f fec s := rfl
theorem exec_fecUncorrLimit (port : Nat) (s : State) : exec (.fecUncorrLimit port) s = execFecUncorrLimit port s := rfl
theorem exec_linkLossOfSignal (port : Nat) (s : State) : exec (.linkLossOfSignal port) s = execLinkLossOfSignal port s := rfl
theorem exec_linkTrained (port : Nat) (s : State) : exec (.linkTrained port) s = execLinkTrained port s := rfl
theorem exec_trainingTimeout (port : Nat) (s : State) : exec (.trainingTimeout port) s = execTrainingTimeout port s := rfl
theorem exec_versionExchange (port lo hi : Nat) (s : State) : exec (.versionExchange port lo hi) s = execVersionExchange port lo hi s := rfl
theorem exec_versionRetry (port : Nat) (s : State) : exec (.versionRetry port) s = execVersionRetry port s := rfl
theorem exec_neighbourExchange (port : Nat) (n : Neighbour) (s : State) : exec (.neighbourExchange port n) s = execNeighbourExchange port n s := rfl
theorem exec_lsrReceive (port : Nat) (r : Lsr) (s : State) : exec (.lsrReceive port r) s = execLsrReceive port r s := rfl
theorem exec_lsrPeriodic (s : State) : exec .lsrPeriodic s = execLsrPeriodic s := rfl
theorem exec_lsrExpiry (uid : Nat) (s : State) : exec (.lsrExpiry uid) s = execLsrExpiry uid s := rfl
theorem exec_linkDelayMeasure (port delay : Nat) (s : State) : exec (.linkDelayMeasure port delay) s = execLinkDelayMeasure port delay s := rfl
theorem exec_timeFlitReceive (port : Nat) (t : TimeFlit) (residence : Nat) (s : State) : exec (.timeFlitReceive port t residence) s = execTimeFlitReceive port t residence s := rfl
theorem exec_heartbeatReceive (h : Heartbeat) (s : State) : exec (.heartbeatReceive h) s = execHeartbeatReceive h s := rfl
theorem exec_peerDeclaredFailed (addr : Nat) (s : State) : exec (.peerDeclaredFailed addr) s = execPeerDeclaredFailed addr s := rfl
theorem exec_remapSelfApply (addr : Nat) (s : State) : exec (.remapSelfApply addr) s = execRemapSelfApply addr s := rfl
theorem exec_mcAckReceive (group member vc seq : Nat) (s : State) : exec (.mcAckReceive group member vc seq) s = execMcAckReceive group member vc seq s := rfl
theorem exec_mcPruneNotice (src group : Nat) (s : State) : exec (.mcPruneNotice src group) s = execMcPruneNotice src group s := rfl
theorem exec_bulkResendRequest (src transfer : Nat) (sectors : List Nat) (s : State) : exec (.bulkResendRequest src transfer sectors) s = execBulkResendRequest src transfer sectors s := rfl
theorem exec_resendRequestReceive (src transfer : Nat) (sectors : List Nat) (s : State) : exec (.resendRequestReceive src transfer sectors) s = execResendRequestReceive src transfer sectors s := rfl
theorem exec_switchReadyReport (model gen holder : Nat) (s : State) : exec (.switchReadyReport model gen holder) s = execSwitchReadyReport model gen holder s := rfl
theorem exec_switchTimeout (model : Nat) (s : State) : exec (.switchTimeout model) s = execSwitchTimeout model s := rfl
theorem exec_hostLinkDown (s : State) : exec .hostLinkDown s = execHostLinkDown s := rfl
theorem exec_hostLinkUp (rate width : Nat) (s : State) : exec (.hostLinkUp rate width) s = execHostLinkUp rate width s := rfl
theorem exec_hostFlr (s : State) : exec .hostFlr s = execHostFlr s := rfl
theorem exec_hostHotReset (s : State) : exec .hostHotReset s = execHostHotReset s := rfl
theorem exec_hostD3hotEntry (s : State) : exec .hostD3hotEntry s = execHostD3hotEntry s := rfl
theorem exec_hostD0Return (s : State) : exec .hostD0Return s = execHostD0Return s := rfl
theorem exec_portLaserFault (chiplet : Nat) (within60 : Bool) (s : State) : exec (.portLaserFault chiplet within60) s = execPortLaserFault chiplet within60 s := rfl
theorem exec_laserRetry (chiplet : Nat) (ok : Bool) (s : State) : exec (.laserRetry chiplet ok) s = execLaserRetry chiplet ok s := rfl
theorem exec_sqTailWrite (v : DWord) (s : State) : exec (.sqTailWrite v) s = execSqTailWrite v s := rfl
theorem exec_cqHeadWrite (v : DWord) (s : State) : exec (.cqHeadWrite v) s = execCqHeadWrite v s := rfl
theorem exec_eqHeadWrite (v : DWord) (s : State) : exec (.eqHeadWrite v) s = execEqHeadWrite v s := rfl
theorem exec_tqHeadWrite (v : DWord) (s : State) : exec (.tqHeadWrite v) s = execTqHeadWrite v s := rfl
theorem exec_ringCfgWrite (ring : Nat) (v : DWord) (s : State) : exec (.ringCfgWrite ring v) s = execRingCfgWrite ring v s := rfl
theorem exec_ringBaseWrite (ring : Nat) (v : DWord) (s : State) : exec (.ringBaseWrite ring v) s = execRingBaseWrite ring v s := rfl
theorem exec_evtSummaryClear (v : DWord) (s : State) : exec (.evtSummaryClear v) s = execEvtSummaryClear v s := rfl
theorem exec_clkStatusClear (v : Word) (s : State) : exec (.clkStatusClear v) s = execClkStatusClear v s := rfl
theorem exec_registerWrite (off : Nat) (v : DWord) (s : State) : exec (.registerWrite off v) s = execRegisterWrite off v s := rfl
theorem exec_bar0BadAccess (off size : Nat) (write : Bool) (s : State) : exec (.bar0BadAccess off size write) s = execBar0BadAccess off size write s := rfl
theorem exec_commandFetch (bytes data : List Byte) (listOk dmaOk : Bool) (s : State) : exec (.commandFetch bytes data listOk dmaOk) s = execCommandFetch bytes data listOk dmaOk s := rfl
theorem exec_peerCommand (src : Nat) (bytes data : List Byte) (s : State) : exec (.peerCommand src bytes data) s = execPeerCommand src bytes data s := rfl
theorem exec_negotiate (c : Cmd) (s : State) : exec (.negotiate c) s = execNegotiate c s := rfl
theorem exec_identify (c : Cmd) (s : State) : exec (.identify c) s = execIdentify c s := rfl
theorem exec_setRunState (c : Cmd) (s : State) : exec (.setRunState c) s = execSetRunState c s := rfl
theorem exec_cfgWrite (c : Cmd) (s : State) : exec (.cfgWrite c) s = execCfgWrite c s := rfl
theorem exec_cfgRead (c : Cmd) (s : State) : exec (.cfgRead c) s = execCfgRead c s := rfl
theorem exec_install (c : Cmd) (s : State) : exec (.install c) s = execInstall c s := rfl
theorem exec_installComplete (c : Cmd) (s : State) : exec (.installComplete c) s = execInstallComplete c s := rfl
theorem exec_activate (c : Cmd) (s : State) : exec (.activate c) s = execActivate c s := rfl
theorem exec_dirRead (c : Cmd) (s : State) : exec (.dirRead c) s = execDirRead c s := rfl
theorem exec_modelRemove (c : Cmd) (s : State) : exec (.modelRemove c) s = execModelRemove c s := rfl
theorem exec_spillRegister (c : Cmd) (s : State) : exec (.spillRegister c) s = execSpillRegister c s := rfl
theorem exec_calibrate (c : Cmd) (s : State) : exec (.calibrate c) s = execCalibrate c s := rfl
theorem exec_bist (c : Cmd) (s : State) : exec (.bist c) s = execBist c s := rfl
theorem exec_debugHalt (c : Cmd) (s : State) : exec (.debugHalt c) s = execDebugHalt c s := rfl
theorem exec_debugResume (c : Cmd) (s : State) : exec (.debugResume c) s = execDebugResume c s := rfl
theorem exec_counterRead (c : Cmd) (s : State) : exec (.counterRead c) s = execCounterRead c s := rfl
theorem exec_ripcordArm (c : Cmd) (s : State) : exec (.ripcordArm c) s = execRipcordArm c s := rfl
theorem exec_telemetry (c : Cmd) (s : State) : exec (.telemetry c) s = execTelemetry c s := rfl
theorem exec_eventlogRead (c : Cmd) (s : State) : exec (.eventlogRead c) s = execEventlogRead c s := rfl
theorem exec_attest (c : Cmd) (s : State) : exec (.attest c) s = execAttest c s := rfl
theorem exec_lcTransition (c : Cmd) (s : State) : exec (.lcTransition c) s = execLcTransition c s := rfl
theorem exec_lcKeygenComplete (keys : List Byte) (s : State) : exec (.lcKeygenComplete keys) s = execLcKeygenComplete keys s := rfl
theorem exec_reformat (c : Cmd) (s : State) : exec (.reformat c) s = execReformat c s := rfl
theorem exec_remapReturn (c : Cmd) (s : State) : exec (.remapReturn c) s = execRemapReturn c s := rfl
theorem exec_storeRead (sector : Nat) (env : CellEnv) (s : State) : exec (.storeRead sector env) s = execStoreRead sector env s := rfl
theorem exec_eraseResume (bank : Nat) (s : State) : exec (.eraseResume bank) s = execEraseResume bank s := rfl
theorem exec_poisonReport (sector : Nat) (s : State) : exec (.poisonReport sector) s = execPoisonReport sector s := rfl
theorem exec_storeProgramRequest (sector first : Nat) (data : List DWord) (allowClear sealCw : Bool) (by_ : Requester) (s : State) : exec (.storeProgramRequest sector first data allowClear sealCw by_) s = execStoreProgramRequest sector first data allowClear sealCw by_ s := rfl
theorem exec_programStepComplete (bank : Nat) (verifyOk : Bool) (s : State) : exec (.programStepComplete bank verifyOk) s = execProgramStepComplete bank verifyOk s := rfl
theorem exec_storeEraseRequest (sector : Nat) (by_ : Requester) (s : State) : exec (.storeEraseRequest sector by_) s = execStoreEraseRequest sector by_ s := rfl
theorem exec_eraseComplete (bank : Nat) (verifyOk : Bool) (s : State) : exec (.eraseComplete bank verifyOk) s = execEraseComplete bank verifyOk s := rfl
theorem exec_relocation (sector : Nat) (env : CellEnv) (s : State) : exec (.relocation sector env) s = execRelocation sector env s := rfl
theorem exec_patrolRead (sector : Nat) (env : CellEnv) (s : State) : exec (.patrolRead sector env) s = execPatrolRead sector env s := rfl
theorem exec_checkpointWrite (stack : Nat) (s : State) : exec (.checkpointWrite stack) s = execCheckpointWrite stack s := rfl
theorem exec_droopDetect (s : State) : exec .droopDetect s = execDroopDetect s := rfl
theorem exec_stretchHoldEnd (cycles : Nat) (s : State) : exec (.stretchHoldEnd cycles) s = execStretchHoldEnd cycles s := rfl
theorem exec_rampStepEnd (s : State) : exec .rampStepEnd s = execRampStepEnd s := rfl
theorem exec_sagDemandRise (rail depth : Nat) (s : State) : exec (.sagDemandRise rail depth) s = execSagDemandRise rail depth s := rfl
theorem exec_sagDemandFall (s : State) : exec .sagDemandFall s = execSagDemandFall s := rfl
theorem exec_tempEvaluation (dies : List Int) (s : State) : exec (.tempEvaluation dies) s = execTempEvaluation dies s := rfl
theorem exec_powerEvaluation (power : Nat) (rails : List (Nat × Nat)) (s : State) : exec (.powerEvaluation power rails) s = execPowerEvaluation power rails s := rfl
theorem exec_vreqAnnounce (mV : Nat) (s : State) : exec (.vreqAnnounce mV) s = execVreqAnnounce mV s := rfl
theorem exec_vreqApply (s : State) : exec .vreqApply s = execVreqApply s := rfl
theorem exec_entropyHealthFail (s : State) : exec .entropyHealthFail s = execEntropyHealthFail s := rfl
theorem exec_shutdownFadeDone (s : State) : exec .shutdownFadeDone s = execShutdownFadeDone s := rfl
theorem exec_shutdownSelftestStart (s : State) : exec .shutdownSelftestStart s = execShutdownSelftestStart s := rfl
theorem exec_selftestSliceEnd (o : SliceObs) (s : State) : exec (.selftestSliceEnd o) s = execSelftestSliceEnd o s := rfl
theorem exec_sliceBudgetExpiry (s : State) : exec .sliceBudgetExpiry s = execSliceBudgetExpiry s := rfl
theorem exec_shutdownSelftestLimit (s : State) : exec .shutdownSelftestLimit s = execShutdownSelftestLimit s := rfl
theorem exec_arrayFailRecord (arr : Nat) (s : State) : exec (.arrayFailRecord arr) s = execArrayFailRecord arr s := rfl
theorem exec_ripcordFire (s : State) : exec .ripcordFire s = execRipcordFire s := rfl
theorem exec_traceCopyDone (s : State) : exec .traceCopyDone s = execTraceCopyDone s := rfl
theorem exec_ripcordBroadcastReceive (tstamp src : Nat) (s : State) : exec (.ripcordBroadcastReceive tstamp src) s = execRipcordBroadcastReceive tstamp src s := rfl
theorem exec_debugHaltInstant (s : State) : exec .debugHaltInstant s = execDebugHaltInstant s := rfl
theorem exec_debugHalted (s : State) : exec .debugHalted s = execDebugHalted s := rfl
theorem exec_wordClockEdge (port : Nat) (s : State) : exec (.wordClockEdge port) s = execWordClockEdge port s := rfl
theorem exec_wordClockOutput (port : Nat) (s : State) : exec (.wordClockOutput port) s = execWordClockOutput port s := rfl
theorem exec_madiLockLost (port : Nat) (s : State) : exec (.madiLockLost port) s = execMadiLockLost port s := rfl
theorem exec_madiLockGained (port : Nat) (s : State) : exec (.madiLockGained port) s = execMadiLockGained port s := rfl
theorem exec_entropyTestsPass (s : State) : exec .entropyTestsPass s = execEntropyTestsPass s := rfl
theorem exec_fwdCompletionReceive (tag status result0 result1 : Nat) (data : List Byte) (s : State) : exec (.fwdCompletionReceive tag status result0 result1 data) s = execFwdCompletionReceive tag status result0 result1 data s := rfl
theorem exec_fwdTargetTimeout (tag : Nat) (s : State) : exec (.fwdTargetTimeout tag) s = execFwdTargetTimeout tag s := rfl
theorem exec_remapIndexReceive (failed index : Nat) (ret : Bool) (s : State) : exec (.remapIndexReceive failed index ret) s = execRemapIndexReceive failed index ret s := rfl
theorem exec_switchIndexReceive (model gen index : Nat) (s : State) : exec (.switchIndexReceive model gen index) s = execSwitchIndexReceive model gen index s := rfl
theorem exec_eventForwardReceive (rec : List Byte) (s : State) : exec (.eventForwardReceive rec) s = execEventForwardReceive rec s := rfl
theorem exec_columnProgramDone (arr : Nat) (meas : CalMeas) (s : State) : exec (.columnProgramDone arr meas) s = execColumnProgramDone arr meas s := rfl

end Sys2Proof.Machine
end

