-- ==== Sys2Proof/Laws/Trace.lean ====
section
/-!
SUPPORT. What recording trace can change (R480 to R483): one lemma for each way of recording.
-/

namespace Sys2Proof.Machine

/-- `t` differs from `s` only in counters, what is sent, the count of free values, the host's trace ring, the pending
interrupts, and the trace engines and rings. -/
def State.traced (s t : State) : Prop :=
  ∃ c o f q b e r n k, t = { s with
    cnt := c, out := o, free := f, host.tq := q, host.pba := b, obs.engines := e, obs.ring := r, obs.ringN := n, obs.copying := k }

theorem State.traced_refl (s : State) : s.traced s := ⟨_, _, _, _, _, _, _, _, _, rfl⟩

theorem State.traced.trans {s t u : State} (h : s.traced t) (g : t.traced u) : s.traced u := by
  obtain ⟨c, o, f, q, b, e, r, n, k, rfl⟩ := h
  obtain ⟨c', o', f', q', b', e', r', n', k', rfl⟩ := g
  exact ⟨_, _, _, _, _, _, _, _, _, rfl⟩

/-- A traced state as the changed fields of the old one. -/
theorem State.traced_eq {s t : State} (h : s.traced t) :
    t = { s with cnt := t.cnt, out := t.out, free := t.free, host.tq := t.host.tq, host.pba := t.host.pba, obs.engines := t.obs.engines,
                 obs.ring := t.obs.ring, obs.ringN := t.obs.ringN, obs.copying := t.obs.copying } := by
  obtain ⟨c, o, f, q, b, e, r, n, k, rfl⟩ := h
  rfl

theorem State.traced_irq (s : State) (r : Ring) : s.traced (s.irq r) := by
  unfold State.irq
  split
  · unfold State.msix
    split <;> exact ⟨_, _, _, _, _, _, _, _, _, rfl⟩
  · exact s.traced_refl

theorem State.traced_tqPut (s : State) (r : TrRec) : s.traced (s.tqPut r) := by
  unfold State.tqPut
  dsimp only
  split
  · exact State.traced.trans (t := { s.emit _ with host.tq.tail := _ }) ⟨_, _, _, _, _, _, _, _, _, rfl⟩ (State.traced_irq _ _)
  · exact ⟨_, _, _, _, _, _, _, _, _, rfl⟩

theorem State.traced_drainTrace (s : State) (n : Nat) : s.traced (s.drainTrace n) := by
  induction n generalizing s with
  | zero => exact s.traced_refl
  | succ n ih =>
    unfold State.drainTrace
    dsimp only
    split
    · split
      · exact State.traced.trans (State.traced.trans (t := { s with obs.copying := _ }) ⟨_, _, _, _, _, _, _, _, _, rfl⟩
          (State.traced_tqPut _ _)) (ih _)
      · exact s.traced_refl
    · split
      · exact State.traced.trans (State.traced.trans (t := { s with obs.ring := _ }) ⟨_, _, _, _, _, _, _, _, _, rfl⟩
          (State.traced_tqPut _ _)) (ih _)
      · split
        · exact s.traced_refl
        · split
          · exact s.traced_refl
          · exact State.traced.trans (t := { s with obs.engines := _, obs.ring := _, obs.ringN := _ }) ⟨_, _, _, _, _, _, _, _, _, rfl⟩ (ih _)

theorem State.traced_moveTrace (s : State) : s.traced s.moveTrace := s.traced_drainTrace _

theorem State.traced_setTrEng (s : State) (e : Nat) (g : TrEng) : s.traced (s.setTrEng e g) := ⟨_, _, _, _, _, _, _, _, _, rfl⟩

theorem State.traced_count (s : State) (k n : Nat) : s.traced (s.count k n) := ⟨_, _, _, _, _, _, _, _, _, rfl⟩

theorem State.traced_traceIn (s : State) (e : Nat) (r : TrRec) : s.traced (s.traceIn e r) := by
  unfold State.traceIn
  extract_lets _ g
  clear_value g
  split
  · exact ((s.traced_setTrEng _ _).trans (State.traced_count _ _ _)).trans (State.traced_moveTrace _)
  · exact (s.traced_setTrEng _ _).trans (State.traced_count _ _ _)

theorem State.traced_traceRec (s : State) (e kind tag aux : Nat) : s.traced (s.traceRec e kind tag aux) := by
  unfold State.traceRec
  split
  · exact s.traced_traceIn _ _
  · exact s.traced_refl

theorem State.traced_traceBegin (s : State) (e tag aux : Nat) : s.traced (s.traceBegin e tag aux) :=
  State.traced.trans (t := { s with obs.engines := _ }) ⟨_, _, _, _, _, _, _, _, _, rfl⟩ (State.traced_traceRec _ _ _ _ _)

theorem State.traced_traceEnd (s : State) (e kind tag aux : Nat) : s.traced (s.traceEnd e kind tag aux) :=
  s.traced_traceRec _ _ _ _

theorem State.traced_traceCyc (s : State) (e kind tag : Nat) : s.traced (s.traceCyc e kind tag) :=
  State.traced.trans (t := { s with free := _ }) ⟨_, _, _, _, _, _, _, _, _, rfl⟩ (State.traced_traceRec _ _ _ _ _)

theorem State.traced_marker (s : State) (m : Nat) : s.traced (s.marker m) := s.traced_traceRec _ _ _ _

/-! ### Counters -/

theorem State.ctrOk_count (s : State) (k n : Nat) (h : s.ctrOk) : (s.count k n).ctrOk :=
  fun j => s.ctr_count_le k n j (h j)

theorem State.cnt_irq (s : State) (r : Ring) : (s.irq r).cnt = s.cnt := by
  unfold State.irq State.msix
  split
  · split <;> rfl
  · rfl

theorem State.cnt_tqPut (s : State) (r : TrRec) : (s.tqPut r).cnt = s.cnt := by
  unfold State.tqPut
  dsimp only
  split
  · exact State.cnt_irq _ _
  · rfl

theorem State.cnt_drainTrace (s : State) (n : Nat) : (s.drainTrace n).cnt = s.cnt := by
  induction n generalizing s with
  | zero => rfl
  | succ n ih =>
    unfold State.drainTrace
    dsimp only
    split
    · split
      · rw [ih, State.cnt_tqPut]
      · rfl
    · split
      · rw [ih, State.cnt_tqPut]
      · split
        · rfl
        · split
          · rfl
          · rw [ih]; rfl

/-- A trace record is counted as captured or as lost, or trace is off; no other counter changes (R482). -/
theorem State.cnt_traceRec (s : State) (e kind tag aux : Nat) :
    (s.traceRec e kind tag aux).cnt = s.cnt ∨ (s.traceRec e kind tag aux).cnt = (s.count (kEngine 15) 1).cnt ∨
      (s.traceRec e kind tag aux).cnt = (s.count (kEngine 16) 1).cnt := by
  unfold State.traceRec
  split
  · unfold State.traceIn
    extract_lets _ g
    clear_value g
    split
    · exact .inr (.inl (State.cnt_drainTrace _ _))
    · exact .inr (.inr rfl)
  · exact .inl rfl

theorem State.ctr_traceRec (s : State) (e kind tag aux n : Nat) (h : n ≠ kEngine 15) (h' : n ≠ kEngine 16) :
    (s.traceRec e kind tag aux).ctr n = s.ctr n := by
  unfold State.ctr
  rcases s.cnt_traceRec e kind tag aux with g | g | g <;> rw [g]
  · exact State.ctr_count_ne _ _ _ _ h
  · exact State.ctr_count_ne _ _ _ _ h'

theorem State.ctrOk_traceRec (s : State) (e kind tag aux : Nat) (h : s.ctrOk) : (s.traceRec e kind tag aux).ctrOk := by
  unfold State.ctrOk State.ctr
  rcases s.cnt_traceRec e kind tag aux with g | g | g <;> rw [g]
  · exact h
  · exact State.ctrOk_count s _ _ h
  · exact State.ctrOk_count s _ _ h

end Sys2Proof.Machine
end

