-- ==== Sys2Proof/Laws/Events.lean ====
section
/-!
SUPPORT. What raising an event can change, and what a completion can (R407, R409, R484, R485).
-/

namespace Sys2Proof.Machine

/-- `t` differs from `s` only in what an event reaches: the event state, the host's event ring and summary, the event log, the
mesh, what is sent, and counters. -/
def State.told (s t : State) : Prop :=
  ∃ c o e q n v f b l m, t = { s with cnt := c, out := o, ev := e, host.eq := q, host.evCount := n, host.sev := v, host.eqOvf := f,
                                       host.pba := b, nv.log := l, grid.mesh := m }

theorem State.told_refl (s : State) : s.told s := ⟨_, _, _, _, _, _, _, _, _, _, rfl⟩

theorem State.told.trans {s t u : State} (h : s.told t) (g : t.told u) : s.told u := by
  obtain ⟨c, o, e, q, n, v, f, b, l, m, rfl⟩ := h
  obtain ⟨c', o', e', q', n', v', f', b', l', m', rfl⟩ := g
  exact ⟨_, _, _, _, _, _, _, _, _, _, rfl⟩

theorem State.told_eq {s t : State} (h : s.told t) :
    t = { s with cnt := t.cnt, out := t.out, ev := t.ev, host.eq := t.host.eq, host.evCount := t.host.evCount,
                 host.sev := t.host.sev, host.eqOvf := t.host.eqOvf, host.pba := t.host.pba, nv.log := t.nv.log, grid.mesh := t.grid.mesh } := by
  obtain ⟨c, o, e, q, n, v, f, b, l, m, rfl⟩ := h
  rfl

theorem State.told_count (s : State) (k n : Nat) : s.told (s.count k n) := ⟨_, _, _, _, _, _, _, _, _, _, rfl⟩

theorem State.told_irq (s : State) (r : Ring) : s.told (s.irq r) := by
  unfold State.irq State.msix
  (repeat' split) <;> exact ⟨_, _, _, _, _, _, _, _, _, _, rfl⟩

theorem State.told_postHost (s : State) (r : EvRec) : s.told (s.postHost r) := by
  unfold State.postHost
  dsimp only
  split
  · split
    · exact State.told.trans (t := { s with out := _, host.eq := _, host.evCount := _, host.sev := _ })
        ⟨_, _, _, _, _, _, _, _, _, _, rfl⟩ (State.told_irq _ _)
    · exact ⟨_, _, _, _, _, _, _, _, _, _, rfl⟩
  · exact ⟨_, _, _, _, _, _, _, _, _, _, rfl⟩

theorem State.told_send (s : State) (m : Msg) : s.told (s.send m) := by
  unfold State.send
  rw [State.counts_eq]
  exact ⟨_, _, _, _, _, _, _, _, _, _, rfl⟩

theorem State.told_forwardEv (s : State) (r : EvRec) : s.told (s.forwardEv r) := by
  unfold State.forwardEv
  split
  · split
    · exact State.told.trans (t := { s with ev.fwdCount := _ }) ⟨_, _, _, _, _, _, _, _, _, _, rfl⟩ (State.told_send _ _)
    · exact s.told_count _ _
  · exact s.told_refl

theorem State.told_logEv (s : State) (r : EvRec) : s.told (s.logEv r) := by
  unfold State.logEv
  (repeat' split) <;> exact ⟨_, _, _, _, _, _, _, _, _, _, rfl⟩

theorem State.told_postEv (s : State) (r : EvRec) : s.told (s.postEv r) := by
  unfold State.postEv
  split
  · exact ((s.told_postHost r).trans (State.told_logEv _ r)).trans (State.told_forwardEv _ r)
  · split
    · exact ⟨_, _, _, _, _, _, _, _, _, _, rfl⟩
    · exact s.told_count _ _

theorem State.told_raiseRecs (s : State) (e : EvKind) (b : Bool) (l : List (List Byte)) : s.told (s.raiseRecs e b l) := by
  induction l generalizing s b with
  | nil => exact s.told_refl
  | cons p r ih =>
    exact (State.told.trans (t := { s with ev.seq := s.ev.seq + 1 }) ⟨_, _, _, _, _, _, _, _, _, _, rfl⟩
      (State.told_postEv _ _)).trans (ih _ _)

/-- Raising an event changes only what an event reaches. -/
theorem State.told_raise (s : State) (e : EvKind) (l : List (Nat × Nat)) : s.told (s.raise e l) :=
  (s.told_count _ _).trans (State.told_raiseRecs _ _ _ _)

/-! ### Counters -/

/-- The counters that an event moves: the engine's of R471 for events, the routers', and the host's of lost ones. -/
def evCtr (n : Nat) : Prop := (1536 ≤ n ∧ n < 1792) ∨ n = kEngine 17 ∨ n = kEngine 18 ∨ n = kEngine 19 ∨ n = kHost 5

theorem State.ctrOk_counts (s : State) (l : List (Nat × Nat)) (h : s.ctrOk) : (s.counts l).ctrOk := by
  induction l generalizing s with
  | nil => exact h
  | cons p r ih => rw [State.counts_cons]; exact ih _ (State.ctrOk_count s _ _ h)

/-- `t`'s counters are those of `s` but for what events move. -/
def State.evCnt (s t : State) : Prop := (∀ n, ¬ evCtr n → t.ctr n = s.ctr n) ∧ (s.ctrOk → t.ctrOk)

theorem State.evCnt_refl (s : State) : s.evCnt s := ⟨fun _ _ => rfl, id⟩
theorem State.evCnt.trans {s t u : State} (h : s.evCnt t) (g : t.evCnt u) : s.evCnt u :=
  ⟨fun n hn => (g.1 n hn).trans (h.1 n hn), fun k => g.2 (h.2 k)⟩
theorem State.evCnt_of_cnt {s t : State} (h : t.cnt = s.cnt) : s.evCnt t :=
  ⟨fun n _ => by rw [State.ctr, State.ctr, h], fun k => by rw [State.ctrOk]; simp only [State.ctr, h]; exact k⟩
theorem State.evCnt_count (s : State) (k n : Nat) (h : evCtr k) : s.evCnt (s.count k n) :=
  ⟨fun j hj => State.ctr_count_ne s k n j fun e => hj (e ▸ h), State.ctrOk_count s k n⟩

theorem State.evCnt_postHost (s : State) (r : EvRec) : s.evCnt (s.postHost r) := by
  unfold State.postHost
  dsimp only
  split
  · split
    · exact State.evCnt_of_cnt (State.cnt_irq _ _)
    · exact State.evCnt_of_cnt rfl
  · exact State.evCnt_count { s with host.eqOvf := true } _ _ (by simp [evCtr])

theorem State.evCnt_counts (s : State) (l : List (Nat × Nat)) (h : ∀ p ∈ l, evCtr p.1) : s.evCnt (s.counts l) :=
  ⟨fun n hn => State.ctr_counts_ne s l n fun p hp e => hn (e ▸ h p hp), State.ctrOk_counts s l⟩

/-- A path of the mesh stays on the mesh (R181). -/
theorem meshPath_lt (f a b : Nat) (ha : a < 64) (hb : b < 64) : ∀ r ∈ meshPath f a b, r < 64 := by
  induction f generalizing a with
  | zero => simp [meshPath]
  | succ f ih =>
    unfold meshPath
    split
    · rintro r (_ | ⟨_, hr⟩)
      · exact ha
      · exact ih _ (by split <;> omega) r hr
    · split
      · rintro r (_ | ⟨_, hr⟩)
        · exact ha
        · exact ih _ (by split <;> omega) r hr
      · simp

theorem State.evCnt_send (s : State) (m : Msg) (h : routerOf m.src.toNat 0 < 64) (h' : routerOf m.dest.toNat m.sync < 64) :
    s.evCnt (s.send m) := by
  unfold State.send
  refine (State.evCnt_of_cnt (t := { s with grid.mesh := _ }) rfl).trans (State.evCnt_counts _ _ ?_)
  intro p hp
  obtain ⟨r, hr, rfl⟩ := List.mem_map.1 hp
  have := meshPath_lt _ _ _ h h' r hr
  exact .inl ⟨by simp [kRouter], by simp [kRouter]; omega⟩

/-- A remote destination leaves the mesh at router 63 (R179, R184). -/
theorem routerOf_remote (d c u q n : Nat) (hc : c < 8) (hu : u < 256) (hq : q < 256) :
    routerOf (BitVec.ofNat 32 (remoteAddr d c u q)).toNat n = 63 := by
  have h : (BitVec.ofNat 32 (remoteAddr d c u q)).toNat.testBit 31 = true := by
    rw [BitVec.toNat_ofNat, remoteAddr, localAddr, Nat.testBit_eq_decide_div_mod_eq, decide_eq_true_eq]
    omega
  unfold routerOf
  rw [h]
  rfl

theorem State.evCnt_forwardEv (s : State) (r : EvRec) : s.evCnt (s.forwardEv r) := by
  unfold State.forwardEv
  split
  · split
    · refine (State.evCnt_of_cnt (t := { s with ev.fwdCount := _ }) rfl).trans (State.evCnt_send _ _ ?_ ?_)
      · show routerOf (BitVec.ofNat 32 (localAddr 4 0 0)).toNat 0 < 64
        decide
      · show routerOf (BitVec.ofNat 32 (remoteAddr (fld s.cfg.trace 57 46) 4 1 0)).toNat _ < 64
        rw [routerOf_remote _ _ _ _ _ (by decide) (by decide) (by decide)]
        decide
    · exact s.evCnt_count _ _ (by simp [evCtr])
  · exact s.evCnt_refl

theorem State.evCnt_logEv (s : State) (r : EvRec) : s.evCnt (s.logEv r) := by
  unfold State.logEv
  (repeat' split) <;> exact State.evCnt_of_cnt rfl

theorem State.evCnt_postEv (s : State) (r : EvRec) : s.evCnt (s.postEv r) := by
  unfold State.postEv
  split
  · exact ((s.evCnt_postHost r).trans (State.evCnt_logEv _ r)).trans (State.evCnt_forwardEv _ r)
  · split
    · exact State.evCnt_of_cnt rfl
    · exact s.evCnt_count _ _ (by simp [evCtr])

theorem State.evCnt_raiseRecs (s : State) (e : EvKind) (b : Bool) (l : List (List Byte)) : s.evCnt (s.raiseRecs e b l) := by
  induction l generalizing s b with
  | nil => exact s.evCnt_refl
  | cons p r ih =>
    exact ((State.evCnt_of_cnt (t := { s with ev.seq := s.ev.seq + 1 }) rfl).trans (State.evCnt_postEv _ _)).trans (ih _ _)

/-- Raising an event moves no counter but those of events. -/
theorem State.evCnt_raise (s : State) (e : EvKind) (l : List (Nat × Nat)) : s.evCnt (s.raise e l) :=
  (s.evCnt_count _ _ (by simp [evCtr])).trans (State.evCnt_raiseRecs _ _ _ _)

theorem State.ctr_raise (s : State) (e : EvKind) (l : List (Nat × Nat)) (n : Nat) (h : ¬ evCtr n) :
    (s.raise e l).ctr n = s.ctr n := (s.evCnt_raise e l).1 n h

theorem State.ctrOk_raise (s : State) (e : EvKind) (l : List (Nat × Nat)) (h : s.ctrOk) : (s.raise e l).ctrOk :=
  (s.evCnt_raise e l).2 h

/-! ### Completions -/

/-- `t` differs from `s` only in what a completion reaches: the completion ring and its phase, the completions held and owed, the
commands accepted and under way, the mesh, what is sent, counters, and trace. -/
def State.answered (s t : State) : Prop :=
  ∃ c o f q e r b k u p h w a l x m, t = { s with
    cnt := c, out := o, free := f, host.tq := q, obs.engines := e, obs.ring := r, obs.ringN := b, obs.copying := k, host.cq := u,
    host.phase := p, host.held := h, host.owed := w, host.accepted := a, host.long := l, host.pba := x,
    grid.mesh := m }

theorem State.answered_refl (s : State) : s.answered s := ⟨_, _, _, _, _, _, _, _, _, _, _, _, _, _, _, _, rfl⟩

theorem State.answered.trans {s t u : State} (h : s.answered t) (g : t.answered u) : s.answered u := by
  obtain ⟨_, _, _, _, _, _, _, _, _, _, _, _, _, _, _, _, rfl⟩ := h
  obtain ⟨_, _, _, _, _, _, _, _, _, _, _, _, _, _, _, _, rfl⟩ := g
  exact ⟨_, _, _, _, _, _, _, _, _, _, _, _, _, _, _, _, rfl⟩

theorem State.answered_of_traced {s t : State} (h : s.traced t) : s.answered t := by
  obtain ⟨_, _, _, _, _, _, _, _, _, rfl⟩ := h
  exact ⟨_, _, _, _, _, _, _, _, _, _, _, _, _, _, _, _, rfl⟩

theorem State.answered_irq (s : State) (r : Ring) : s.answered (s.irq r) := State.answered_of_traced (s.traced_irq r)

theorem State.answered_writeCpl (s : State) (c : Cpl) : s.answered (s.writeCpl c) := by
  unfold State.writeCpl
  extract_lets _ _ _ s1 _ _ _ s2
  have h1 : s.answered s1 := by
    simp only [s1]
    split <;> exact ⟨_, _, _, _, _, _, _, _, _, _, _, _, _, _, _, _, rfl⟩
  have h2 : s1.answered s2 := ⟨_, _, _, _, _, _, _, _, _, _, _, _, _, _, _, _, rfl⟩
  split
  · exact (h1.trans h2).trans (State.answered_irq _ _)
  · exact h1.trans h2

theorem State.answered_send (s : State) (m : Msg) : s.answered (s.send m) := by
  unfold State.send
  rw [State.counts_eq]
  exact ⟨_, _, _, _, _, _, _, _, _, _, _, _, _, _, _, _, rfl⟩

theorem State.answered_postCpl (s : State) (c : Cpl) : s.answered (s.postCpl c) := by
  unfold State.postCpl
  split
  · extract_lets _ s1
    have h1 : s.answered s1 := by
      simp only [s1]
      split <;> exact ⟨_, _, _, _, _, _, _, _, _, _, _, _, _, _, _, _, rfl⟩
    clear_value s1
    refine h1.trans ?_
    split
    · exact ⟨_, _, _, _, _, _, _, _, _, _, _, _, _, _, _, _, rfl⟩
    · split
      · exact State.answered_writeCpl _ _
      · exact ⟨_, _, _, _, _, _, _, _, _, _, _, _, _, _, _, _, rfl⟩
  · exact State.answered_send _ _

theorem State.answered_answerCmd (s : State) (c : Cmd) (st r0 r1 : Nat) (d : List Byte) : s.answered (s.answerCmd c st r0 r1 d) := by
  unfold State.answerCmd
  exact State.answered.trans (t := { s with host.long := _, host.accepted := _ })
    ⟨_, _, _, _, _, _, _, _, _, _, _, _, _, _, _, _, rfl⟩ (State.answered_postCpl _ _)

/-- Ending a command changes only what its completion and its trace record reach. -/
theorem State.answered_finish (s : State) (c : Cmd) (st r0 r1 : Nat) (d : List Byte) : s.answered (s.finish c st r0 r1 d) :=
  (State.answered_of_traced (s.traced_traceEnd _ _ _ _)).trans (State.answered_answerCmd _ _ _ _ _ _)

end Sys2Proof.Machine
end

