-- ==== Sys2Proof/Laws/State.lean ====
section
/-!
SUPPORT. What the named updates of the state leave alone: one lemma for each field and update, and for each table of a
field that the update does not write; and what a unit reads after it is written.
-/

namespace Sys2Proof.Machine

/-! `count` -/
@[simp] theorem State.count_run (s : State) (k n : Nat) : (s.count k n).run = s.run := rfl
@[simp] theorem State.count_time (s : State) (k n : Nat) : (s.count k n).time = s.time := rfl
@[simp] theorem State.count_cfg (s : State) (k n : Nat) : (s.count k n).cfg = s.cfg := rfl
@[simp] theorem State.count_chan (s : State) (k n : Nat) : (s.count k n).chan = s.chan := rfl
@[simp] theorem State.count_port (s : State) (k n : Nat) : (s.count k n).port = s.port := rfl
@[simp] theorem State.count_host (s : State) (k n : Nat) : (s.count k n).host = s.host := rfl
@[simp] theorem State.count_ev (s : State) (k n : Nat) : (s.count k n).ev = s.ev := rfl
@[simp] theorem State.count_obs (s : State) (k n : Nat) : (s.count k n).obs = s.obs := rfl
@[simp] theorem State.count_cores (s : State) (k n : Nat) : (s.count k n).cores = s.cores := rfl
@[simp] theorem State.count_grid (s : State) (k n : Nat) : (s.count k n).grid = s.grid := rfl
@[simp] theorem State.count_loft (s : State) (k n : Nat) : (s.count k n).loft = s.loft := rfl
@[simp] theorem State.count_arrs (s : State) (k n : Nat) : (s.count k n).arrs = s.arrs := rfl
@[simp] theorem State.count_model (s : State) (k n : Nat) : (s.count k n).model = s.model := rfl
@[simp] theorem State.count_store (s : State) (k n : Nat) : (s.count k n).store = s.store := rfl
@[simp] theorem State.count_nv (s : State) (k n : Nat) : (s.count k n).nv = s.nv := rfl
@[simp] theorem State.count_fab (s : State) (k n : Nat) : (s.count k n).fab = s.fab := rfl
@[simp] theorem State.count_sup (s : State) (k n : Nat) : (s.count k n).sup = s.sup := rfl
@[simp] theorem State.count_sec (s : State) (k n : Nat) : (s.count k n).sec = s.sec := rfl
@[simp] theorem State.count_test (s : State) (k n : Nat) : (s.count k n).test = s.test := rfl
@[simp] theorem State.count_out (s : State) (k n : Nat) : (s.count k n).out = s.out := rfl
@[simp] theorem State.count_free (s : State) (k n : Nat) : (s.count k n).free = s.free := rfl
@[simp] theorem State.count_pending (s : State) (k n : Nat) : (s.count k n).pending = s.pending := rfl
@[simp] theorem State.count_read_core (s : State) (k n : Nat) (j : Nat) : (s.count k n).core j = s.core j := rfl
@[simp] theorem State.count_read_arr (s : State) (k n : Nat) (j : Nat) : (s.count k n).arr j = s.arr j := rfl
@[simp] theorem State.count_read_reel (s : State) (k n : Nat) (j : Nat) : (s.count k n).reel j = s.reel j := rfl
@[simp] theorem State.count_read_port_ (s : State) (k n : Nat) (j : Nat) : (s.count k n).port_ j = s.port_ j := rfl
@[simp] theorem State.count_read_slot (s : State) (k n : Nat) (j : Nat) : (s.count k n).slot j = s.slot j := rfl
@[simp] theorem State.count_read_trEng (s : State) (k n : Nat) (j : Nat) : (s.count k n).trEng j = s.trEng j := rfl
@[simp] theorem State.count_read_obj (s : State) (k n : Nat) (j : Nat) : (s.count k n).obj j = s.obj j := rfl
@[simp] theorem State.count_read_queue (s : State) (k n : Nat) (j : Nat) : (s.count k n).queue j = s.queue j := rfl
@[simp] theorem State.count_read_sector (s : State) (k n : Nat) (j : Nat) : (s.count k n).sector j = s.sector j := rfl
@[simp] theorem State.count_read_bank (s : State) (k n : Nat) (j : Nat) : (s.count k n).bank j = s.bank j := rfl
@[simp] theorem State.count_read_strIn (s : State) (k n : Nat) (j : Nat) : (s.count k n).strIn j = s.strIn j := rfl
@[simp] theorem State.count_read_strOut (s : State) (k n : Nat) (j : Nat) : (s.count k n).strOut j = s.strOut j := rfl
@[simp] theorem State.count_read_pool (s : State) (k n : Nat) (j : Nat) : (s.count k n).pool j = s.pool j := rfl

/-! `withPending` -/
@[simp] theorem State.withPending_run (s : State) (l : List Instr) : (s.withPending l).run = s.run := rfl
@[simp] theorem State.withPending_time (s : State) (l : List Instr) : (s.withPending l).time = s.time := rfl
@[simp] theorem State.withPending_cfg (s : State) (l : List Instr) : (s.withPending l).cfg = s.cfg := rfl
@[simp] theorem State.withPending_chan (s : State) (l : List Instr) : (s.withPending l).chan = s.chan := rfl
@[simp] theorem State.withPending_port (s : State) (l : List Instr) : (s.withPending l).port = s.port := rfl
@[simp] theorem State.withPending_host (s : State) (l : List Instr) : (s.withPending l).host = s.host := rfl
@[simp] theorem State.withPending_ev (s : State) (l : List Instr) : (s.withPending l).ev = s.ev := rfl
@[simp] theorem State.withPending_obs (s : State) (l : List Instr) : (s.withPending l).obs = s.obs := rfl
@[simp] theorem State.withPending_cnt (s : State) (l : List Instr) : (s.withPending l).cnt = s.cnt := rfl
@[simp] theorem State.withPending_cores (s : State) (l : List Instr) : (s.withPending l).cores = s.cores := rfl
@[simp] theorem State.withPending_grid (s : State) (l : List Instr) : (s.withPending l).grid = s.grid := rfl
@[simp] theorem State.withPending_loft (s : State) (l : List Instr) : (s.withPending l).loft = s.loft := rfl
@[simp] theorem State.withPending_arrs (s : State) (l : List Instr) : (s.withPending l).arrs = s.arrs := rfl
@[simp] theorem State.withPending_model (s : State) (l : List Instr) : (s.withPending l).model = s.model := rfl
@[simp] theorem State.withPending_store (s : State) (l : List Instr) : (s.withPending l).store = s.store := rfl
@[simp] theorem State.withPending_nv (s : State) (l : List Instr) : (s.withPending l).nv = s.nv := rfl
@[simp] theorem State.withPending_fab (s : State) (l : List Instr) : (s.withPending l).fab = s.fab := rfl
@[simp] theorem State.withPending_sup (s : State) (l : List Instr) : (s.withPending l).sup = s.sup := rfl
@[simp] theorem State.withPending_sec (s : State) (l : List Instr) : (s.withPending l).sec = s.sec := rfl
@[simp] theorem State.withPending_test (s : State) (l : List Instr) : (s.withPending l).test = s.test := rfl
@[simp] theorem State.withPending_out (s : State) (l : List Instr) : (s.withPending l).out = s.out := rfl
@[simp] theorem State.withPending_free (s : State) (l : List Instr) : (s.withPending l).free = s.free := rfl
@[simp] theorem State.withPending_read_core (s : State) (l : List Instr) (j : Nat) : (s.withPending l).core j = s.core j := rfl
@[simp] theorem State.withPending_read_arr (s : State) (l : List Instr) (j : Nat) : (s.withPending l).arr j = s.arr j := rfl
@[simp] theorem State.withPending_read_reel (s : State) (l : List Instr) (j : Nat) : (s.withPending l).reel j = s.reel j := rfl
@[simp] theorem State.withPending_read_port_ (s : State) (l : List Instr) (j : Nat) : (s.withPending l).port_ j = s.port_ j := rfl
@[simp] theorem State.withPending_read_slot (s : State) (l : List Instr) (j : Nat) : (s.withPending l).slot j = s.slot j := rfl
@[simp] theorem State.withPending_read_trEng (s : State) (l : List Instr) (j : Nat) : (s.withPending l).trEng j = s.trEng j := rfl
@[simp] theorem State.withPending_read_obj (s : State) (l : List Instr) (j : Nat) : (s.withPending l).obj j = s.obj j := rfl
@[simp] theorem State.withPending_read_queue (s : State) (l : List Instr) (j : Nat) : (s.withPending l).queue j = s.queue j := rfl
@[simp] theorem State.withPending_read_sector (s : State) (l : List Instr) (j : Nat) : (s.withPending l).sector j = s.sector j := rfl
@[simp] theorem State.withPending_read_bank (s : State) (l : List Instr) (j : Nat) : (s.withPending l).bank j = s.bank j := rfl
@[simp] theorem State.withPending_read_strIn (s : State) (l : List Instr) (j : Nat) : (s.withPending l).strIn j = s.strIn j := rfl
@[simp] theorem State.withPending_read_strOut (s : State) (l : List Instr) (j : Nat) : (s.withPending l).strOut j = s.strOut j := rfl
@[simp] theorem State.withPending_read_pool (s : State) (l : List Instr) (j : Nat) : (s.withPending l).pool j = s.pool j := rfl
@[simp] theorem State.withPending_read_ctr (s : State) (l : List Instr) (j : Nat) : (s.withPending l).ctr j = s.ctr j := rfl

/-! `emit` -/
@[simp] theorem State.emit_run (s : State) (o : Out) : (s.emit o).run = s.run := rfl
@[simp] theorem State.emit_time (s : State) (o : Out) : (s.emit o).time = s.time := rfl
@[simp] theorem State.emit_cfg (s : State) (o : Out) : (s.emit o).cfg = s.cfg := rfl
@[simp] theorem State.emit_chan (s : State) (o : Out) : (s.emit o).chan = s.chan := rfl
@[simp] theorem State.emit_port (s : State) (o : Out) : (s.emit o).port = s.port := rfl
@[simp] theorem State.emit_host (s : State) (o : Out) : (s.emit o).host = s.host := rfl
@[simp] theorem State.emit_ev (s : State) (o : Out) : (s.emit o).ev = s.ev := rfl
@[simp] theorem State.emit_obs (s : State) (o : Out) : (s.emit o).obs = s.obs := rfl
@[simp] theorem State.emit_cnt (s : State) (o : Out) : (s.emit o).cnt = s.cnt := rfl
@[simp] theorem State.emit_cores (s : State) (o : Out) : (s.emit o).cores = s.cores := rfl
@[simp] theorem State.emit_grid (s : State) (o : Out) : (s.emit o).grid = s.grid := rfl
@[simp] theorem State.emit_loft (s : State) (o : Out) : (s.emit o).loft = s.loft := rfl
@[simp] theorem State.emit_arrs (s : State) (o : Out) : (s.emit o).arrs = s.arrs := rfl
@[simp] theorem State.emit_model (s : State) (o : Out) : (s.emit o).model = s.model := rfl
@[simp] theorem State.emit_store (s : State) (o : Out) : (s.emit o).store = s.store := rfl
@[simp] theorem State.emit_nv (s : State) (o : Out) : (s.emit o).nv = s.nv := rfl
@[simp] theorem State.emit_fab (s : State) (o : Out) : (s.emit o).fab = s.fab := rfl
@[simp] theorem State.emit_sup (s : State) (o : Out) : (s.emit o).sup = s.sup := rfl
@[simp] theorem State.emit_sec (s : State) (o : Out) : (s.emit o).sec = s.sec := rfl
@[simp] theorem State.emit_test (s : State) (o : Out) : (s.emit o).test = s.test := rfl
@[simp] theorem State.emit_free (s : State) (o : Out) : (s.emit o).free = s.free := rfl
@[simp] theorem State.emit_pending (s : State) (o : Out) : (s.emit o).pending = s.pending := rfl
@[simp] theorem State.emit_read_core (s : State) (o : Out) (j : Nat) : (s.emit o).core j = s.core j := rfl
@[simp] theorem State.emit_read_arr (s : State) (o : Out) (j : Nat) : (s.emit o).arr j = s.arr j := rfl
@[simp] theorem State.emit_read_reel (s : State) (o : Out) (j : Nat) : (s.emit o).reel j = s.reel j := rfl
@[simp] theorem State.emit_read_port_ (s : State) (o : Out) (j : Nat) : (s.emit o).port_ j = s.port_ j := rfl
@[simp] theorem State.emit_read_slot (s : State) (o : Out) (j : Nat) : (s.emit o).slot j = s.slot j := rfl
@[simp] theorem State.emit_read_trEng (s : State) (o : Out) (j : Nat) : (s.emit o).trEng j = s.trEng j := rfl
@[simp] theorem State.emit_read_obj (s : State) (o : Out) (j : Nat) : (s.emit o).obj j = s.obj j := rfl
@[simp] theorem State.emit_read_queue (s : State) (o : Out) (j : Nat) : (s.emit o).queue j = s.queue j := rfl
@[simp] theorem State.emit_read_sector (s : State) (o : Out) (j : Nat) : (s.emit o).sector j = s.sector j := rfl
@[simp] theorem State.emit_read_bank (s : State) (o : Out) (j : Nat) : (s.emit o).bank j = s.bank j := rfl
@[simp] theorem State.emit_read_strIn (s : State) (o : Out) (j : Nat) : (s.emit o).strIn j = s.strIn j := rfl
@[simp] theorem State.emit_read_strOut (s : State) (o : Out) (j : Nat) : (s.emit o).strOut j = s.strOut j := rfl
@[simp] theorem State.emit_read_pool (s : State) (o : Out) (j : Nat) : (s.emit o).pool j = s.pool j := rfl
@[simp] theorem State.emit_read_ctr (s : State) (o : Out) (j : Nat) : (s.emit o).ctr j = s.ctr j := rfl

/-! `arrive` -/
@[simp] theorem State.arrive_run (s : State) (m : Msg) : (s.arrive m).run = s.run := rfl
@[simp] theorem State.arrive_time (s : State) (m : Msg) : (s.arrive m).time = s.time := rfl
@[simp] theorem State.arrive_cfg (s : State) (m : Msg) : (s.arrive m).cfg = s.cfg := rfl
@[simp] theorem State.arrive_chan (s : State) (m : Msg) : (s.arrive m).chan = s.chan := rfl
@[simp] theorem State.arrive_port (s : State) (m : Msg) : (s.arrive m).port = s.port := rfl
@[simp] theorem State.arrive_host (s : State) (m : Msg) : (s.arrive m).host = s.host := rfl
@[simp] theorem State.arrive_ev (s : State) (m : Msg) : (s.arrive m).ev = s.ev := rfl
@[simp] theorem State.arrive_obs (s : State) (m : Msg) : (s.arrive m).obs = s.obs := rfl
@[simp] theorem State.arrive_cnt (s : State) (m : Msg) : (s.arrive m).cnt = s.cnt := rfl
@[simp] theorem State.arrive_cores (s : State) (m : Msg) : (s.arrive m).cores = s.cores := rfl
@[simp] theorem State.arrive_loft (s : State) (m : Msg) : (s.arrive m).loft = s.loft := rfl
@[simp] theorem State.arrive_arrs (s : State) (m : Msg) : (s.arrive m).arrs = s.arrs := rfl
@[simp] theorem State.arrive_model (s : State) (m : Msg) : (s.arrive m).model = s.model := rfl
@[simp] theorem State.arrive_store (s : State) (m : Msg) : (s.arrive m).store = s.store := rfl
@[simp] theorem State.arrive_nv (s : State) (m : Msg) : (s.arrive m).nv = s.nv := rfl
@[simp] theorem State.arrive_fab (s : State) (m : Msg) : (s.arrive m).fab = s.fab := rfl
@[simp] theorem State.arrive_sup (s : State) (m : Msg) : (s.arrive m).sup = s.sup := rfl
@[simp] theorem State.arrive_sec (s : State) (m : Msg) : (s.arrive m).sec = s.sec := rfl
@[simp] theorem State.arrive_test (s : State) (m : Msg) : (s.arrive m).test = s.test := rfl
@[simp] theorem State.arrive_out (s : State) (m : Msg) : (s.arrive m).out = s.out := rfl
@[simp] theorem State.arrive_free (s : State) (m : Msg) : (s.arrive m).free = s.free := rfl
@[simp] theorem State.arrive_pending (s : State) (m : Msg) : (s.arrive m).pending = s.pending := rfl
@[simp] theorem State.arrive_grid_objs (s : State) (m : Msg) : (s.arrive m).grid.objs = s.grid.objs := rfl
@[simp] theorem State.arrive_grid_queues (s : State) (m : Msg) : (s.arrive m).grid.queues = s.grid.queues := rfl
@[simp] theorem State.arrive_grid_misused (s : State) (m : Msg) : (s.arrive m).grid.misused = s.grid.misused := rfl
@[simp] theorem State.arrive_read_core (s : State) (m : Msg) (j : Nat) : (s.arrive m).core j = s.core j := rfl
@[simp] theorem State.arrive_read_arr (s : State) (m : Msg) (j : Nat) : (s.arrive m).arr j = s.arr j := rfl
@[simp] theorem State.arrive_read_reel (s : State) (m : Msg) (j : Nat) : (s.arrive m).reel j = s.reel j := rfl
@[simp] theorem State.arrive_read_port_ (s : State) (m : Msg) (j : Nat) : (s.arrive m).port_ j = s.port_ j := rfl
@[simp] theorem State.arrive_read_slot (s : State) (m : Msg) (j : Nat) : (s.arrive m).slot j = s.slot j := rfl
@[simp] theorem State.arrive_read_trEng (s : State) (m : Msg) (j : Nat) : (s.arrive m).trEng j = s.trEng j := rfl
@[simp] theorem State.arrive_read_obj (s : State) (m : Msg) (j : Nat) : (s.arrive m).obj j = s.obj j := rfl
@[simp] theorem State.arrive_read_queue (s : State) (m : Msg) (j : Nat) : (s.arrive m).queue j = s.queue j := rfl
@[simp] theorem State.arrive_read_sector (s : State) (m : Msg) (j : Nat) : (s.arrive m).sector j = s.sector j := rfl
@[simp] theorem State.arrive_read_bank (s : State) (m : Msg) (j : Nat) : (s.arrive m).bank j = s.bank j := rfl
@[simp] theorem State.arrive_read_strIn (s : State) (m : Msg) (j : Nat) : (s.arrive m).strIn j = s.strIn j := rfl
@[simp] theorem State.arrive_read_strOut (s : State) (m : Msg) (j : Nat) : (s.arrive m).strOut j = s.strOut j := rfl
@[simp] theorem State.arrive_read_pool (s : State) (m : Msg) (j : Nat) : (s.arrive m).pool j = s.pool j := rfl
@[simp] theorem State.arrive_read_ctr (s : State) (m : Msg) (j : Nat) : (s.arrive m).ctr j = s.ctr j := rfl

/-! `setCore` -/
@[simp] theorem State.setCore_run (s : State) (k : Nat) (x : Core) : (s.setCore k x).run = s.run := rfl
@[simp] theorem State.setCore_time (s : State) (k : Nat) (x : Core) : (s.setCore k x).time = s.time := rfl
@[simp] theorem State.setCore_cfg (s : State) (k : Nat) (x : Core) : (s.setCore k x).cfg = s.cfg := rfl
@[simp] theorem State.setCore_chan (s : State) (k : Nat) (x : Core) : (s.setCore k x).chan = s.chan := rfl
@[simp] theorem State.setCore_port (s : State) (k : Nat) (x : Core) : (s.setCore k x).port = s.port := rfl
@[simp] theorem State.setCore_host (s : State) (k : Nat) (x : Core) : (s.setCore k x).host = s.host := rfl
@[simp] theorem State.setCore_ev (s : State) (k : Nat) (x : Core) : (s.setCore k x).ev = s.ev := rfl
@[simp] theorem State.setCore_obs (s : State) (k : Nat) (x : Core) : (s.setCore k x).obs = s.obs := rfl
@[simp] theorem State.setCore_cnt (s : State) (k : Nat) (x : Core) : (s.setCore k x).cnt = s.cnt := rfl
@[simp] theorem State.setCore_grid (s : State) (k : Nat) (x : Core) : (s.setCore k x).grid = s.grid := rfl
@[simp] theorem State.setCore_loft (s : State) (k : Nat) (x : Core) : (s.setCore k x).loft = s.loft := rfl
@[simp] theorem State.setCore_arrs (s : State) (k : Nat) (x : Core) : (s.setCore k x).arrs = s.arrs := rfl
@[simp] theorem State.setCore_model (s : State) (k : Nat) (x : Core) : (s.setCore k x).model = s.model := rfl
@[simp] theorem State.setCore_store (s : State) (k : Nat) (x : Core) : (s.setCore k x).store = s.store := rfl
@[simp] theorem State.setCore_nv (s : State) (k : Nat) (x : Core) : (s.setCore k x).nv = s.nv := rfl
@[simp] theorem State.setCore_fab (s : State) (k : Nat) (x : Core) : (s.setCore k x).fab = s.fab := rfl
@[simp] theorem State.setCore_sup (s : State) (k : Nat) (x : Core) : (s.setCore k x).sup = s.sup := rfl
@[simp] theorem State.setCore_sec (s : State) (k : Nat) (x : Core) : (s.setCore k x).sec = s.sec := rfl
@[simp] theorem State.setCore_test (s : State) (k : Nat) (x : Core) : (s.setCore k x).test = s.test := rfl
@[simp] theorem State.setCore_out (s : State) (k : Nat) (x : Core) : (s.setCore k x).out = s.out := rfl
@[simp] theorem State.setCore_free (s : State) (k : Nat) (x : Core) : (s.setCore k x).free = s.free := rfl
@[simp] theorem State.setCore_pending (s : State) (k : Nat) (x : Core) : (s.setCore k x).pending = s.pending := rfl
@[simp] theorem State.setCore_read_arr (s : State) (k : Nat) (x : Core) (j : Nat) : (s.setCore k x).arr j = s.arr j := rfl
@[simp] theorem State.setCore_read_reel (s : State) (k : Nat) (x : Core) (j : Nat) : (s.setCore k x).reel j = s.reel j := rfl
@[simp] theorem State.setCore_read_port_ (s : State) (k : Nat) (x : Core) (j : Nat) : (s.setCore k x).port_ j = s.port_ j := rfl
@[simp] theorem State.setCore_read_slot (s : State) (k : Nat) (x : Core) (j : Nat) : (s.setCore k x).slot j = s.slot j := rfl
@[simp] theorem State.setCore_read_trEng (s : State) (k : Nat) (x : Core) (j : Nat) : (s.setCore k x).trEng j = s.trEng j := rfl
@[simp] theorem State.setCore_read_obj (s : State) (k : Nat) (x : Core) (j : Nat) : (s.setCore k x).obj j = s.obj j := rfl
@[simp] theorem State.setCore_read_queue (s : State) (k : Nat) (x : Core) (j : Nat) : (s.setCore k x).queue j = s.queue j := rfl
@[simp] theorem State.setCore_read_sector (s : State) (k : Nat) (x : Core) (j : Nat) : (s.setCore k x).sector j = s.sector j := rfl
@[simp] theorem State.setCore_read_bank (s : State) (k : Nat) (x : Core) (j : Nat) : (s.setCore k x).bank j = s.bank j := rfl
@[simp] theorem State.setCore_read_strIn (s : State) (k : Nat) (x : Core) (j : Nat) : (s.setCore k x).strIn j = s.strIn j := rfl
@[simp] theorem State.setCore_read_strOut (s : State) (k : Nat) (x : Core) (j : Nat) : (s.setCore k x).strOut j = s.strOut j := rfl
@[simp] theorem State.setCore_read_pool (s : State) (k : Nat) (x : Core) (j : Nat) : (s.setCore k x).pool j = s.pool j := rfl
@[simp] theorem State.setCore_read_ctr (s : State) (k : Nat) (x : Core) (j : Nat) : (s.setCore k x).ctr j = s.ctr j := rfl

/-! `setArr` -/
@[simp] theorem State.setArr_run (s : State) (k : Nat) (x : Arr) : (s.setArr k x).run = s.run := rfl
@[simp] theorem State.setArr_time (s : State) (k : Nat) (x : Arr) : (s.setArr k x).time = s.time := rfl
@[simp] theorem State.setArr_cfg (s : State) (k : Nat) (x : Arr) : (s.setArr k x).cfg = s.cfg := rfl
@[simp] theorem State.setArr_chan (s : State) (k : Nat) (x : Arr) : (s.setArr k x).chan = s.chan := rfl
@[simp] theorem State.setArr_port (s : State) (k : Nat) (x : Arr) : (s.setArr k x).port = s.port := rfl
@[simp] theorem State.setArr_host (s : State) (k : Nat) (x : Arr) : (s.setArr k x).host = s.host := rfl
@[simp] theorem State.setArr_ev (s : State) (k : Nat) (x : Arr) : (s.setArr k x).ev = s.ev := rfl
@[simp] theorem State.setArr_obs (s : State) (k : Nat) (x : Arr) : (s.setArr k x).obs = s.obs := rfl
@[simp] theorem State.setArr_cnt (s : State) (k : Nat) (x : Arr) : (s.setArr k x).cnt = s.cnt := rfl
@[simp] theorem State.setArr_cores (s : State) (k : Nat) (x : Arr) : (s.setArr k x).cores = s.cores := rfl
@[simp] theorem State.setArr_grid (s : State) (k : Nat) (x : Arr) : (s.setArr k x).grid = s.grid := rfl
@[simp] theorem State.setArr_loft (s : State) (k : Nat) (x : Arr) : (s.setArr k x).loft = s.loft := rfl
@[simp] theorem State.setArr_model (s : State) (k : Nat) (x : Arr) : (s.setArr k x).model = s.model := rfl
@[simp] theorem State.setArr_store (s : State) (k : Nat) (x : Arr) : (s.setArr k x).store = s.store := rfl
@[simp] theorem State.setArr_nv (s : State) (k : Nat) (x : Arr) : (s.setArr k x).nv = s.nv := rfl
@[simp] theorem State.setArr_fab (s : State) (k : Nat) (x : Arr) : (s.setArr k x).fab = s.fab := rfl
@[simp] theorem State.setArr_sup (s : State) (k : Nat) (x : Arr) : (s.setArr k x).sup = s.sup := rfl
@[simp] theorem State.setArr_sec (s : State) (k : Nat) (x : Arr) : (s.setArr k x).sec = s.sec := rfl
@[simp] theorem State.setArr_test (s : State) (k : Nat) (x : Arr) : (s.setArr k x).test = s.test := rfl
@[simp] theorem State.setArr_out (s : State) (k : Nat) (x : Arr) : (s.setArr k x).out = s.out := rfl
@[simp] theorem State.setArr_free (s : State) (k : Nat) (x : Arr) : (s.setArr k x).free = s.free := rfl
@[simp] theorem State.setArr_pending (s : State) (k : Nat) (x : Arr) : (s.setArr k x).pending = s.pending := rfl
@[simp] theorem State.setArr_read_core (s : State) (k : Nat) (x : Arr) (j : Nat) : (s.setArr k x).core j = s.core j := rfl
@[simp] theorem State.setArr_read_reel (s : State) (k : Nat) (x : Arr) (j : Nat) : (s.setArr k x).reel j = s.reel j := rfl
@[simp] theorem State.setArr_read_port_ (s : State) (k : Nat) (x : Arr) (j : Nat) : (s.setArr k x).port_ j = s.port_ j := rfl
@[simp] theorem State.setArr_read_slot (s : State) (k : Nat) (x : Arr) (j : Nat) : (s.setArr k x).slot j = s.slot j := rfl
@[simp] theorem State.setArr_read_trEng (s : State) (k : Nat) (x : Arr) (j : Nat) : (s.setArr k x).trEng j = s.trEng j := rfl
@[simp] theorem State.setArr_read_obj (s : State) (k : Nat) (x : Arr) (j : Nat) : (s.setArr k x).obj j = s.obj j := rfl
@[simp] theorem State.setArr_read_queue (s : State) (k : Nat) (x : Arr) (j : Nat) : (s.setArr k x).queue j = s.queue j := rfl
@[simp] theorem State.setArr_read_sector (s : State) (k : Nat) (x : Arr) (j : Nat) : (s.setArr k x).sector j = s.sector j := rfl
@[simp] theorem State.setArr_read_bank (s : State) (k : Nat) (x : Arr) (j : Nat) : (s.setArr k x).bank j = s.bank j := rfl
@[simp] theorem State.setArr_read_strIn (s : State) (k : Nat) (x : Arr) (j : Nat) : (s.setArr k x).strIn j = s.strIn j := rfl
@[simp] theorem State.setArr_read_strOut (s : State) (k : Nat) (x : Arr) (j : Nat) : (s.setArr k x).strOut j = s.strOut j := rfl
@[simp] theorem State.setArr_read_pool (s : State) (k : Nat) (x : Arr) (j : Nat) : (s.setArr k x).pool j = s.pool j := rfl
@[simp] theorem State.setArr_read_ctr (s : State) (k : Nat) (x : Arr) (j : Nat) : (s.setArr k x).ctr j = s.ctr j := rfl

/-! `setReel` -/
@[simp] theorem State.setReel_run (s : State) (k : Nat) (x : Reel) : (s.setReel k x).run = s.run := rfl
@[simp] theorem State.setReel_time (s : State) (k : Nat) (x : Reel) : (s.setReel k x).time = s.time := rfl
@[simp] theorem State.setReel_cfg (s : State) (k : Nat) (x : Reel) : (s.setReel k x).cfg = s.cfg := rfl
@[simp] theorem State.setReel_chan (s : State) (k : Nat) (x : Reel) : (s.setReel k x).chan = s.chan := rfl
@[simp] theorem State.setReel_port (s : State) (k : Nat) (x : Reel) : (s.setReel k x).port = s.port := rfl
@[simp] theorem State.setReel_host (s : State) (k : Nat) (x : Reel) : (s.setReel k x).host = s.host := rfl
@[simp] theorem State.setReel_ev (s : State) (k : Nat) (x : Reel) : (s.setReel k x).ev = s.ev := rfl
@[simp] theorem State.setReel_obs (s : State) (k : Nat) (x : Reel) : (s.setReel k x).obs = s.obs := rfl
@[simp] theorem State.setReel_cnt (s : State) (k : Nat) (x : Reel) : (s.setReel k x).cnt = s.cnt := rfl
@[simp] theorem State.setReel_cores (s : State) (k : Nat) (x : Reel) : (s.setReel k x).cores = s.cores := rfl
@[simp] theorem State.setReel_grid (s : State) (k : Nat) (x : Reel) : (s.setReel k x).grid = s.grid := rfl
@[simp] theorem State.setReel_arrs (s : State) (k : Nat) (x : Reel) : (s.setReel k x).arrs = s.arrs := rfl
@[simp] theorem State.setReel_model (s : State) (k : Nat) (x : Reel) : (s.setReel k x).model = s.model := rfl
@[simp] theorem State.setReel_store (s : State) (k : Nat) (x : Reel) : (s.setReel k x).store = s.store := rfl
@[simp] theorem State.setReel_nv (s : State) (k : Nat) (x : Reel) : (s.setReel k x).nv = s.nv := rfl
@[simp] theorem State.setReel_fab (s : State) (k : Nat) (x : Reel) : (s.setReel k x).fab = s.fab := rfl
@[simp] theorem State.setReel_sup (s : State) (k : Nat) (x : Reel) : (s.setReel k x).sup = s.sup := rfl
@[simp] theorem State.setReel_sec (s : State) (k : Nat) (x : Reel) : (s.setReel k x).sec = s.sec := rfl
@[simp] theorem State.setReel_test (s : State) (k : Nat) (x : Reel) : (s.setReel k x).test = s.test := rfl
@[simp] theorem State.setReel_out (s : State) (k : Nat) (x : Reel) : (s.setReel k x).out = s.out := rfl
@[simp] theorem State.setReel_free (s : State) (k : Nat) (x : Reel) : (s.setReel k x).free = s.free := rfl
@[simp] theorem State.setReel_pending (s : State) (k : Nat) (x : Reel) : (s.setReel k x).pending = s.pending := rfl
@[simp] theorem State.setReel_loft_mem (s : State) (k : Nat) (x : Reel) : (s.setReel k x).loft.mem = s.loft.mem := rfl
@[simp] theorem State.setReel_loft_regions (s : State) (k : Nat) (x : Reel) : (s.setReel k x).loft.regions = s.loft.regions := rfl
@[simp] theorem State.setReel_read_core (s : State) (k : Nat) (x : Reel) (j : Nat) : (s.setReel k x).core j = s.core j := rfl
@[simp] theorem State.setReel_read_arr (s : State) (k : Nat) (x : Reel) (j : Nat) : (s.setReel k x).arr j = s.arr j := rfl
@[simp] theorem State.setReel_read_port_ (s : State) (k : Nat) (x : Reel) (j : Nat) : (s.setReel k x).port_ j = s.port_ j := rfl
@[simp] theorem State.setReel_read_slot (s : State) (k : Nat) (x : Reel) (j : Nat) : (s.setReel k x).slot j = s.slot j := rfl
@[simp] theorem State.setReel_read_trEng (s : State) (k : Nat) (x : Reel) (j : Nat) : (s.setReel k x).trEng j = s.trEng j := rfl
@[simp] theorem State.setReel_read_obj (s : State) (k : Nat) (x : Reel) (j : Nat) : (s.setReel k x).obj j = s.obj j := rfl
@[simp] theorem State.setReel_read_queue (s : State) (k : Nat) (x : Reel) (j : Nat) : (s.setReel k x).queue j = s.queue j := rfl
@[simp] theorem State.setReel_read_sector (s : State) (k : Nat) (x : Reel) (j : Nat) : (s.setReel k x).sector j = s.sector j := rfl
@[simp] theorem State.setReel_read_bank (s : State) (k : Nat) (x : Reel) (j : Nat) : (s.setReel k x).bank j = s.bank j := rfl
@[simp] theorem State.setReel_read_strIn (s : State) (k : Nat) (x : Reel) (j : Nat) : (s.setReel k x).strIn j = s.strIn j := rfl
@[simp] theorem State.setReel_read_strOut (s : State) (k : Nat) (x : Reel) (j : Nat) : (s.setReel k x).strOut j = s.strOut j := rfl
@[simp] theorem State.setReel_read_pool (s : State) (k : Nat) (x : Reel) (j : Nat) : (s.setReel k x).pool j = s.pool j := rfl
@[simp] theorem State.setReel_read_ctr (s : State) (k : Nat) (x : Reel) (j : Nat) : (s.setReel k x).ctr j = s.ctr j := rfl

/-! `setPort` -/
@[simp] theorem State.setPort_run (s : State) (k : Nat) (x : Port) : (s.setPort k x).run = s.run := rfl
@[simp] theorem State.setPort_time (s : State) (k : Nat) (x : Port) : (s.setPort k x).time = s.time := rfl
@[simp] theorem State.setPort_cfg (s : State) (k : Nat) (x : Port) : (s.setPort k x).cfg = s.cfg := rfl
@[simp] theorem State.setPort_chan (s : State) (k : Nat) (x : Port) : (s.setPort k x).chan = s.chan := rfl
@[simp] theorem State.setPort_port (s : State) (k : Nat) (x : Port) : (s.setPort k x).port = s.port := rfl
@[simp] theorem State.setPort_host (s : State) (k : Nat) (x : Port) : (s.setPort k x).host = s.host := rfl
@[simp] theorem State.setPort_ev (s : State) (k : Nat) (x : Port) : (s.setPort k x).ev = s.ev := rfl
@[simp] theorem State.setPort_obs (s : State) (k : Nat) (x : Port) : (s.setPort k x).obs = s.obs := rfl
@[simp] theorem State.setPort_cnt (s : State) (k : Nat) (x : Port) : (s.setPort k x).cnt = s.cnt := rfl
@[simp] theorem State.setPort_cores (s : State) (k : Nat) (x : Port) : (s.setPort k x).cores = s.cores := rfl
@[simp] theorem State.setPort_grid (s : State) (k : Nat) (x : Port) : (s.setPort k x).grid = s.grid := rfl
@[simp] theorem State.setPort_loft (s : State) (k : Nat) (x : Port) : (s.setPort k x).loft = s.loft := rfl
@[simp] theorem State.setPort_arrs (s : State) (k : Nat) (x : Port) : (s.setPort k x).arrs = s.arrs := rfl
@[simp] theorem State.setPort_model (s : State) (k : Nat) (x : Port) : (s.setPort k x).model = s.model := rfl
@[simp] theorem State.setPort_store (s : State) (k : Nat) (x : Port) : (s.setPort k x).store = s.store := rfl
@[simp] theorem State.setPort_nv (s : State) (k : Nat) (x : Port) : (s.setPort k x).nv = s.nv := rfl
@[simp] theorem State.setPort_sup (s : State) (k : Nat) (x : Port) : (s.setPort k x).sup = s.sup := rfl
@[simp] theorem State.setPort_sec (s : State) (k : Nat) (x : Port) : (s.setPort k x).sec = s.sec := rfl
@[simp] theorem State.setPort_test (s : State) (k : Nat) (x : Port) : (s.setPort k x).test = s.test := rfl
@[simp] theorem State.setPort_out (s : State) (k : Nat) (x : Port) : (s.setPort k x).out = s.out := rfl
@[simp] theorem State.setPort_free (s : State) (k : Nat) (x : Port) : (s.setPort k x).free = s.free := rfl
@[simp] theorem State.setPort_pending (s : State) (k : Nat) (x : Port) : (s.setPort k x).pending = s.pending := rfl
@[simp] theorem State.setPort_read_core (s : State) (k : Nat) (x : Port) (j : Nat) : (s.setPort k x).core j = s.core j := rfl
@[simp] theorem State.setPort_read_arr (s : State) (k : Nat) (x : Port) (j : Nat) : (s.setPort k x).arr j = s.arr j := rfl
@[simp] theorem State.setPort_read_reel (s : State) (k : Nat) (x : Port) (j : Nat) : (s.setPort k x).reel j = s.reel j := rfl
@[simp] theorem State.setPort_read_slot (s : State) (k : Nat) (x : Port) (j : Nat) : (s.setPort k x).slot j = s.slot j := rfl
@[simp] theorem State.setPort_read_trEng (s : State) (k : Nat) (x : Port) (j : Nat) : (s.setPort k x).trEng j = s.trEng j := rfl
@[simp] theorem State.setPort_read_obj (s : State) (k : Nat) (x : Port) (j : Nat) : (s.setPort k x).obj j = s.obj j := rfl
@[simp] theorem State.setPort_read_queue (s : State) (k : Nat) (x : Port) (j : Nat) : (s.setPort k x).queue j = s.queue j := rfl
@[simp] theorem State.setPort_read_sector (s : State) (k : Nat) (x : Port) (j : Nat) : (s.setPort k x).sector j = s.sector j := rfl
@[simp] theorem State.setPort_read_bank (s : State) (k : Nat) (x : Port) (j : Nat) : (s.setPort k x).bank j = s.bank j := rfl
@[simp] theorem State.setPort_read_strIn (s : State) (k : Nat) (x : Port) (j : Nat) : (s.setPort k x).strIn j = s.strIn j := rfl
@[simp] theorem State.setPort_read_strOut (s : State) (k : Nat) (x : Port) (j : Nat) : (s.setPort k x).strOut j = s.strOut j := rfl
@[simp] theorem State.setPort_read_pool (s : State) (k : Nat) (x : Port) (j : Nat) : (s.setPort k x).pool j = s.pool j := rfl
@[simp] theorem State.setPort_read_ctr (s : State) (k : Nat) (x : Port) (j : Nat) : (s.setPort k x).ctr j = s.ctr j := rfl

/-! `setSlot` -/
@[simp] theorem State.setSlot_run (s : State) (k : Nat) (x : SlotSt) : (s.setSlot k x).run = s.run := rfl
@[simp] theorem State.setSlot_time (s : State) (k : Nat) (x : SlotSt) : (s.setSlot k x).time = s.time := rfl
@[simp] theorem State.setSlot_cfg (s : State) (k : Nat) (x : SlotSt) : (s.setSlot k x).cfg = s.cfg := rfl
@[simp] theorem State.setSlot_port (s : State) (k : Nat) (x : SlotSt) : (s.setSlot k x).port = s.port := rfl
@[simp] theorem State.setSlot_host (s : State) (k : Nat) (x : SlotSt) : (s.setSlot k x).host = s.host := rfl
@[simp] theorem State.setSlot_ev (s : State) (k : Nat) (x : SlotSt) : (s.setSlot k x).ev = s.ev := rfl
@[simp] theorem State.setSlot_obs (s : State) (k : Nat) (x : SlotSt) : (s.setSlot k x).obs = s.obs := rfl
@[simp] theorem State.setSlot_cnt (s : State) (k : Nat) (x : SlotSt) : (s.setSlot k x).cnt = s.cnt := rfl
@[simp] theorem State.setSlot_cores (s : State) (k : Nat) (x : SlotSt) : (s.setSlot k x).cores = s.cores := rfl
@[simp] theorem State.setSlot_grid (s : State) (k : Nat) (x : SlotSt) : (s.setSlot k x).grid = s.grid := rfl
@[simp] theorem State.setSlot_loft (s : State) (k : Nat) (x : SlotSt) : (s.setSlot k x).loft = s.loft := rfl
@[simp] theorem State.setSlot_arrs (s : State) (k : Nat) (x : SlotSt) : (s.setSlot k x).arrs = s.arrs := rfl
@[simp] theorem State.setSlot_model (s : State) (k : Nat) (x : SlotSt) : (s.setSlot k x).model = s.model := rfl
@[simp] theorem State.setSlot_store (s : State) (k : Nat) (x : SlotSt) : (s.setSlot k x).store = s.store := rfl
@[simp] theorem State.setSlot_nv (s : State) (k : Nat) (x : SlotSt) : (s.setSlot k x).nv = s.nv := rfl
@[simp] theorem State.setSlot_fab (s : State) (k : Nat) (x : SlotSt) : (s.setSlot k x).fab = s.fab := rfl
@[simp] theorem State.setSlot_sup (s : State) (k : Nat) (x : SlotSt) : (s.setSlot k x).sup = s.sup := rfl
@[simp] theorem State.setSlot_sec (s : State) (k : Nat) (x : SlotSt) : (s.setSlot k x).sec = s.sec := rfl
@[simp] theorem State.setSlot_test (s : State) (k : Nat) (x : SlotSt) : (s.setSlot k x).test = s.test := rfl
@[simp] theorem State.setSlot_out (s : State) (k : Nat) (x : SlotSt) : (s.setSlot k x).out = s.out := rfl
@[simp] theorem State.setSlot_free (s : State) (k : Nat) (x : SlotSt) : (s.setSlot k x).free = s.free := rfl
@[simp] theorem State.setSlot_pending (s : State) (k : Nat) (x : SlotSt) : (s.setSlot k x).pending = s.pending := rfl
@[simp] theorem State.setSlot_chan_ins (s : State) (k : Nat) (x : SlotSt) : (s.setSlot k x).chan.ins = s.chan.ins := rfl
@[simp] theorem State.setSlot_chan_outs (s : State) (k : Nat) (x : SlotSt) : (s.setSlot k x).chan.outs = s.chan.outs := rfl
@[simp] theorem State.setSlot_chan_stopped (s : State) (k : Nat) (x : SlotSt) : (s.setSlot k x).chan.stopped = s.chan.stopped := rfl
@[simp] theorem State.setSlot_read_core (s : State) (k : Nat) (x : SlotSt) (j : Nat) : (s.setSlot k x).core j = s.core j := rfl
@[simp] theorem State.setSlot_read_arr (s : State) (k : Nat) (x : SlotSt) (j : Nat) : (s.setSlot k x).arr j = s.arr j := rfl
@[simp] theorem State.setSlot_read_reel (s : State) (k : Nat) (x : SlotSt) (j : Nat) : (s.setSlot k x).reel j = s.reel j := rfl
@[simp] theorem State.setSlot_read_port_ (s : State) (k : Nat) (x : SlotSt) (j : Nat) : (s.setSlot k x).port_ j = s.port_ j := rfl
@[simp] theorem State.setSlot_read_trEng (s : State) (k : Nat) (x : SlotSt) (j : Nat) : (s.setSlot k x).trEng j = s.trEng j := rfl
@[simp] theorem State.setSlot_read_obj (s : State) (k : Nat) (x : SlotSt) (j : Nat) : (s.setSlot k x).obj j = s.obj j := rfl
@[simp] theorem State.setSlot_read_queue (s : State) (k : Nat) (x : SlotSt) (j : Nat) : (s.setSlot k x).queue j = s.queue j := rfl
@[simp] theorem State.setSlot_read_sector (s : State) (k : Nat) (x : SlotSt) (j : Nat) : (s.setSlot k x).sector j = s.sector j := rfl
@[simp] theorem State.setSlot_read_bank (s : State) (k : Nat) (x : SlotSt) (j : Nat) : (s.setSlot k x).bank j = s.bank j := rfl
@[simp] theorem State.setSlot_read_strIn (s : State) (k : Nat) (x : SlotSt) (j : Nat) : (s.setSlot k x).strIn j = s.strIn j := rfl
@[simp] theorem State.setSlot_read_strOut (s : State) (k : Nat) (x : SlotSt) (j : Nat) : (s.setSlot k x).strOut j = s.strOut j := rfl
@[simp] theorem State.setSlot_read_pool (s : State) (k : Nat) (x : SlotSt) (j : Nat) : (s.setSlot k x).pool j = s.pool j := rfl
@[simp] theorem State.setSlot_read_ctr (s : State) (k : Nat) (x : SlotSt) (j : Nat) : (s.setSlot k x).ctr j = s.ctr j := rfl

/-! `setTrEng` -/
@[simp] theorem State.setTrEng_run (s : State) (k : Nat) (x : TrEng) : (s.setTrEng k x).run = s.run := rfl
@[simp] theorem State.setTrEng_time (s : State) (k : Nat) (x : TrEng) : (s.setTrEng k x).time = s.time := rfl
@[simp] theorem State.setTrEng_cfg (s : State) (k : Nat) (x : TrEng) : (s.setTrEng k x).cfg = s.cfg := rfl
@[simp] theorem State.setTrEng_chan (s : State) (k : Nat) (x : TrEng) : (s.setTrEng k x).chan = s.chan := rfl
@[simp] theorem State.setTrEng_port (s : State) (k : Nat) (x : TrEng) : (s.setTrEng k x).port = s.port := rfl
@[simp] theorem State.setTrEng_host (s : State) (k : Nat) (x : TrEng) : (s.setTrEng k x).host = s.host := rfl
@[simp] theorem State.setTrEng_ev (s : State) (k : Nat) (x : TrEng) : (s.setTrEng k x).ev = s.ev := rfl
@[simp] theorem State.setTrEng_cnt (s : State) (k : Nat) (x : TrEng) : (s.setTrEng k x).cnt = s.cnt := rfl
@[simp] theorem State.setTrEng_cores (s : State) (k : Nat) (x : TrEng) : (s.setTrEng k x).cores = s.cores := rfl
@[simp] theorem State.setTrEng_grid (s : State) (k : Nat) (x : TrEng) : (s.setTrEng k x).grid = s.grid := rfl
@[simp] theorem State.setTrEng_loft (s : State) (k : Nat) (x : TrEng) : (s.setTrEng k x).loft = s.loft := rfl
@[simp] theorem State.setTrEng_arrs (s : State) (k : Nat) (x : TrEng) : (s.setTrEng k x).arrs = s.arrs := rfl
@[simp] theorem State.setTrEng_model (s : State) (k : Nat) (x : TrEng) : (s.setTrEng k x).model = s.model := rfl
@[simp] theorem State.setTrEng_store (s : State) (k : Nat) (x : TrEng) : (s.setTrEng k x).store = s.store := rfl
@[simp] theorem State.setTrEng_nv (s : State) (k : Nat) (x : TrEng) : (s.setTrEng k x).nv = s.nv := rfl
@[simp] theorem State.setTrEng_fab (s : State) (k : Nat) (x : TrEng) : (s.setTrEng k x).fab = s.fab := rfl
@[simp] theorem State.setTrEng_sup (s : State) (k : Nat) (x : TrEng) : (s.setTrEng k x).sup = s.sup := rfl
@[simp] theorem State.setTrEng_sec (s : State) (k : Nat) (x : TrEng) : (s.setTrEng k x).sec = s.sec := rfl
@[simp] theorem State.setTrEng_test (s : State) (k : Nat) (x : TrEng) : (s.setTrEng k x).test = s.test := rfl
@[simp] theorem State.setTrEng_out (s : State) (k : Nat) (x : TrEng) : (s.setTrEng k x).out = s.out := rfl
@[simp] theorem State.setTrEng_free (s : State) (k : Nat) (x : TrEng) : (s.setTrEng k x).free = s.free := rfl
@[simp] theorem State.setTrEng_pending (s : State) (k : Nat) (x : TrEng) : (s.setTrEng k x).pending = s.pending := rfl
@[simp] theorem State.setTrEng_read_core (s : State) (k : Nat) (x : TrEng) (j : Nat) : (s.setTrEng k x).core j = s.core j := rfl
@[simp] theorem State.setTrEng_read_arr (s : State) (k : Nat) (x : TrEng) (j : Nat) : (s.setTrEng k x).arr j = s.arr j := rfl
@[simp] theorem State.setTrEng_read_reel (s : State) (k : Nat) (x : TrEng) (j : Nat) : (s.setTrEng k x).reel j = s.reel j := rfl
@[simp] theorem State.setTrEng_read_port_ (s : State) (k : Nat) (x : TrEng) (j : Nat) : (s.setTrEng k x).port_ j = s.port_ j := rfl
@[simp] theorem State.setTrEng_read_slot (s : State) (k : Nat) (x : TrEng) (j : Nat) : (s.setTrEng k x).slot j = s.slot j := rfl
@[simp] theorem State.setTrEng_read_obj (s : State) (k : Nat) (x : TrEng) (j : Nat) : (s.setTrEng k x).obj j = s.obj j := rfl
@[simp] theorem State.setTrEng_read_queue (s : State) (k : Nat) (x : TrEng) (j : Nat) : (s.setTrEng k x).queue j = s.queue j := rfl
@[simp] theorem State.setTrEng_read_sector (s : State) (k : Nat) (x : TrEng) (j : Nat) : (s.setTrEng k x).sector j = s.sector j := rfl
@[simp] theorem State.setTrEng_read_bank (s : State) (k : Nat) (x : TrEng) (j : Nat) : (s.setTrEng k x).bank j = s.bank j := rfl
@[simp] theorem State.setTrEng_read_strIn (s : State) (k : Nat) (x : TrEng) (j : Nat) : (s.setTrEng k x).strIn j = s.strIn j := rfl
@[simp] theorem State.setTrEng_read_strOut (s : State) (k : Nat) (x : TrEng) (j : Nat) : (s.setTrEng k x).strOut j = s.strOut j := rfl
@[simp] theorem State.setTrEng_read_pool (s : State) (k : Nat) (x : TrEng) (j : Nat) : (s.setTrEng k x).pool j = s.pool j := rfl
@[simp] theorem State.setTrEng_read_ctr (s : State) (k : Nat) (x : TrEng) (j : Nat) : (s.setTrEng k x).ctr j = s.ctr j := rfl

/-! `setIn` -/
@[simp] theorem State.setIn_run (s : State) (k : Nat) (x : StreamIn) : (s.setIn k x).run = s.run := rfl
@[simp] theorem State.setIn_time (s : State) (k : Nat) (x : StreamIn) : (s.setIn k x).time = s.time := rfl
@[simp] theorem State.setIn_cfg (s : State) (k : Nat) (x : StreamIn) : (s.setIn k x).cfg = s.cfg := rfl
@[simp] theorem State.setIn_port (s : State) (k : Nat) (x : StreamIn) : (s.setIn k x).port = s.port := rfl
@[simp] theorem State.setIn_host (s : State) (k : Nat) (x : StreamIn) : (s.setIn k x).host = s.host := rfl
@[simp] theorem State.setIn_ev (s : State) (k : Nat) (x : StreamIn) : (s.setIn k x).ev = s.ev := rfl
@[simp] theorem State.setIn_obs (s : State) (k : Nat) (x : StreamIn) : (s.setIn k x).obs = s.obs := rfl
@[simp] theorem State.setIn_cnt (s : State) (k : Nat) (x : StreamIn) : (s.setIn k x).cnt = s.cnt := rfl
@[simp] theorem State.setIn_cores (s : State) (k : Nat) (x : StreamIn) : (s.setIn k x).cores = s.cores := rfl
@[simp] theorem State.setIn_grid (s : State) (k : Nat) (x : StreamIn) : (s.setIn k x).grid = s.grid := rfl
@[simp] theorem State.setIn_loft (s : State) (k : Nat) (x : StreamIn) : (s.setIn k x).loft = s.loft := rfl
@[simp] theorem State.setIn_arrs (s : State) (k : Nat) (x : StreamIn) : (s.setIn k x).arrs = s.arrs := rfl
@[simp] theorem State.setIn_model (s : State) (k : Nat) (x : StreamIn) : (s.setIn k x).model = s.model := rfl
@[simp] theorem State.setIn_store (s : State) (k : Nat) (x : StreamIn) : (s.setIn k x).store = s.store := rfl
@[simp] theorem State.setIn_nv (s : State) (k : Nat) (x : StreamIn) : (s.setIn k x).nv = s.nv := rfl
@[simp] theorem State.setIn_fab (s : State) (k : Nat) (x : StreamIn) : (s.setIn k x).fab = s.fab := rfl
@[simp] theorem State.setIn_sup (s : State) (k : Nat) (x : StreamIn) : (s.setIn k x).sup = s.sup := rfl
@[simp] theorem State.setIn_sec (s : State) (k : Nat) (x : StreamIn) : (s.setIn k x).sec = s.sec := rfl
@[simp] theorem State.setIn_test (s : State) (k : Nat) (x : StreamIn) : (s.setIn k x).test = s.test := rfl
@[simp] theorem State.setIn_out (s : State) (k : Nat) (x : StreamIn) : (s.setIn k x).out = s.out := rfl
@[simp] theorem State.setIn_free (s : State) (k : Nat) (x : StreamIn) : (s.setIn k x).free = s.free := rfl
@[simp] theorem State.setIn_pending (s : State) (k : Nat) (x : StreamIn) : (s.setIn k x).pending = s.pending := rfl
@[simp] theorem State.setIn_chan_outs (s : State) (k : Nat) (x : StreamIn) : (s.setIn k x).chan.outs = s.chan.outs := rfl
@[simp] theorem State.setIn_chan_slots (s : State) (k : Nat) (x : StreamIn) : (s.setIn k x).chan.slots = s.chan.slots := rfl
@[simp] theorem State.setIn_chan_stopped (s : State) (k : Nat) (x : StreamIn) : (s.setIn k x).chan.stopped = s.chan.stopped := rfl
@[simp] theorem State.setIn_read_core (s : State) (k : Nat) (x : StreamIn) (j : Nat) : (s.setIn k x).core j = s.core j := rfl
@[simp] theorem State.setIn_read_arr (s : State) (k : Nat) (x : StreamIn) (j : Nat) : (s.setIn k x).arr j = s.arr j := rfl
@[simp] theorem State.setIn_read_reel (s : State) (k : Nat) (x : StreamIn) (j : Nat) : (s.setIn k x).reel j = s.reel j := rfl
@[simp] theorem State.setIn_read_port_ (s : State) (k : Nat) (x : StreamIn) (j : Nat) : (s.setIn k x).port_ j = s.port_ j := rfl
@[simp] theorem State.setIn_read_slot (s : State) (k : Nat) (x : StreamIn) (j : Nat) : (s.setIn k x).slot j = s.slot j := rfl
@[simp] theorem State.setIn_read_trEng (s : State) (k : Nat) (x : StreamIn) (j : Nat) : (s.setIn k x).trEng j = s.trEng j := rfl
@[simp] theorem State.setIn_read_obj (s : State) (k : Nat) (x : StreamIn) (j : Nat) : (s.setIn k x).obj j = s.obj j := rfl
@[simp] theorem State.setIn_read_queue (s : State) (k : Nat) (x : StreamIn) (j : Nat) : (s.setIn k x).queue j = s.queue j := rfl
@[simp] theorem State.setIn_read_sector (s : State) (k : Nat) (x : StreamIn) (j : Nat) : (s.setIn k x).sector j = s.sector j := rfl
@[simp] theorem State.setIn_read_bank (s : State) (k : Nat) (x : StreamIn) (j : Nat) : (s.setIn k x).bank j = s.bank j := rfl
@[simp] theorem State.setIn_read_strOut (s : State) (k : Nat) (x : StreamIn) (j : Nat) : (s.setIn k x).strOut j = s.strOut j := rfl
@[simp] theorem State.setIn_read_pool (s : State) (k : Nat) (x : StreamIn) (j : Nat) : (s.setIn k x).pool j = s.pool j := rfl
@[simp] theorem State.setIn_read_ctr (s : State) (k : Nat) (x : StreamIn) (j : Nat) : (s.setIn k x).ctr j = s.ctr j := rfl

/-! `setStrOut` -/
@[simp] theorem State.setStrOut_run (s : State) (k : Nat) (x : StreamOut) : (s.setStrOut k x).run = s.run := rfl
@[simp] theorem State.setStrOut_time (s : State) (k : Nat) (x : StreamOut) : (s.setStrOut k x).time = s.time := rfl
@[simp] theorem State.setStrOut_cfg (s : State) (k : Nat) (x : StreamOut) : (s.setStrOut k x).cfg = s.cfg := rfl
@[simp] theorem State.setStrOut_port (s : State) (k : Nat) (x : StreamOut) : (s.setStrOut k x).port = s.port := rfl
@[simp] theorem State.setStrOut_host (s : State) (k : Nat) (x : StreamOut) : (s.setStrOut k x).host = s.host := rfl
@[simp] theorem State.setStrOut_ev (s : State) (k : Nat) (x : StreamOut) : (s.setStrOut k x).ev = s.ev := rfl
@[simp] theorem State.setStrOut_obs (s : State) (k : Nat) (x : StreamOut) : (s.setStrOut k x).obs = s.obs := rfl
@[simp] theorem State.setStrOut_cnt (s : State) (k : Nat) (x : StreamOut) : (s.setStrOut k x).cnt = s.cnt := rfl
@[simp] theorem State.setStrOut_cores (s : State) (k : Nat) (x : StreamOut) : (s.setStrOut k x).cores = s.cores := rfl
@[simp] theorem State.setStrOut_grid (s : State) (k : Nat) (x : StreamOut) : (s.setStrOut k x).grid = s.grid := rfl
@[simp] theorem State.setStrOut_loft (s : State) (k : Nat) (x : StreamOut) : (s.setStrOut k x).loft = s.loft := rfl
@[simp] theorem State.setStrOut_arrs (s : State) (k : Nat) (x : StreamOut) : (s.setStrOut k x).arrs = s.arrs := rfl
@[simp] theorem State.setStrOut_model (s : State) (k : Nat) (x : StreamOut) : (s.setStrOut k x).model = s.model := rfl
@[simp] theorem State.setStrOut_store (s : State) (k : Nat) (x : StreamOut) : (s.setStrOut k x).store = s.store := rfl
@[simp] theorem State.setStrOut_nv (s : State) (k : Nat) (x : StreamOut) : (s.setStrOut k x).nv = s.nv := rfl
@[simp] theorem State.setStrOut_fab (s : State) (k : Nat) (x : StreamOut) : (s.setStrOut k x).fab = s.fab := rfl
@[simp] theorem State.setStrOut_sup (s : State) (k : Nat) (x : StreamOut) : (s.setStrOut k x).sup = s.sup := rfl
@[simp] theorem State.setStrOut_sec (s : State) (k : Nat) (x : StreamOut) : (s.setStrOut k x).sec = s.sec := rfl
@[simp] theorem State.setStrOut_test (s : State) (k : Nat) (x : StreamOut) : (s.setStrOut k x).test = s.test := rfl
@[simp] theorem State.setStrOut_out (s : State) (k : Nat) (x : StreamOut) : (s.setStrOut k x).out = s.out := rfl
@[simp] theorem State.setStrOut_free (s : State) (k : Nat) (x : StreamOut) : (s.setStrOut k x).free = s.free := rfl
@[simp] theorem State.setStrOut_pending (s : State) (k : Nat) (x : StreamOut) : (s.setStrOut k x).pending = s.pending := rfl
@[simp] theorem State.setStrOut_chan_ins (s : State) (k : Nat) (x : StreamOut) : (s.setStrOut k x).chan.ins = s.chan.ins := rfl
@[simp] theorem State.setStrOut_chan_slots (s : State) (k : Nat) (x : StreamOut) : (s.setStrOut k x).chan.slots = s.chan.slots := rfl
@[simp] theorem State.setStrOut_chan_stopped (s : State) (k : Nat) (x : StreamOut) : (s.setStrOut k x).chan.stopped = s.chan.stopped := rfl
@[simp] theorem State.setStrOut_read_core (s : State) (k : Nat) (x : StreamOut) (j : Nat) : (s.setStrOut k x).core j = s.core j := rfl
@[simp] theorem State.setStrOut_read_arr (s : State) (k : Nat) (x : StreamOut) (j : Nat) : (s.setStrOut k x).arr j = s.arr j := rfl
@[simp] theorem State.setStrOut_read_reel (s : State) (k : Nat) (x : StreamOut) (j : Nat) : (s.setStrOut k x).reel j = s.reel j := rfl
@[simp] theorem State.setStrOut_read_port_ (s : State) (k : Nat) (x : StreamOut) (j : Nat) : (s.setStrOut k x).port_ j = s.port_ j := rfl
@[simp] theorem State.setStrOut_read_slot (s : State) (k : Nat) (x : StreamOut) (j : Nat) : (s.setStrOut k x).slot j = s.slot j := rfl
@[simp] theorem State.setStrOut_read_trEng (s : State) (k : Nat) (x : StreamOut) (j : Nat) : (s.setStrOut k x).trEng j = s.trEng j := rfl
@[simp] theorem State.setStrOut_read_obj (s : State) (k : Nat) (x : StreamOut) (j : Nat) : (s.setStrOut k x).obj j = s.obj j := rfl
@[simp] theorem State.setStrOut_read_queue (s : State) (k : Nat) (x : StreamOut) (j : Nat) : (s.setStrOut k x).queue j = s.queue j := rfl
@[simp] theorem State.setStrOut_read_sector (s : State) (k : Nat) (x : StreamOut) (j : Nat) : (s.setStrOut k x).sector j = s.sector j := rfl
@[simp] theorem State.setStrOut_read_bank (s : State) (k : Nat) (x : StreamOut) (j : Nat) : (s.setStrOut k x).bank j = s.bank j := rfl
@[simp] theorem State.setStrOut_read_strIn (s : State) (k : Nat) (x : StreamOut) (j : Nat) : (s.setStrOut k x).strIn j = s.strIn j := rfl
@[simp] theorem State.setStrOut_read_pool (s : State) (k : Nat) (x : StreamOut) (j : Nat) : (s.setStrOut k x).pool j = s.pool j := rfl
@[simp] theorem State.setStrOut_read_ctr (s : State) (k : Nat) (x : StreamOut) (j : Nat) : (s.setStrOut k x).ctr j = s.ctr j := rfl

/-! `setObj` -/
@[simp] theorem State.setObj_run (s : State) (k : Nat) (x : SyncObj) : (s.setObj k x).run = s.run := rfl
@[simp] theorem State.setObj_time (s : State) (k : Nat) (x : SyncObj) : (s.setObj k x).time = s.time := rfl
@[simp] theorem State.setObj_cfg (s : State) (k : Nat) (x : SyncObj) : (s.setObj k x).cfg = s.cfg := rfl
@[simp] theorem State.setObj_chan (s : State) (k : Nat) (x : SyncObj) : (s.setObj k x).chan = s.chan := rfl
@[simp] theorem State.setObj_port (s : State) (k : Nat) (x : SyncObj) : (s.setObj k x).port = s.port := rfl
@[simp] theorem State.setObj_host (s : State) (k : Nat) (x : SyncObj) : (s.setObj k x).host = s.host := rfl
@[simp] theorem State.setObj_ev (s : State) (k : Nat) (x : SyncObj) : (s.setObj k x).ev = s.ev := rfl
@[simp] theorem State.setObj_obs (s : State) (k : Nat) (x : SyncObj) : (s.setObj k x).obs = s.obs := rfl
@[simp] theorem State.setObj_cnt (s : State) (k : Nat) (x : SyncObj) : (s.setObj k x).cnt = s.cnt := rfl
@[simp] theorem State.setObj_cores (s : State) (k : Nat) (x : SyncObj) : (s.setObj k x).cores = s.cores := rfl
@[simp] theorem State.setObj_loft (s : State) (k : Nat) (x : SyncObj) : (s.setObj k x).loft = s.loft := rfl
@[simp] theorem State.setObj_arrs (s : State) (k : Nat) (x : SyncObj) : (s.setObj k x).arrs = s.arrs := rfl
@[simp] theorem State.setObj_model (s : State) (k : Nat) (x : SyncObj) : (s.setObj k x).model = s.model := rfl
@[simp] theorem State.setObj_store (s : State) (k : Nat) (x : SyncObj) : (s.setObj k x).store = s.store := rfl
@[simp] theorem State.setObj_nv (s : State) (k : Nat) (x : SyncObj) : (s.setObj k x).nv = s.nv := rfl
@[simp] theorem State.setObj_fab (s : State) (k : Nat) (x : SyncObj) : (s.setObj k x).fab = s.fab := rfl
@[simp] theorem State.setObj_sup (s : State) (k : Nat) (x : SyncObj) : (s.setObj k x).sup = s.sup := rfl
@[simp] theorem State.setObj_sec (s : State) (k : Nat) (x : SyncObj) : (s.setObj k x).sec = s.sec := rfl
@[simp] theorem State.setObj_test (s : State) (k : Nat) (x : SyncObj) : (s.setObj k x).test = s.test := rfl
@[simp] theorem State.setObj_out (s : State) (k : Nat) (x : SyncObj) : (s.setObj k x).out = s.out := rfl
@[simp] theorem State.setObj_free (s : State) (k : Nat) (x : SyncObj) : (s.setObj k x).free = s.free := rfl
@[simp] theorem State.setObj_pending (s : State) (k : Nat) (x : SyncObj) : (s.setObj k x).pending = s.pending := rfl
@[simp] theorem State.setObj_grid_queues (s : State) (k : Nat) (x : SyncObj) : (s.setObj k x).grid.queues = s.grid.queues := rfl
@[simp] theorem State.setObj_grid_mesh (s : State) (k : Nat) (x : SyncObj) : (s.setObj k x).grid.mesh = s.grid.mesh := rfl
@[simp] theorem State.setObj_grid_misused (s : State) (k : Nat) (x : SyncObj) : (s.setObj k x).grid.misused = s.grid.misused := rfl
@[simp] theorem State.setObj_read_core (s : State) (k : Nat) (x : SyncObj) (j : Nat) : (s.setObj k x).core j = s.core j := rfl
@[simp] theorem State.setObj_read_arr (s : State) (k : Nat) (x : SyncObj) (j : Nat) : (s.setObj k x).arr j = s.arr j := rfl
@[simp] theorem State.setObj_read_reel (s : State) (k : Nat) (x : SyncObj) (j : Nat) : (s.setObj k x).reel j = s.reel j := rfl
@[simp] theorem State.setObj_read_port_ (s : State) (k : Nat) (x : SyncObj) (j : Nat) : (s.setObj k x).port_ j = s.port_ j := rfl
@[simp] theorem State.setObj_read_slot (s : State) (k : Nat) (x : SyncObj) (j : Nat) : (s.setObj k x).slot j = s.slot j := rfl
@[simp] theorem State.setObj_read_trEng (s : State) (k : Nat) (x : SyncObj) (j : Nat) : (s.setObj k x).trEng j = s.trEng j := rfl
@[simp] theorem State.setObj_read_queue (s : State) (k : Nat) (x : SyncObj) (j : Nat) : (s.setObj k x).queue j = s.queue j := rfl
@[simp] theorem State.setObj_read_sector (s : State) (k : Nat) (x : SyncObj) (j : Nat) : (s.setObj k x).sector j = s.sector j := rfl
@[simp] theorem State.setObj_read_bank (s : State) (k : Nat) (x : SyncObj) (j : Nat) : (s.setObj k x).bank j = s.bank j := rfl
@[simp] theorem State.setObj_read_strIn (s : State) (k : Nat) (x : SyncObj) (j : Nat) : (s.setObj k x).strIn j = s.strIn j := rfl
@[simp] theorem State.setObj_read_strOut (s : State) (k : Nat) (x : SyncObj) (j : Nat) : (s.setObj k x).strOut j = s.strOut j := rfl
@[simp] theorem State.setObj_read_pool (s : State) (k : Nat) (x : SyncObj) (j : Nat) : (s.setObj k x).pool j = s.pool j := rfl
@[simp] theorem State.setObj_read_ctr (s : State) (k : Nat) (x : SyncObj) (j : Nat) : (s.setObj k x).ctr j = s.ctr j := rfl

/-! `setQueue` -/
@[simp] theorem State.setQueue_run (s : State) (k : Nat) (x : List DWord) : (s.setQueue k x).run = s.run := rfl
@[simp] theorem State.setQueue_time (s : State) (k : Nat) (x : List DWord) : (s.setQueue k x).time = s.time := rfl
@[simp] theorem State.setQueue_cfg (s : State) (k : Nat) (x : List DWord) : (s.setQueue k x).cfg = s.cfg := rfl
@[simp] theorem State.setQueue_chan (s : State) (k : Nat) (x : List DWord) : (s.setQueue k x).chan = s.chan := rfl
@[simp] theorem State.setQueue_port (s : State) (k : Nat) (x : List DWord) : (s.setQueue k x).port = s.port := rfl
@[simp] theorem State.setQueue_host (s : State) (k : Nat) (x : List DWord) : (s.setQueue k x).host = s.host := rfl
@[simp] theorem State.setQueue_ev (s : State) (k : Nat) (x : List DWord) : (s.setQueue k x).ev = s.ev := rfl
@[simp] theorem State.setQueue_obs (s : State) (k : Nat) (x : List DWord) : (s.setQueue k x).obs = s.obs := rfl
@[simp] theorem State.setQueue_cnt (s : State) (k : Nat) (x : List DWord) : (s.setQueue k x).cnt = s.cnt := rfl
@[simp] theorem State.setQueue_cores (s : State) (k : Nat) (x : List DWord) : (s.setQueue k x).cores = s.cores := rfl
@[simp] theorem State.setQueue_loft (s : State) (k : Nat) (x : List DWord) : (s.setQueue k x).loft = s.loft := rfl
@[simp] theorem State.setQueue_arrs (s : State) (k : Nat) (x : List DWord) : (s.setQueue k x).arrs = s.arrs := rfl
@[simp] theorem State.setQueue_model (s : State) (k : Nat) (x : List DWord) : (s.setQueue k x).model = s.model := rfl
@[simp] theorem State.setQueue_store (s : State) (k : Nat) (x : List DWord) : (s.setQueue k x).store = s.store := rfl
@[simp] theorem State.setQueue_nv (s : State) (k : Nat) (x : List DWord) : (s.setQueue k x).nv = s.nv := rfl
@[simp] theorem State.setQueue_fab (s : State) (k : Nat) (x : List DWord) : (s.setQueue k x).fab = s.fab := rfl
@[simp] theorem State.setQueue_sup (s : State) (k : Nat) (x : List DWord) : (s.setQueue k x).sup = s.sup := rfl
@[simp] theorem State.setQueue_sec (s : State) (k : Nat) (x : List DWord) : (s.setQueue k x).sec = s.sec := rfl
@[simp] theorem State.setQueue_test (s : State) (k : Nat) (x : List DWord) : (s.setQueue k x).test = s.test := rfl
@[simp] theorem State.setQueue_out (s : State) (k : Nat) (x : List DWord) : (s.setQueue k x).out = s.out := rfl
@[simp] theorem State.setQueue_free (s : State) (k : Nat) (x : List DWord) : (s.setQueue k x).free = s.free := rfl
@[simp] theorem State.setQueue_pending (s : State) (k : Nat) (x : List DWord) : (s.setQueue k x).pending = s.pending := rfl
@[simp] theorem State.setQueue_grid_objs (s : State) (k : Nat) (x : List DWord) : (s.setQueue k x).grid.objs = s.grid.objs := rfl
@[simp] theorem State.setQueue_grid_mesh (s : State) (k : Nat) (x : List DWord) : (s.setQueue k x).grid.mesh = s.grid.mesh := rfl
@[simp] theorem State.setQueue_grid_misused (s : State) (k : Nat) (x : List DWord) : (s.setQueue k x).grid.misused = s.grid.misused := rfl
@[simp] theorem State.setQueue_read_core (s : State) (k : Nat) (x : List DWord) (j : Nat) : (s.setQueue k x).core j = s.core j := rfl
@[simp] theorem State.setQueue_read_arr (s : State) (k : Nat) (x : List DWord) (j : Nat) : (s.setQueue k x).arr j = s.arr j := rfl
@[simp] theorem State.setQueue_read_reel (s : State) (k : Nat) (x : List DWord) (j : Nat) : (s.setQueue k x).reel j = s.reel j := rfl
@[simp] theorem State.setQueue_read_port_ (s : State) (k : Nat) (x : List DWord) (j : Nat) : (s.setQueue k x).port_ j = s.port_ j := rfl
@[simp] theorem State.setQueue_read_slot (s : State) (k : Nat) (x : List DWord) (j : Nat) : (s.setQueue k x).slot j = s.slot j := rfl
@[simp] theorem State.setQueue_read_trEng (s : State) (k : Nat) (x : List DWord) (j : Nat) : (s.setQueue k x).trEng j = s.trEng j := rfl
@[simp] theorem State.setQueue_read_obj (s : State) (k : Nat) (x : List DWord) (j : Nat) : (s.setQueue k x).obj j = s.obj j := rfl
@[simp] theorem State.setQueue_read_sector (s : State) (k : Nat) (x : List DWord) (j : Nat) : (s.setQueue k x).sector j = s.sector j := rfl
@[simp] theorem State.setQueue_read_bank (s : State) (k : Nat) (x : List DWord) (j : Nat) : (s.setQueue k x).bank j = s.bank j := rfl
@[simp] theorem State.setQueue_read_strIn (s : State) (k : Nat) (x : List DWord) (j : Nat) : (s.setQueue k x).strIn j = s.strIn j := rfl
@[simp] theorem State.setQueue_read_strOut (s : State) (k : Nat) (x : List DWord) (j : Nat) : (s.setQueue k x).strOut j = s.strOut j := rfl
@[simp] theorem State.setQueue_read_pool (s : State) (k : Nat) (x : List DWord) (j : Nat) : (s.setQueue k x).pool j = s.pool j := rfl
@[simp] theorem State.setQueue_read_ctr (s : State) (k : Nat) (x : List DWord) (j : Nat) : (s.setQueue k x).ctr j = s.ctr j := rfl

/-! `setSector` -/
@[simp] theorem State.setSector_run (s : State) (k : Nat) (x : Sector) : (s.setSector k x).run = s.run := rfl
@[simp] theorem State.setSector_time (s : State) (k : Nat) (x : Sector) : (s.setSector k x).time = s.time := rfl
@[simp] theorem State.setSector_cfg (s : State) (k : Nat) (x : Sector) : (s.setSector k x).cfg = s.cfg := rfl
@[simp] theorem State.setSector_chan (s : State) (k : Nat) (x : Sector) : (s.setSector k x).chan = s.chan := rfl
@[simp] theorem State.setSector_port (s : State) (k : Nat) (x : Sector) : (s.setSector k x).port = s.port := rfl
@[simp] theorem State.setSector_host (s : State) (k : Nat) (x : Sector) : (s.setSector k x).host = s.host := rfl
@[simp] theorem State.setSector_ev (s : State) (k : Nat) (x : Sector) : (s.setSector k x).ev = s.ev := rfl
@[simp] theorem State.setSector_obs (s : State) (k : Nat) (x : Sector) : (s.setSector k x).obs = s.obs := rfl
@[simp] theorem State.setSector_cnt (s : State) (k : Nat) (x : Sector) : (s.setSector k x).cnt = s.cnt := rfl
@[simp] theorem State.setSector_cores (s : State) (k : Nat) (x : Sector) : (s.setSector k x).cores = s.cores := rfl
@[simp] theorem State.setSector_grid (s : State) (k : Nat) (x : Sector) : (s.setSector k x).grid = s.grid := rfl
@[simp] theorem State.setSector_loft (s : State) (k : Nat) (x : Sector) : (s.setSector k x).loft = s.loft := rfl
@[simp] theorem State.setSector_arrs (s : State) (k : Nat) (x : Sector) : (s.setSector k x).arrs = s.arrs := rfl
@[simp] theorem State.setSector_model (s : State) (k : Nat) (x : Sector) : (s.setSector k x).model = s.model := rfl
@[simp] theorem State.setSector_store (s : State) (k : Nat) (x : Sector) : (s.setSector k x).store = s.store := rfl
@[simp] theorem State.setSector_fab (s : State) (k : Nat) (x : Sector) : (s.setSector k x).fab = s.fab := rfl
@[simp] theorem State.setSector_sup (s : State) (k : Nat) (x : Sector) : (s.setSector k x).sup = s.sup := rfl
@[simp] theorem State.setSector_sec (s : State) (k : Nat) (x : Sector) : (s.setSector k x).sec = s.sec := rfl
@[simp] theorem State.setSector_test (s : State) (k : Nat) (x : Sector) : (s.setSector k x).test = s.test := rfl
@[simp] theorem State.setSector_out (s : State) (k : Nat) (x : Sector) : (s.setSector k x).out = s.out := rfl
@[simp] theorem State.setSector_free (s : State) (k : Nat) (x : Sector) : (s.setSector k x).free = s.free := rfl
@[simp] theorem State.setSector_pending (s : State) (k : Nat) (x : Sector) : (s.setSector k x).pending = s.pending := rfl
@[simp] theorem State.setSector_nv_ckpt (s : State) (k : Nat) (x : Sector) : (s.setSector k x).nv.ckpt = s.nv.ckpt := rfl
@[simp] theorem State.setSector_nv_journal (s : State) (k : Nat) (x : Sector) : (s.setSector k x).nv.journal = s.nv.journal := rfl
@[simp] theorem State.setSector_nv_jseq (s : State) (k : Nat) (x : Sector) : (s.setSector k x).nv.jseq = s.nv.jseq := rfl
@[simp] theorem State.setSector_nv_intents (s : State) (k : Nat) (x : Sector) : (s.setSector k x).nv.intents = s.nv.intents := rfl
@[simp] theorem State.setSector_nv_iseq (s : State) (k : Nat) (x : Sector) : (s.setSector k x).nv.iseq = s.nv.iseq := rfl
@[simp] theorem State.setSector_nv_pools (s : State) (k : Nat) (x : Sector) : (s.setSector k x).nv.pools = s.nv.pools := rfl
@[simp] theorem State.setSector_nv_retiredList (s : State) (k : Nat) (x : Sector) : (s.setSector k x).nv.retiredList = s.nv.retiredList := rfl
@[simp] theorem State.setSector_nv_otp (s : State) (k : Nat) (x : Sector) : (s.setSector k x).nv.otp = s.nv.otp := rfl
@[simp] theorem State.setSector_nv_otpDone (s : State) (k : Nat) (x : Sector) : (s.setSector k x).nv.otpDone = s.nv.otpDone := rfl
@[simp] theorem State.setSector_nv_log (s : State) (k : Nat) (x : Sector) : (s.setSector k x).nv.log = s.nv.log := rfl
@[simp] theorem State.setSector_nv_dir (s : State) (k : Nat) (x : Sector) : (s.setSector k x).nv.dir = s.nv.dir := rfl
@[simp] theorem State.setSector_nv_health (s : State) (k : Nat) (x : Sector) : (s.setSector k x).nv.health = s.nv.health := rfl
@[simp] theorem State.setSector_nv_keys (s : State) (k : Nat) (x : Sector) : (s.setSector k x).nv.keys = s.nv.keys := rfl
@[simp] theorem State.setSector_nv_cells (s : State) (k : Nat) (x : Sector) : (s.setSector k x).nv.cells = s.nv.cells := rfl
@[simp] theorem State.setSector_nv_alloc (s : State) (k : Nat) (x : Sector) : (s.setSector k x).nv.alloc = s.nv.alloc := rfl
@[simp] theorem State.setSector_nv_holds (s : State) (k : Nat) (x : Sector) : (s.setSector k x).nv.holds = s.nv.holds := rfl
@[simp] theorem State.setSector_read_core (s : State) (k : Nat) (x : Sector) (j : Nat) : (s.setSector k x).core j = s.core j := rfl
@[simp] theorem State.setSector_read_arr (s : State) (k : Nat) (x : Sector) (j : Nat) : (s.setSector k x).arr j = s.arr j := rfl
@[simp] theorem State.setSector_read_reel (s : State) (k : Nat) (x : Sector) (j : Nat) : (s.setSector k x).reel j = s.reel j := rfl
@[simp] theorem State.setSector_read_port_ (s : State) (k : Nat) (x : Sector) (j : Nat) : (s.setSector k x).port_ j = s.port_ j := rfl
@[simp] theorem State.setSector_read_slot (s : State) (k : Nat) (x : Sector) (j : Nat) : (s.setSector k x).slot j = s.slot j := rfl
@[simp] theorem State.setSector_read_trEng (s : State) (k : Nat) (x : Sector) (j : Nat) : (s.setSector k x).trEng j = s.trEng j := rfl
@[simp] theorem State.setSector_read_obj (s : State) (k : Nat) (x : Sector) (j : Nat) : (s.setSector k x).obj j = s.obj j := rfl
@[simp] theorem State.setSector_read_queue (s : State) (k : Nat) (x : Sector) (j : Nat) : (s.setSector k x).queue j = s.queue j := rfl
@[simp] theorem State.setSector_read_bank (s : State) (k : Nat) (x : Sector) (j : Nat) : (s.setSector k x).bank j = s.bank j := rfl
@[simp] theorem State.setSector_read_strIn (s : State) (k : Nat) (x : Sector) (j : Nat) : (s.setSector k x).strIn j = s.strIn j := rfl
@[simp] theorem State.setSector_read_strOut (s : State) (k : Nat) (x : Sector) (j : Nat) : (s.setSector k x).strOut j = s.strOut j := rfl
@[simp] theorem State.setSector_read_pool (s : State) (k : Nat) (x : Sector) (j : Nat) : (s.setSector k x).pool j = s.pool j := rfl
@[simp] theorem State.setSector_read_ctr (s : State) (k : Nat) (x : Sector) (j : Nat) : (s.setSector k x).ctr j = s.ctr j := rfl

/-! `setEnt` -/
@[simp] theorem State.setEnt_run (s : State) (k : Nat) (x : MapEnt) : (s.setEnt k x).run = s.run := rfl
@[simp] theorem State.setEnt_time (s : State) (k : Nat) (x : MapEnt) : (s.setEnt k x).time = s.time := rfl
@[simp] theorem State.setEnt_cfg (s : State) (k : Nat) (x : MapEnt) : (s.setEnt k x).cfg = s.cfg := rfl
@[simp] theorem State.setEnt_chan (s : State) (k : Nat) (x : MapEnt) : (s.setEnt k x).chan = s.chan := rfl
@[simp] theorem State.setEnt_port (s : State) (k : Nat) (x : MapEnt) : (s.setEnt k x).port = s.port := rfl
@[simp] theorem State.setEnt_host (s : State) (k : Nat) (x : MapEnt) : (s.setEnt k x).host = s.host := rfl
@[simp] theorem State.setEnt_ev (s : State) (k : Nat) (x : MapEnt) : (s.setEnt k x).ev = s.ev := rfl
@[simp] theorem State.setEnt_obs (s : State) (k : Nat) (x : MapEnt) : (s.setEnt k x).obs = s.obs := rfl
@[simp] theorem State.setEnt_cnt (s : State) (k : Nat) (x : MapEnt) : (s.setEnt k x).cnt = s.cnt := rfl
@[simp] theorem State.setEnt_cores (s : State) (k : Nat) (x : MapEnt) : (s.setEnt k x).cores = s.cores := rfl
@[simp] theorem State.setEnt_grid (s : State) (k : Nat) (x : MapEnt) : (s.setEnt k x).grid = s.grid := rfl
@[simp] theorem State.setEnt_loft (s : State) (k : Nat) (x : MapEnt) : (s.setEnt k x).loft = s.loft := rfl
@[simp] theorem State.setEnt_arrs (s : State) (k : Nat) (x : MapEnt) : (s.setEnt k x).arrs = s.arrs := rfl
@[simp] theorem State.setEnt_model (s : State) (k : Nat) (x : MapEnt) : (s.setEnt k x).model = s.model := rfl
@[simp] theorem State.setEnt_nv (s : State) (k : Nat) (x : MapEnt) : (s.setEnt k x).nv = s.nv := rfl
@[simp] theorem State.setEnt_fab (s : State) (k : Nat) (x : MapEnt) : (s.setEnt k x).fab = s.fab := rfl
@[simp] theorem State.setEnt_sup (s : State) (k : Nat) (x : MapEnt) : (s.setEnt k x).sup = s.sup := rfl
@[simp] theorem State.setEnt_sec (s : State) (k : Nat) (x : MapEnt) : (s.setEnt k x).sec = s.sec := rfl
@[simp] theorem State.setEnt_test (s : State) (k : Nat) (x : MapEnt) : (s.setEnt k x).test = s.test := rfl
@[simp] theorem State.setEnt_out (s : State) (k : Nat) (x : MapEnt) : (s.setEnt k x).out = s.out := rfl
@[simp] theorem State.setEnt_free (s : State) (k : Nat) (x : MapEnt) : (s.setEnt k x).free = s.free := rfl
@[simp] theorem State.setEnt_pending (s : State) (k : Nat) (x : MapEnt) : (s.setEnt k x).pending = s.pending := rfl
@[simp] theorem State.setEnt_store_protect (s : State) (k : Nat) (x : MapEnt) : (s.setEnt k x).store.protect = s.store.protect := rfl
@[simp] theorem State.setEnt_store_banks (s : State) (k : Nat) (x : MapEnt) : (s.setEnt k x).store.banks = s.store.banks := rfl
@[simp] theorem State.setEnt_store_lowSaid (s : State) (k : Nat) (x : MapEnt) : (s.setEnt k x).store.lowSaid = s.store.lowSaid := rfl
@[simp] theorem State.setEnt_store_last (s : State) (k : Nat) (x : MapEnt) : (s.setEnt k x).store.last = s.store.last := rfl
@[simp] theorem State.setEnt_read_core (s : State) (k : Nat) (x : MapEnt) (j : Nat) : (s.setEnt k x).core j = s.core j := rfl
@[simp] theorem State.setEnt_read_arr (s : State) (k : Nat) (x : MapEnt) (j : Nat) : (s.setEnt k x).arr j = s.arr j := rfl
@[simp] theorem State.setEnt_read_reel (s : State) (k : Nat) (x : MapEnt) (j : Nat) : (s.setEnt k x).reel j = s.reel j := rfl
@[simp] theorem State.setEnt_read_port_ (s : State) (k : Nat) (x : MapEnt) (j : Nat) : (s.setEnt k x).port_ j = s.port_ j := rfl
@[simp] theorem State.setEnt_read_slot (s : State) (k : Nat) (x : MapEnt) (j : Nat) : (s.setEnt k x).slot j = s.slot j := rfl
@[simp] theorem State.setEnt_read_trEng (s : State) (k : Nat) (x : MapEnt) (j : Nat) : (s.setEnt k x).trEng j = s.trEng j := rfl
@[simp] theorem State.setEnt_read_obj (s : State) (k : Nat) (x : MapEnt) (j : Nat) : (s.setEnt k x).obj j = s.obj j := rfl
@[simp] theorem State.setEnt_read_queue (s : State) (k : Nat) (x : MapEnt) (j : Nat) : (s.setEnt k x).queue j = s.queue j := rfl
@[simp] theorem State.setEnt_read_sector (s : State) (k : Nat) (x : MapEnt) (j : Nat) : (s.setEnt k x).sector j = s.sector j := rfl
@[simp] theorem State.setEnt_read_bank (s : State) (k : Nat) (x : MapEnt) (j : Nat) : (s.setEnt k x).bank j = s.bank j := rfl
@[simp] theorem State.setEnt_read_strIn (s : State) (k : Nat) (x : MapEnt) (j : Nat) : (s.setEnt k x).strIn j = s.strIn j := rfl
@[simp] theorem State.setEnt_read_strOut (s : State) (k : Nat) (x : MapEnt) (j : Nat) : (s.setEnt k x).strOut j = s.strOut j := rfl
@[simp] theorem State.setEnt_read_pool (s : State) (k : Nat) (x : MapEnt) (j : Nat) : (s.setEnt k x).pool j = s.pool j := rfl
@[simp] theorem State.setEnt_read_ctr (s : State) (k : Nat) (x : MapEnt) (j : Nat) : (s.setEnt k x).ctr j = s.ctr j := rfl

/-! `setBank` -/
@[simp] theorem State.setBank_run (s : State) (k : Nat) (x : Bank) : (s.setBank k x).run = s.run := rfl
@[simp] theorem State.setBank_time (s : State) (k : Nat) (x : Bank) : (s.setBank k x).time = s.time := rfl
@[simp] theorem State.setBank_cfg (s : State) (k : Nat) (x : Bank) : (s.setBank k x).cfg = s.cfg := rfl
@[simp] theorem State.setBank_chan (s : State) (k : Nat) (x : Bank) : (s.setBank k x).chan = s.chan := rfl
@[simp] theorem State.setBank_port (s : State) (k : Nat) (x : Bank) : (s.setBank k x).port = s.port := rfl
@[simp] theorem State.setBank_host (s : State) (k : Nat) (x : Bank) : (s.setBank k x).host = s.host := rfl
@[simp] theorem State.setBank_ev (s : State) (k : Nat) (x : Bank) : (s.setBank k x).ev = s.ev := rfl
@[simp] theorem State.setBank_obs (s : State) (k : Nat) (x : Bank) : (s.setBank k x).obs = s.obs := rfl
@[simp] theorem State.setBank_cnt (s : State) (k : Nat) (x : Bank) : (s.setBank k x).cnt = s.cnt := rfl
@[simp] theorem State.setBank_cores (s : State) (k : Nat) (x : Bank) : (s.setBank k x).cores = s.cores := rfl
@[simp] theorem State.setBank_grid (s : State) (k : Nat) (x : Bank) : (s.setBank k x).grid = s.grid := rfl
@[simp] theorem State.setBank_loft (s : State) (k : Nat) (x : Bank) : (s.setBank k x).loft = s.loft := rfl
@[simp] theorem State.setBank_arrs (s : State) (k : Nat) (x : Bank) : (s.setBank k x).arrs = s.arrs := rfl
@[simp] theorem State.setBank_model (s : State) (k : Nat) (x : Bank) : (s.setBank k x).model = s.model := rfl
@[simp] theorem State.setBank_nv (s : State) (k : Nat) (x : Bank) : (s.setBank k x).nv = s.nv := rfl
@[simp] theorem State.setBank_fab (s : State) (k : Nat) (x : Bank) : (s.setBank k x).fab = s.fab := rfl
@[simp] theorem State.setBank_sup (s : State) (k : Nat) (x : Bank) : (s.setBank k x).sup = s.sup := rfl
@[simp] theorem State.setBank_sec (s : State) (k : Nat) (x : Bank) : (s.setBank k x).sec = s.sec := rfl
@[simp] theorem State.setBank_test (s : State) (k : Nat) (x : Bank) : (s.setBank k x).test = s.test := rfl
@[simp] theorem State.setBank_out (s : State) (k : Nat) (x : Bank) : (s.setBank k x).out = s.out := rfl
@[simp] theorem State.setBank_free (s : State) (k : Nat) (x : Bank) : (s.setBank k x).free = s.free := rfl
@[simp] theorem State.setBank_pending (s : State) (k : Nat) (x : Bank) : (s.setBank k x).pending = s.pending := rfl
@[simp] theorem State.setBank_store_map (s : State) (k : Nat) (x : Bank) : (s.setBank k x).store.map = s.store.map := rfl
@[simp] theorem State.setBank_store_protect (s : State) (k : Nat) (x : Bank) : (s.setBank k x).store.protect = s.store.protect := rfl
@[simp] theorem State.setBank_store_lowSaid (s : State) (k : Nat) (x : Bank) : (s.setBank k x).store.lowSaid = s.store.lowSaid := rfl
@[simp] theorem State.setBank_store_last (s : State) (k : Nat) (x : Bank) : (s.setBank k x).store.last = s.store.last := rfl
@[simp] theorem State.setBank_read_core (s : State) (k : Nat) (x : Bank) (j : Nat) : (s.setBank k x).core j = s.core j := rfl
@[simp] theorem State.setBank_read_arr (s : State) (k : Nat) (x : Bank) (j : Nat) : (s.setBank k x).arr j = s.arr j := rfl
@[simp] theorem State.setBank_read_reel (s : State) (k : Nat) (x : Bank) (j : Nat) : (s.setBank k x).reel j = s.reel j := rfl
@[simp] theorem State.setBank_read_port_ (s : State) (k : Nat) (x : Bank) (j : Nat) : (s.setBank k x).port_ j = s.port_ j := rfl
@[simp] theorem State.setBank_read_slot (s : State) (k : Nat) (x : Bank) (j : Nat) : (s.setBank k x).slot j = s.slot j := rfl
@[simp] theorem State.setBank_read_trEng (s : State) (k : Nat) (x : Bank) (j : Nat) : (s.setBank k x).trEng j = s.trEng j := rfl
@[simp] theorem State.setBank_read_obj (s : State) (k : Nat) (x : Bank) (j : Nat) : (s.setBank k x).obj j = s.obj j := rfl
@[simp] theorem State.setBank_read_queue (s : State) (k : Nat) (x : Bank) (j : Nat) : (s.setBank k x).queue j = s.queue j := rfl
@[simp] theorem State.setBank_read_sector (s : State) (k : Nat) (x : Bank) (j : Nat) : (s.setBank k x).sector j = s.sector j := rfl
@[simp] theorem State.setBank_read_strIn (s : State) (k : Nat) (x : Bank) (j : Nat) : (s.setBank k x).strIn j = s.strIn j := rfl
@[simp] theorem State.setBank_read_strOut (s : State) (k : Nat) (x : Bank) (j : Nat) : (s.setBank k x).strOut j = s.strOut j := rfl
@[simp] theorem State.setBank_read_pool (s : State) (k : Nat) (x : Bank) (j : Nat) : (s.setBank k x).pool j = s.pool j := rfl
@[simp] theorem State.setBank_read_ctr (s : State) (k : Nat) (x : Bank) (j : Nat) : (s.setBank k x).ctr j = s.ctr j := rfl

/-! `setPool` -/
@[simp] theorem State.setPool_run (s : State) (k : Nat) (x : List Nat) : (s.setPool k x).run = s.run := rfl
@[simp] theorem State.setPool_time (s : State) (k : Nat) (x : List Nat) : (s.setPool k x).time = s.time := rfl
@[simp] theorem State.setPool_cfg (s : State) (k : Nat) (x : List Nat) : (s.setPool k x).cfg = s.cfg := rfl
@[simp] theorem State.setPool_chan (s : State) (k : Nat) (x : List Nat) : (s.setPool k x).chan = s.chan := rfl
@[simp] theorem State.setPool_port (s : State) (k : Nat) (x : List Nat) : (s.setPool k x).port = s.port := rfl
@[simp] theorem State.setPool_host (s : State) (k : Nat) (x : List Nat) : (s.setPool k x).host = s.host := rfl
@[simp] theorem State.setPool_ev (s : State) (k : Nat) (x : List Nat) : (s.setPool k x).ev = s.ev := rfl
@[simp] theorem State.setPool_obs (s : State) (k : Nat) (x : List Nat) : (s.setPool k x).obs = s.obs := rfl
@[simp] theorem State.setPool_cnt (s : State) (k : Nat) (x : List Nat) : (s.setPool k x).cnt = s.cnt := rfl
@[simp] theorem State.setPool_cores (s : State) (k : Nat) (x : List Nat) : (s.setPool k x).cores = s.cores := rfl
@[simp] theorem State.setPool_grid (s : State) (k : Nat) (x : List Nat) : (s.setPool k x).grid = s.grid := rfl
@[simp] theorem State.setPool_loft (s : State) (k : Nat) (x : List Nat) : (s.setPool k x).loft = s.loft := rfl
@[simp] theorem State.setPool_arrs (s : State) (k : Nat) (x : List Nat) : (s.setPool k x).arrs = s.arrs := rfl
@[simp] theorem State.setPool_model (s : State) (k : Nat) (x : List Nat) : (s.setPool k x).model = s.model := rfl
@[simp] theorem State.setPool_store (s : State) (k : Nat) (x : List Nat) : (s.setPool k x).store = s.store := rfl
@[simp] theorem State.setPool_fab (s : State) (k : Nat) (x : List Nat) : (s.setPool k x).fab = s.fab := rfl
@[simp] theorem State.setPool_sup (s : State) (k : Nat) (x : List Nat) : (s.setPool k x).sup = s.sup := rfl
@[simp] theorem State.setPool_sec (s : State) (k : Nat) (x : List Nat) : (s.setPool k x).sec = s.sec := rfl
@[simp] theorem State.setPool_test (s : State) (k : Nat) (x : List Nat) : (s.setPool k x).test = s.test := rfl
@[simp] theorem State.setPool_out (s : State) (k : Nat) (x : List Nat) : (s.setPool k x).out = s.out := rfl
@[simp] theorem State.setPool_free (s : State) (k : Nat) (x : List Nat) : (s.setPool k x).free = s.free := rfl
@[simp] theorem State.setPool_pending (s : State) (k : Nat) (x : List Nat) : (s.setPool k x).pending = s.pending := rfl
@[simp] theorem State.setPool_nv_sectors (s : State) (k : Nat) (x : List Nat) : (s.setPool k x).nv.sectors = s.nv.sectors := rfl
@[simp] theorem State.setPool_nv_ckpt (s : State) (k : Nat) (x : List Nat) : (s.setPool k x).nv.ckpt = s.nv.ckpt := rfl
@[simp] theorem State.setPool_nv_journal (s : State) (k : Nat) (x : List Nat) : (s.setPool k x).nv.journal = s.nv.journal := rfl
@[simp] theorem State.setPool_nv_jseq (s : State) (k : Nat) (x : List Nat) : (s.setPool k x).nv.jseq = s.nv.jseq := rfl
@[simp] theorem State.setPool_nv_intents (s : State) (k : Nat) (x : List Nat) : (s.setPool k x).nv.intents = s.nv.intents := rfl
@[simp] theorem State.setPool_nv_iseq (s : State) (k : Nat) (x : List Nat) : (s.setPool k x).nv.iseq = s.nv.iseq := rfl
@[simp] theorem State.setPool_nv_retiredList (s : State) (k : Nat) (x : List Nat) : (s.setPool k x).nv.retiredList = s.nv.retiredList := rfl
@[simp] theorem State.setPool_nv_otp (s : State) (k : Nat) (x : List Nat) : (s.setPool k x).nv.otp = s.nv.otp := rfl
@[simp] theorem State.setPool_nv_otpDone (s : State) (k : Nat) (x : List Nat) : (s.setPool k x).nv.otpDone = s.nv.otpDone := rfl
@[simp] theorem State.setPool_nv_log (s : State) (k : Nat) (x : List Nat) : (s.setPool k x).nv.log = s.nv.log := rfl
@[simp] theorem State.setPool_nv_dir (s : State) (k : Nat) (x : List Nat) : (s.setPool k x).nv.dir = s.nv.dir := rfl
@[simp] theorem State.setPool_nv_health (s : State) (k : Nat) (x : List Nat) : (s.setPool k x).nv.health = s.nv.health := rfl
@[simp] theorem State.setPool_nv_keys (s : State) (k : Nat) (x : List Nat) : (s.setPool k x).nv.keys = s.nv.keys := rfl
@[simp] theorem State.setPool_nv_cells (s : State) (k : Nat) (x : List Nat) : (s.setPool k x).nv.cells = s.nv.cells := rfl
@[simp] theorem State.setPool_nv_alloc (s : State) (k : Nat) (x : List Nat) : (s.setPool k x).nv.alloc = s.nv.alloc := rfl
@[simp] theorem State.setPool_nv_holds (s : State) (k : Nat) (x : List Nat) : (s.setPool k x).nv.holds = s.nv.holds := rfl
@[simp] theorem State.setPool_read_core (s : State) (k : Nat) (x : List Nat) (j : Nat) : (s.setPool k x).core j = s.core j := rfl
@[simp] theorem State.setPool_read_arr (s : State) (k : Nat) (x : List Nat) (j : Nat) : (s.setPool k x).arr j = s.arr j := rfl
@[simp] theorem State.setPool_read_reel (s : State) (k : Nat) (x : List Nat) (j : Nat) : (s.setPool k x).reel j = s.reel j := rfl
@[simp] theorem State.setPool_read_port_ (s : State) (k : Nat) (x : List Nat) (j : Nat) : (s.setPool k x).port_ j = s.port_ j := rfl
@[simp] theorem State.setPool_read_slot (s : State) (k : Nat) (x : List Nat) (j : Nat) : (s.setPool k x).slot j = s.slot j := rfl
@[simp] theorem State.setPool_read_trEng (s : State) (k : Nat) (x : List Nat) (j : Nat) : (s.setPool k x).trEng j = s.trEng j := rfl
@[simp] theorem State.setPool_read_obj (s : State) (k : Nat) (x : List Nat) (j : Nat) : (s.setPool k x).obj j = s.obj j := rfl
@[simp] theorem State.setPool_read_queue (s : State) (k : Nat) (x : List Nat) (j : Nat) : (s.setPool k x).queue j = s.queue j := rfl
@[simp] theorem State.setPool_read_sector (s : State) (k : Nat) (x : List Nat) (j : Nat) : (s.setPool k x).sector j = s.sector j := rfl
@[simp] theorem State.setPool_read_bank (s : State) (k : Nat) (x : List Nat) (j : Nat) : (s.setPool k x).bank j = s.bank j := rfl
@[simp] theorem State.setPool_read_strIn (s : State) (k : Nat) (x : List Nat) (j : Nat) : (s.setPool k x).strIn j = s.strIn j := rfl
@[simp] theorem State.setPool_read_strOut (s : State) (k : Nat) (x : List Nat) (j : Nat) : (s.setPool k x).strOut j = s.strOut j := rfl
@[simp] theorem State.setPool_read_ctr (s : State) (k : Nat) (x : List Nat) (j : Nat) : (s.setPool k x).ctr j = s.ctr j := rfl

/-! `setJournal` -/
@[simp] theorem State.setJournal_run (s : State) (k : Nat) (x : List JRec) : (s.setJournal k x).run = s.run := rfl
@[simp] theorem State.setJournal_time (s : State) (k : Nat) (x : List JRec) : (s.setJournal k x).time = s.time := rfl
@[simp] theorem State.setJournal_cfg (s : State) (k : Nat) (x : List JRec) : (s.setJournal k x).cfg = s.cfg := rfl
@[simp] theorem State.setJournal_chan (s : State) (k : Nat) (x : List JRec) : (s.setJournal k x).chan = s.chan := rfl
@[simp] theorem State.setJournal_port (s : State) (k : Nat) (x : List JRec) : (s.setJournal k x).port = s.port := rfl
@[simp] theorem State.setJournal_host (s : State) (k : Nat) (x : List JRec) : (s.setJournal k x).host = s.host := rfl
@[simp] theorem State.setJournal_ev (s : State) (k : Nat) (x : List JRec) : (s.setJournal k x).ev = s.ev := rfl
@[simp] theorem State.setJournal_obs (s : State) (k : Nat) (x : List JRec) : (s.setJournal k x).obs = s.obs := rfl
@[simp] theorem State.setJournal_cnt (s : State) (k : Nat) (x : List JRec) : (s.setJournal k x).cnt = s.cnt := rfl
@[simp] theorem State.setJournal_cores (s : State) (k : Nat) (x : List JRec) : (s.setJournal k x).cores = s.cores := rfl
@[simp] theorem State.setJournal_grid (s : State) (k : Nat) (x : List JRec) : (s.setJournal k x).grid = s.grid := rfl
@[simp] theorem State.setJournal_loft (s : State) (k : Nat) (x : List JRec) : (s.setJournal k x).loft = s.loft := rfl
@[simp] theorem State.setJournal_arrs (s : State) (k : Nat) (x : List JRec) : (s.setJournal k x).arrs = s.arrs := rfl
@[simp] theorem State.setJournal_model (s : State) (k : Nat) (x : List JRec) : (s.setJournal k x).model = s.model := rfl
@[simp] theorem State.setJournal_store (s : State) (k : Nat) (x : List JRec) : (s.setJournal k x).store = s.store := rfl
@[simp] theorem State.setJournal_fab (s : State) (k : Nat) (x : List JRec) : (s.setJournal k x).fab = s.fab := rfl
@[simp] theorem State.setJournal_sup (s : State) (k : Nat) (x : List JRec) : (s.setJournal k x).sup = s.sup := rfl
@[simp] theorem State.setJournal_sec (s : State) (k : Nat) (x : List JRec) : (s.setJournal k x).sec = s.sec := rfl
@[simp] theorem State.setJournal_test (s : State) (k : Nat) (x : List JRec) : (s.setJournal k x).test = s.test := rfl
@[simp] theorem State.setJournal_out (s : State) (k : Nat) (x : List JRec) : (s.setJournal k x).out = s.out := rfl
@[simp] theorem State.setJournal_free (s : State) (k : Nat) (x : List JRec) : (s.setJournal k x).free = s.free := rfl
@[simp] theorem State.setJournal_pending (s : State) (k : Nat) (x : List JRec) : (s.setJournal k x).pending = s.pending := rfl
@[simp] theorem State.setJournal_nv_sectors (s : State) (k : Nat) (x : List JRec) : (s.setJournal k x).nv.sectors = s.nv.sectors := rfl
@[simp] theorem State.setJournal_nv_ckpt (s : State) (k : Nat) (x : List JRec) : (s.setJournal k x).nv.ckpt = s.nv.ckpt := rfl
@[simp] theorem State.setJournal_nv_jseq (s : State) (k : Nat) (x : List JRec) : (s.setJournal k x).nv.jseq = s.nv.jseq := rfl
@[simp] theorem State.setJournal_nv_intents (s : State) (k : Nat) (x : List JRec) : (s.setJournal k x).nv.intents = s.nv.intents := rfl
@[simp] theorem State.setJournal_nv_iseq (s : State) (k : Nat) (x : List JRec) : (s.setJournal k x).nv.iseq = s.nv.iseq := rfl
@[simp] theorem State.setJournal_nv_pools (s : State) (k : Nat) (x : List JRec) : (s.setJournal k x).nv.pools = s.nv.pools := rfl
@[simp] theorem State.setJournal_nv_retiredList (s : State) (k : Nat) (x : List JRec) : (s.setJournal k x).nv.retiredList = s.nv.retiredList := rfl
@[simp] theorem State.setJournal_nv_otp (s : State) (k : Nat) (x : List JRec) : (s.setJournal k x).nv.otp = s.nv.otp := rfl
@[simp] theorem State.setJournal_nv_otpDone (s : State) (k : Nat) (x : List JRec) : (s.setJournal k x).nv.otpDone = s.nv.otpDone := rfl
@[simp] theorem State.setJournal_nv_log (s : State) (k : Nat) (x : List JRec) : (s.setJournal k x).nv.log = s.nv.log := rfl
@[simp] theorem State.setJournal_nv_dir (s : State) (k : Nat) (x : List JRec) : (s.setJournal k x).nv.dir = s.nv.dir := rfl
@[simp] theorem State.setJournal_nv_health (s : State) (k : Nat) (x : List JRec) : (s.setJournal k x).nv.health = s.nv.health := rfl
@[simp] theorem State.setJournal_nv_keys (s : State) (k : Nat) (x : List JRec) : (s.setJournal k x).nv.keys = s.nv.keys := rfl
@[simp] theorem State.setJournal_nv_cells (s : State) (k : Nat) (x : List JRec) : (s.setJournal k x).nv.cells = s.nv.cells := rfl
@[simp] theorem State.setJournal_nv_alloc (s : State) (k : Nat) (x : List JRec) : (s.setJournal k x).nv.alloc = s.nv.alloc := rfl
@[simp] theorem State.setJournal_nv_holds (s : State) (k : Nat) (x : List JRec) : (s.setJournal k x).nv.holds = s.nv.holds := rfl
@[simp] theorem State.setJournal_read_core (s : State) (k : Nat) (x : List JRec) (j : Nat) : (s.setJournal k x).core j = s.core j := rfl
@[simp] theorem State.setJournal_read_arr (s : State) (k : Nat) (x : List JRec) (j : Nat) : (s.setJournal k x).arr j = s.arr j := rfl
@[simp] theorem State.setJournal_read_reel (s : State) (k : Nat) (x : List JRec) (j : Nat) : (s.setJournal k x).reel j = s.reel j := rfl
@[simp] theorem State.setJournal_read_port_ (s : State) (k : Nat) (x : List JRec) (j : Nat) : (s.setJournal k x).port_ j = s.port_ j := rfl
@[simp] theorem State.setJournal_read_slot (s : State) (k : Nat) (x : List JRec) (j : Nat) : (s.setJournal k x).slot j = s.slot j := rfl
@[simp] theorem State.setJournal_read_trEng (s : State) (k : Nat) (x : List JRec) (j : Nat) : (s.setJournal k x).trEng j = s.trEng j := rfl
@[simp] theorem State.setJournal_read_obj (s : State) (k : Nat) (x : List JRec) (j : Nat) : (s.setJournal k x).obj j = s.obj j := rfl
@[simp] theorem State.setJournal_read_queue (s : State) (k : Nat) (x : List JRec) (j : Nat) : (s.setJournal k x).queue j = s.queue j := rfl
@[simp] theorem State.setJournal_read_sector (s : State) (k : Nat) (x : List JRec) (j : Nat) : (s.setJournal k x).sector j = s.sector j := rfl
@[simp] theorem State.setJournal_read_bank (s : State) (k : Nat) (x : List JRec) (j : Nat) : (s.setJournal k x).bank j = s.bank j := rfl
@[simp] theorem State.setJournal_read_strIn (s : State) (k : Nat) (x : List JRec) (j : Nat) : (s.setJournal k x).strIn j = s.strIn j := rfl
@[simp] theorem State.setJournal_read_strOut (s : State) (k : Nat) (x : List JRec) (j : Nat) : (s.setJournal k x).strOut j = s.strOut j := rfl
@[simp] theorem State.setJournal_read_pool (s : State) (k : Nat) (x : List JRec) (j : Nat) : (s.setJournal k x).pool j = s.pool j := rfl
@[simp] theorem State.setJournal_read_ctr (s : State) (k : Nat) (x : List JRec) (j : Nat) : (s.setJournal k x).ctr j = s.ctr j := rfl

/-! `setIntents` -/
@[simp] theorem State.setIntents_run (s : State) (k : Nat) (x : List Intent) : (s.setIntents k x).run = s.run := rfl
@[simp] theorem State.setIntents_time (s : State) (k : Nat) (x : List Intent) : (s.setIntents k x).time = s.time := rfl
@[simp] theorem State.setIntents_cfg (s : State) (k : Nat) (x : List Intent) : (s.setIntents k x).cfg = s.cfg := rfl
@[simp] theorem State.setIntents_chan (s : State) (k : Nat) (x : List Intent) : (s.setIntents k x).chan = s.chan := rfl
@[simp] theorem State.setIntents_port (s : State) (k : Nat) (x : List Intent) : (s.setIntents k x).port = s.port := rfl
@[simp] theorem State.setIntents_host (s : State) (k : Nat) (x : List Intent) : (s.setIntents k x).host = s.host := rfl
@[simp] theorem State.setIntents_ev (s : State) (k : Nat) (x : List Intent) : (s.setIntents k x).ev = s.ev := rfl
@[simp] theorem State.setIntents_obs (s : State) (k : Nat) (x : List Intent) : (s.setIntents k x).obs = s.obs := rfl
@[simp] theorem State.setIntents_cnt (s : State) (k : Nat) (x : List Intent) : (s.setIntents k x).cnt = s.cnt := rfl
@[simp] theorem State.setIntents_cores (s : State) (k : Nat) (x : List Intent) : (s.setIntents k x).cores = s.cores := rfl
@[simp] theorem State.setIntents_grid (s : State) (k : Nat) (x : List Intent) : (s.setIntents k x).grid = s.grid := rfl
@[simp] theorem State.setIntents_loft (s : State) (k : Nat) (x : List Intent) : (s.setIntents k x).loft = s.loft := rfl
@[simp] theorem State.setIntents_arrs (s : State) (k : Nat) (x : List Intent) : (s.setIntents k x).arrs = s.arrs := rfl
@[simp] theorem State.setIntents_model (s : State) (k : Nat) (x : List Intent) : (s.setIntents k x).model = s.model := rfl
@[simp] theorem State.setIntents_store (s : State) (k : Nat) (x : List Intent) : (s.setIntents k x).store = s.store := rfl
@[simp] theorem State.setIntents_fab (s : State) (k : Nat) (x : List Intent) : (s.setIntents k x).fab = s.fab := rfl
@[simp] theorem State.setIntents_sup (s : State) (k : Nat) (x : List Intent) : (s.setIntents k x).sup = s.sup := rfl
@[simp] theorem State.setIntents_sec (s : State) (k : Nat) (x : List Intent) : (s.setIntents k x).sec = s.sec := rfl
@[simp] theorem State.setIntents_test (s : State) (k : Nat) (x : List Intent) : (s.setIntents k x).test = s.test := rfl
@[simp] theorem State.setIntents_out (s : State) (k : Nat) (x : List Intent) : (s.setIntents k x).out = s.out := rfl
@[simp] theorem State.setIntents_free (s : State) (k : Nat) (x : List Intent) : (s.setIntents k x).free = s.free := rfl
@[simp] theorem State.setIntents_pending (s : State) (k : Nat) (x : List Intent) : (s.setIntents k x).pending = s.pending := rfl
@[simp] theorem State.setIntents_nv_sectors (s : State) (k : Nat) (x : List Intent) : (s.setIntents k x).nv.sectors = s.nv.sectors := rfl
@[simp] theorem State.setIntents_nv_ckpt (s : State) (k : Nat) (x : List Intent) : (s.setIntents k x).nv.ckpt = s.nv.ckpt := rfl
@[simp] theorem State.setIntents_nv_journal (s : State) (k : Nat) (x : List Intent) : (s.setIntents k x).nv.journal = s.nv.journal := rfl
@[simp] theorem State.setIntents_nv_jseq (s : State) (k : Nat) (x : List Intent) : (s.setIntents k x).nv.jseq = s.nv.jseq := rfl
@[simp] theorem State.setIntents_nv_iseq (s : State) (k : Nat) (x : List Intent) : (s.setIntents k x).nv.iseq = s.nv.iseq := rfl
@[simp] theorem State.setIntents_nv_pools (s : State) (k : Nat) (x : List Intent) : (s.setIntents k x).nv.pools = s.nv.pools := rfl
@[simp] theorem State.setIntents_nv_retiredList (s : State) (k : Nat) (x : List Intent) : (s.setIntents k x).nv.retiredList = s.nv.retiredList := rfl
@[simp] theorem State.setIntents_nv_otp (s : State) (k : Nat) (x : List Intent) : (s.setIntents k x).nv.otp = s.nv.otp := rfl
@[simp] theorem State.setIntents_nv_otpDone (s : State) (k : Nat) (x : List Intent) : (s.setIntents k x).nv.otpDone = s.nv.otpDone := rfl
@[simp] theorem State.setIntents_nv_log (s : State) (k : Nat) (x : List Intent) : (s.setIntents k x).nv.log = s.nv.log := rfl
@[simp] theorem State.setIntents_nv_dir (s : State) (k : Nat) (x : List Intent) : (s.setIntents k x).nv.dir = s.nv.dir := rfl
@[simp] theorem State.setIntents_nv_health (s : State) (k : Nat) (x : List Intent) : (s.setIntents k x).nv.health = s.nv.health := rfl
@[simp] theorem State.setIntents_nv_keys (s : State) (k : Nat) (x : List Intent) : (s.setIntents k x).nv.keys = s.nv.keys := rfl
@[simp] theorem State.setIntents_nv_cells (s : State) (k : Nat) (x : List Intent) : (s.setIntents k x).nv.cells = s.nv.cells := rfl
@[simp] theorem State.setIntents_nv_alloc (s : State) (k : Nat) (x : List Intent) : (s.setIntents k x).nv.alloc = s.nv.alloc := rfl
@[simp] theorem State.setIntents_nv_holds (s : State) (k : Nat) (x : List Intent) : (s.setIntents k x).nv.holds = s.nv.holds := rfl
@[simp] theorem State.setIntents_read_core (s : State) (k : Nat) (x : List Intent) (j : Nat) : (s.setIntents k x).core j = s.core j := rfl
@[simp] theorem State.setIntents_read_arr (s : State) (k : Nat) (x : List Intent) (j : Nat) : (s.setIntents k x).arr j = s.arr j := rfl
@[simp] theorem State.setIntents_read_reel (s : State) (k : Nat) (x : List Intent) (j : Nat) : (s.setIntents k x).reel j = s.reel j := rfl
@[simp] theorem State.setIntents_read_port_ (s : State) (k : Nat) (x : List Intent) (j : Nat) : (s.setIntents k x).port_ j = s.port_ j := rfl
@[simp] theorem State.setIntents_read_slot (s : State) (k : Nat) (x : List Intent) (j : Nat) : (s.setIntents k x).slot j = s.slot j := rfl
@[simp] theorem State.setIntents_read_trEng (s : State) (k : Nat) (x : List Intent) (j : Nat) : (s.setIntents k x).trEng j = s.trEng j := rfl
@[simp] theorem State.setIntents_read_obj (s : State) (k : Nat) (x : List Intent) (j : Nat) : (s.setIntents k x).obj j = s.obj j := rfl
@[simp] theorem State.setIntents_read_queue (s : State) (k : Nat) (x : List Intent) (j : Nat) : (s.setIntents k x).queue j = s.queue j := rfl
@[simp] theorem State.setIntents_read_sector (s : State) (k : Nat) (x : List Intent) (j : Nat) : (s.setIntents k x).sector j = s.sector j := rfl
@[simp] theorem State.setIntents_read_bank (s : State) (k : Nat) (x : List Intent) (j : Nat) : (s.setIntents k x).bank j = s.bank j := rfl
@[simp] theorem State.setIntents_read_strIn (s : State) (k : Nat) (x : List Intent) (j : Nat) : (s.setIntents k x).strIn j = s.strIn j := rfl
@[simp] theorem State.setIntents_read_strOut (s : State) (k : Nat) (x : List Intent) (j : Nat) : (s.setIntents k x).strOut j = s.strOut j := rfl
@[simp] theorem State.setIntents_read_pool (s : State) (k : Nat) (x : List Intent) (j : Nat) : (s.setIntents k x).pool j = s.pool j := rfl
@[simp] theorem State.setIntents_read_ctr (s : State) (k : Nat) (x : List Intent) (j : Nat) : (s.setIntents k x).ctr j = s.ctr j := rfl

/-! `setHEntry` -/
@[simp] theorem State.setHEntry_run (s : State) (k : Nat) (x : BitVec 64) : (s.setHEntry k x).run = s.run := rfl
@[simp] theorem State.setHEntry_time (s : State) (k : Nat) (x : BitVec 64) : (s.setHEntry k x).time = s.time := rfl
@[simp] theorem State.setHEntry_cfg (s : State) (k : Nat) (x : BitVec 64) : (s.setHEntry k x).cfg = s.cfg := rfl
@[simp] theorem State.setHEntry_chan (s : State) (k : Nat) (x : BitVec 64) : (s.setHEntry k x).chan = s.chan := rfl
@[simp] theorem State.setHEntry_port (s : State) (k : Nat) (x : BitVec 64) : (s.setHEntry k x).port = s.port := rfl
@[simp] theorem State.setHEntry_host (s : State) (k : Nat) (x : BitVec 64) : (s.setHEntry k x).host = s.host := rfl
@[simp] theorem State.setHEntry_ev (s : State) (k : Nat) (x : BitVec 64) : (s.setHEntry k x).ev = s.ev := rfl
@[simp] theorem State.setHEntry_obs (s : State) (k : Nat) (x : BitVec 64) : (s.setHEntry k x).obs = s.obs := rfl
@[simp] theorem State.setHEntry_cnt (s : State) (k : Nat) (x : BitVec 64) : (s.setHEntry k x).cnt = s.cnt := rfl
@[simp] theorem State.setHEntry_cores (s : State) (k : Nat) (x : BitVec 64) : (s.setHEntry k x).cores = s.cores := rfl
@[simp] theorem State.setHEntry_grid (s : State) (k : Nat) (x : BitVec 64) : (s.setHEntry k x).grid = s.grid := rfl
@[simp] theorem State.setHEntry_loft (s : State) (k : Nat) (x : BitVec 64) : (s.setHEntry k x).loft = s.loft := rfl
@[simp] theorem State.setHEntry_arrs (s : State) (k : Nat) (x : BitVec 64) : (s.setHEntry k x).arrs = s.arrs := rfl
@[simp] theorem State.setHEntry_model (s : State) (k : Nat) (x : BitVec 64) : (s.setHEntry k x).model = s.model := rfl
@[simp] theorem State.setHEntry_store (s : State) (k : Nat) (x : BitVec 64) : (s.setHEntry k x).store = s.store := rfl
@[simp] theorem State.setHEntry_fab (s : State) (k : Nat) (x : BitVec 64) : (s.setHEntry k x).fab = s.fab := rfl
@[simp] theorem State.setHEntry_sup (s : State) (k : Nat) (x : BitVec 64) : (s.setHEntry k x).sup = s.sup := rfl
@[simp] theorem State.setHEntry_sec (s : State) (k : Nat) (x : BitVec 64) : (s.setHEntry k x).sec = s.sec := rfl
@[simp] theorem State.setHEntry_test (s : State) (k : Nat) (x : BitVec 64) : (s.setHEntry k x).test = s.test := rfl
@[simp] theorem State.setHEntry_out (s : State) (k : Nat) (x : BitVec 64) : (s.setHEntry k x).out = s.out := rfl
@[simp] theorem State.setHEntry_free (s : State) (k : Nat) (x : BitVec 64) : (s.setHEntry k x).free = s.free := rfl
@[simp] theorem State.setHEntry_pending (s : State) (k : Nat) (x : BitVec 64) : (s.setHEntry k x).pending = s.pending := rfl
@[simp] theorem State.setHEntry_nv_sectors (s : State) (k : Nat) (x : BitVec 64) : (s.setHEntry k x).nv.sectors = s.nv.sectors := rfl
@[simp] theorem State.setHEntry_nv_ckpt (s : State) (k : Nat) (x : BitVec 64) : (s.setHEntry k x).nv.ckpt = s.nv.ckpt := rfl
@[simp] theorem State.setHEntry_nv_journal (s : State) (k : Nat) (x : BitVec 64) : (s.setHEntry k x).nv.journal = s.nv.journal := rfl
@[simp] theorem State.setHEntry_nv_jseq (s : State) (k : Nat) (x : BitVec 64) : (s.setHEntry k x).nv.jseq = s.nv.jseq := rfl
@[simp] theorem State.setHEntry_nv_intents (s : State) (k : Nat) (x : BitVec 64) : (s.setHEntry k x).nv.intents = s.nv.intents := rfl
@[simp] theorem State.setHEntry_nv_iseq (s : State) (k : Nat) (x : BitVec 64) : (s.setHEntry k x).nv.iseq = s.nv.iseq := rfl
@[simp] theorem State.setHEntry_nv_pools (s : State) (k : Nat) (x : BitVec 64) : (s.setHEntry k x).nv.pools = s.nv.pools := rfl
@[simp] theorem State.setHEntry_nv_retiredList (s : State) (k : Nat) (x : BitVec 64) : (s.setHEntry k x).nv.retiredList = s.nv.retiredList := rfl
@[simp] theorem State.setHEntry_nv_otp (s : State) (k : Nat) (x : BitVec 64) : (s.setHEntry k x).nv.otp = s.nv.otp := rfl
@[simp] theorem State.setHEntry_nv_otpDone (s : State) (k : Nat) (x : BitVec 64) : (s.setHEntry k x).nv.otpDone = s.nv.otpDone := rfl
@[simp] theorem State.setHEntry_nv_log (s : State) (k : Nat) (x : BitVec 64) : (s.setHEntry k x).nv.log = s.nv.log := rfl
@[simp] theorem State.setHEntry_nv_dir (s : State) (k : Nat) (x : BitVec 64) : (s.setHEntry k x).nv.dir = s.nv.dir := rfl
@[simp] theorem State.setHEntry_nv_keys (s : State) (k : Nat) (x : BitVec 64) : (s.setHEntry k x).nv.keys = s.nv.keys := rfl
@[simp] theorem State.setHEntry_nv_cells (s : State) (k : Nat) (x : BitVec 64) : (s.setHEntry k x).nv.cells = s.nv.cells := rfl
@[simp] theorem State.setHEntry_nv_alloc (s : State) (k : Nat) (x : BitVec 64) : (s.setHEntry k x).nv.alloc = s.nv.alloc := rfl
@[simp] theorem State.setHEntry_nv_holds (s : State) (k : Nat) (x : BitVec 64) : (s.setHEntry k x).nv.holds = s.nv.holds := rfl
@[simp] theorem State.setHEntry_read_core (s : State) (k : Nat) (x : BitVec 64) (j : Nat) : (s.setHEntry k x).core j = s.core j := rfl
@[simp] theorem State.setHEntry_read_arr (s : State) (k : Nat) (x : BitVec 64) (j : Nat) : (s.setHEntry k x).arr j = s.arr j := rfl
@[simp] theorem State.setHEntry_read_reel (s : State) (k : Nat) (x : BitVec 64) (j : Nat) : (s.setHEntry k x).reel j = s.reel j := rfl
@[simp] theorem State.setHEntry_read_port_ (s : State) (k : Nat) (x : BitVec 64) (j : Nat) : (s.setHEntry k x).port_ j = s.port_ j := rfl
@[simp] theorem State.setHEntry_read_slot (s : State) (k : Nat) (x : BitVec 64) (j : Nat) : (s.setHEntry k x).slot j = s.slot j := rfl
@[simp] theorem State.setHEntry_read_trEng (s : State) (k : Nat) (x : BitVec 64) (j : Nat) : (s.setHEntry k x).trEng j = s.trEng j := rfl
@[simp] theorem State.setHEntry_read_obj (s : State) (k : Nat) (x : BitVec 64) (j : Nat) : (s.setHEntry k x).obj j = s.obj j := rfl
@[simp] theorem State.setHEntry_read_queue (s : State) (k : Nat) (x : BitVec 64) (j : Nat) : (s.setHEntry k x).queue j = s.queue j := rfl
@[simp] theorem State.setHEntry_read_sector (s : State) (k : Nat) (x : BitVec 64) (j : Nat) : (s.setHEntry k x).sector j = s.sector j := rfl
@[simp] theorem State.setHEntry_read_bank (s : State) (k : Nat) (x : BitVec 64) (j : Nat) : (s.setHEntry k x).bank j = s.bank j := rfl
@[simp] theorem State.setHEntry_read_strIn (s : State) (k : Nat) (x : BitVec 64) (j : Nat) : (s.setHEntry k x).strIn j = s.strIn j := rfl
@[simp] theorem State.setHEntry_read_strOut (s : State) (k : Nat) (x : BitVec 64) (j : Nat) : (s.setHEntry k x).strOut j = s.strOut j := rfl
@[simp] theorem State.setHEntry_read_pool (s : State) (k : Nat) (x : BitVec 64) (j : Nat) : (s.setHEntry k x).pool j = s.pool j := rfl
@[simp] theorem State.setHEntry_read_ctr (s : State) (k : Nat) (x : BitVec 64) (j : Nat) : (s.setHEntry k x).ctr j = s.ctr j := rfl

/-! `setDir` -/
@[simp] theorem State.setDir_run (s : State) (k : Nat) (x : DirEnt) : (s.setDir k x).run = s.run := rfl
@[simp] theorem State.setDir_time (s : State) (k : Nat) (x : DirEnt) : (s.setDir k x).time = s.time := rfl
@[simp] theorem State.setDir_cfg (s : State) (k : Nat) (x : DirEnt) : (s.setDir k x).cfg = s.cfg := rfl
@[simp] theorem State.setDir_chan (s : State) (k : Nat) (x : DirEnt) : (s.setDir k x).chan = s.chan := rfl
@[simp] theorem State.setDir_port (s : State) (k : Nat) (x : DirEnt) : (s.setDir k x).port = s.port := rfl
@[simp] theorem State.setDir_host (s : State) (k : Nat) (x : DirEnt) : (s.setDir k x).host = s.host := rfl
@[simp] theorem State.setDir_ev (s : State) (k : Nat) (x : DirEnt) : (s.setDir k x).ev = s.ev := rfl
@[simp] theorem State.setDir_obs (s : State) (k : Nat) (x : DirEnt) : (s.setDir k x).obs = s.obs := rfl
@[simp] theorem State.setDir_cnt (s : State) (k : Nat) (x : DirEnt) : (s.setDir k x).cnt = s.cnt := rfl
@[simp] theorem State.setDir_cores (s : State) (k : Nat) (x : DirEnt) : (s.setDir k x).cores = s.cores := rfl
@[simp] theorem State.setDir_grid (s : State) (k : Nat) (x : DirEnt) : (s.setDir k x).grid = s.grid := rfl
@[simp] theorem State.setDir_loft (s : State) (k : Nat) (x : DirEnt) : (s.setDir k x).loft = s.loft := rfl
@[simp] theorem State.setDir_arrs (s : State) (k : Nat) (x : DirEnt) : (s.setDir k x).arrs = s.arrs := rfl
@[simp] theorem State.setDir_model (s : State) (k : Nat) (x : DirEnt) : (s.setDir k x).model = s.model := rfl
@[simp] theorem State.setDir_store (s : State) (k : Nat) (x : DirEnt) : (s.setDir k x).store = s.store := rfl
@[simp] theorem State.setDir_fab (s : State) (k : Nat) (x : DirEnt) : (s.setDir k x).fab = s.fab := rfl
@[simp] theorem State.setDir_sup (s : State) (k : Nat) (x : DirEnt) : (s.setDir k x).sup = s.sup := rfl
@[simp] theorem State.setDir_sec (s : State) (k : Nat) (x : DirEnt) : (s.setDir k x).sec = s.sec := rfl
@[simp] theorem State.setDir_test (s : State) (k : Nat) (x : DirEnt) : (s.setDir k x).test = s.test := rfl
@[simp] theorem State.setDir_out (s : State) (k : Nat) (x : DirEnt) : (s.setDir k x).out = s.out := rfl
@[simp] theorem State.setDir_free (s : State) (k : Nat) (x : DirEnt) : (s.setDir k x).free = s.free := rfl
@[simp] theorem State.setDir_pending (s : State) (k : Nat) (x : DirEnt) : (s.setDir k x).pending = s.pending := rfl
@[simp] theorem State.setDir_nv_sectors (s : State) (k : Nat) (x : DirEnt) : (s.setDir k x).nv.sectors = s.nv.sectors := rfl
@[simp] theorem State.setDir_nv_ckpt (s : State) (k : Nat) (x : DirEnt) : (s.setDir k x).nv.ckpt = s.nv.ckpt := rfl
@[simp] theorem State.setDir_nv_journal (s : State) (k : Nat) (x : DirEnt) : (s.setDir k x).nv.journal = s.nv.journal := rfl
@[simp] theorem State.setDir_nv_jseq (s : State) (k : Nat) (x : DirEnt) : (s.setDir k x).nv.jseq = s.nv.jseq := rfl
@[simp] theorem State.setDir_nv_intents (s : State) (k : Nat) (x : DirEnt) : (s.setDir k x).nv.intents = s.nv.intents := rfl
@[simp] theorem State.setDir_nv_iseq (s : State) (k : Nat) (x : DirEnt) : (s.setDir k x).nv.iseq = s.nv.iseq := rfl
@[simp] theorem State.setDir_nv_pools (s : State) (k : Nat) (x : DirEnt) : (s.setDir k x).nv.pools = s.nv.pools := rfl
@[simp] theorem State.setDir_nv_retiredList (s : State) (k : Nat) (x : DirEnt) : (s.setDir k x).nv.retiredList = s.nv.retiredList := rfl
@[simp] theorem State.setDir_nv_otp (s : State) (k : Nat) (x : DirEnt) : (s.setDir k x).nv.otp = s.nv.otp := rfl
@[simp] theorem State.setDir_nv_otpDone (s : State) (k : Nat) (x : DirEnt) : (s.setDir k x).nv.otpDone = s.nv.otpDone := rfl
@[simp] theorem State.setDir_nv_log (s : State) (k : Nat) (x : DirEnt) : (s.setDir k x).nv.log = s.nv.log := rfl
@[simp] theorem State.setDir_nv_health (s : State) (k : Nat) (x : DirEnt) : (s.setDir k x).nv.health = s.nv.health := rfl
@[simp] theorem State.setDir_nv_keys (s : State) (k : Nat) (x : DirEnt) : (s.setDir k x).nv.keys = s.nv.keys := rfl
@[simp] theorem State.setDir_nv_cells (s : State) (k : Nat) (x : DirEnt) : (s.setDir k x).nv.cells = s.nv.cells := rfl
@[simp] theorem State.setDir_nv_alloc (s : State) (k : Nat) (x : DirEnt) : (s.setDir k x).nv.alloc = s.nv.alloc := rfl
@[simp] theorem State.setDir_nv_holds (s : State) (k : Nat) (x : DirEnt) : (s.setDir k x).nv.holds = s.nv.holds := rfl
@[simp] theorem State.setDir_read_core (s : State) (k : Nat) (x : DirEnt) (j : Nat) : (s.setDir k x).core j = s.core j := rfl
@[simp] theorem State.setDir_read_arr (s : State) (k : Nat) (x : DirEnt) (j : Nat) : (s.setDir k x).arr j = s.arr j := rfl
@[simp] theorem State.setDir_read_reel (s : State) (k : Nat) (x : DirEnt) (j : Nat) : (s.setDir k x).reel j = s.reel j := rfl
@[simp] theorem State.setDir_read_port_ (s : State) (k : Nat) (x : DirEnt) (j : Nat) : (s.setDir k x).port_ j = s.port_ j := rfl
@[simp] theorem State.setDir_read_slot (s : State) (k : Nat) (x : DirEnt) (j : Nat) : (s.setDir k x).slot j = s.slot j := rfl
@[simp] theorem State.setDir_read_trEng (s : State) (k : Nat) (x : DirEnt) (j : Nat) : (s.setDir k x).trEng j = s.trEng j := rfl
@[simp] theorem State.setDir_read_obj (s : State) (k : Nat) (x : DirEnt) (j : Nat) : (s.setDir k x).obj j = s.obj j := rfl
@[simp] theorem State.setDir_read_queue (s : State) (k : Nat) (x : DirEnt) (j : Nat) : (s.setDir k x).queue j = s.queue j := rfl
@[simp] theorem State.setDir_read_sector (s : State) (k : Nat) (x : DirEnt) (j : Nat) : (s.setDir k x).sector j = s.sector j := rfl
@[simp] theorem State.setDir_read_bank (s : State) (k : Nat) (x : DirEnt) (j : Nat) : (s.setDir k x).bank j = s.bank j := rfl
@[simp] theorem State.setDir_read_strIn (s : State) (k : Nat) (x : DirEnt) (j : Nat) : (s.setDir k x).strIn j = s.strIn j := rfl
@[simp] theorem State.setDir_read_strOut (s : State) (k : Nat) (x : DirEnt) (j : Nat) : (s.setDir k x).strOut j = s.strOut j := rfl
@[simp] theorem State.setDir_read_pool (s : State) (k : Nat) (x : DirEnt) (j : Nat) : (s.setDir k x).pool j = s.pool j := rfl
@[simp] theorem State.setDir_read_ctr (s : State) (k : Nat) (x : DirEnt) (j : Nat) : (s.setDir k x).ctr j = s.ctr j := rfl

/-! `setSwitches` -/
@[simp] theorem State.setSwitches_run (s : State) (l : List Switch) : (s.setSwitches l).run = s.run := rfl
@[simp] theorem State.setSwitches_time (s : State) (l : List Switch) : (s.setSwitches l).time = s.time := rfl
@[simp] theorem State.setSwitches_cfg (s : State) (l : List Switch) : (s.setSwitches l).cfg = s.cfg := rfl
@[simp] theorem State.setSwitches_chan (s : State) (l : List Switch) : (s.setSwitches l).chan = s.chan := rfl
@[simp] theorem State.setSwitches_port (s : State) (l : List Switch) : (s.setSwitches l).port = s.port := rfl
@[simp] theorem State.setSwitches_host (s : State) (l : List Switch) : (s.setSwitches l).host = s.host := rfl
@[simp] theorem State.setSwitches_ev (s : State) (l : List Switch) : (s.setSwitches l).ev = s.ev := rfl
@[simp] theorem State.setSwitches_obs (s : State) (l : List Switch) : (s.setSwitches l).obs = s.obs := rfl
@[simp] theorem State.setSwitches_cnt (s : State) (l : List Switch) : (s.setSwitches l).cnt = s.cnt := rfl
@[simp] theorem State.setSwitches_cores (s : State) (l : List Switch) : (s.setSwitches l).cores = s.cores := rfl
@[simp] theorem State.setSwitches_grid (s : State) (l : List Switch) : (s.setSwitches l).grid = s.grid := rfl
@[simp] theorem State.setSwitches_loft (s : State) (l : List Switch) : (s.setSwitches l).loft = s.loft := rfl
@[simp] theorem State.setSwitches_arrs (s : State) (l : List Switch) : (s.setSwitches l).arrs = s.arrs := rfl
@[simp] theorem State.setSwitches_store (s : State) (l : List Switch) : (s.setSwitches l).store = s.store := rfl
@[simp] theorem State.setSwitches_nv (s : State) (l : List Switch) : (s.setSwitches l).nv = s.nv := rfl
@[simp] theorem State.setSwitches_fab (s : State) (l : List Switch) : (s.setSwitches l).fab = s.fab := rfl
@[simp] theorem State.setSwitches_sup (s : State) (l : List Switch) : (s.setSwitches l).sup = s.sup := rfl
@[simp] theorem State.setSwitches_sec (s : State) (l : List Switch) : (s.setSwitches l).sec = s.sec := rfl
@[simp] theorem State.setSwitches_test (s : State) (l : List Switch) : (s.setSwitches l).test = s.test := rfl
@[simp] theorem State.setSwitches_out (s : State) (l : List Switch) : (s.setSwitches l).out = s.out := rfl
@[simp] theorem State.setSwitches_free (s : State) (l : List Switch) : (s.setSwitches l).free = s.free := rfl
@[simp] theorem State.setSwitches_pending (s : State) (l : List Switch) : (s.setSwitches l).pending = s.pending := rfl
@[simp] theorem State.setSwitches_read_core (s : State) (l : List Switch) (j : Nat) : (s.setSwitches l).core j = s.core j := rfl
@[simp] theorem State.setSwitches_read_arr (s : State) (l : List Switch) (j : Nat) : (s.setSwitches l).arr j = s.arr j := rfl
@[simp] theorem State.setSwitches_read_reel (s : State) (l : List Switch) (j : Nat) : (s.setSwitches l).reel j = s.reel j := rfl
@[simp] theorem State.setSwitches_read_port_ (s : State) (l : List Switch) (j : Nat) : (s.setSwitches l).port_ j = s.port_ j := rfl
@[simp] theorem State.setSwitches_read_slot (s : State) (l : List Switch) (j : Nat) : (s.setSwitches l).slot j = s.slot j := rfl
@[simp] theorem State.setSwitches_read_trEng (s : State) (l : List Switch) (j : Nat) : (s.setSwitches l).trEng j = s.trEng j := rfl
@[simp] theorem State.setSwitches_read_obj (s : State) (l : List Switch) (j : Nat) : (s.setSwitches l).obj j = s.obj j := rfl
@[simp] theorem State.setSwitches_read_queue (s : State) (l : List Switch) (j : Nat) : (s.setSwitches l).queue j = s.queue j := rfl
@[simp] theorem State.setSwitches_read_sector (s : State) (l : List Switch) (j : Nat) : (s.setSwitches l).sector j = s.sector j := rfl
@[simp] theorem State.setSwitches_read_bank (s : State) (l : List Switch) (j : Nat) : (s.setSwitches l).bank j = s.bank j := rfl
@[simp] theorem State.setSwitches_read_strIn (s : State) (l : List Switch) (j : Nat) : (s.setSwitches l).strIn j = s.strIn j := rfl
@[simp] theorem State.setSwitches_read_strOut (s : State) (l : List Switch) (j : Nat) : (s.setSwitches l).strOut j = s.strOut j := rfl
@[simp] theorem State.setSwitches_read_pool (s : State) (l : List Switch) (j : Nat) : (s.setSwitches l).pool j = s.pool j := rfl
@[simp] theorem State.setSwitches_read_ctr (s : State) (l : List Switch) (j : Nat) : (s.setSwitches l).ctr j = s.ctr j := rfl

/-! A unit read after it is written. -/
@[simp] theorem State.setArr_self (s : State) (k : Nat) (x : Arr) : (s.setArr k x).arr k = x := tget_tset_self _ _ _ _
theorem State.setArr_ne (s : State) (k : Nat) (x : Arr) (j : Nat) (h : j ≠ k) : (s.setArr k x).arr j = s.arr j := tget_tset_ne _ _ _ _ _ h
@[simp] theorem State.setReel_self (s : State) (k : Nat) (x : Reel) : (s.setReel k x).reel k = x := tget_tset_self _ _ _ _
theorem State.setReel_ne (s : State) (k : Nat) (x : Reel) (j : Nat) (h : j ≠ k) : (s.setReel k x).reel j = s.reel j := tget_tset_ne _ _ _ _ _ h
@[simp] theorem State.setPort_self (s : State) (k : Nat) (x : Port) : (s.setPort k x).port_ k = x := tget_tset_self _ _ _ _
theorem State.setPort_ne (s : State) (k : Nat) (x : Port) (j : Nat) (h : j ≠ k) : (s.setPort k x).port_ j = s.port_ j := tget_tset_ne _ _ _ _ _ h
@[simp] theorem State.setSlot_self (s : State) (k : Nat) (x : SlotSt) : (s.setSlot k x).slot k = x := tget_tset_self _ _ _ _
theorem State.setSlot_ne (s : State) (k : Nat) (x : SlotSt) (j : Nat) (h : j ≠ k) : (s.setSlot k x).slot j = s.slot j := tget_tset_ne _ _ _ _ _ h
@[simp] theorem State.setTrEng_self (s : State) (k : Nat) (x : TrEng) : (s.setTrEng k x).trEng k = x := tget_tset_self _ _ _ _
theorem State.setTrEng_ne (s : State) (k : Nat) (x : TrEng) (j : Nat) (h : j ≠ k) : (s.setTrEng k x).trEng j = s.trEng j := tget_tset_ne _ _ _ _ _ h
@[simp] theorem State.setObj_self (s : State) (k : Nat) (x : SyncObj) : (s.setObj k x).obj k = x := tget_tset_self _ _ _ _
theorem State.setObj_ne (s : State) (k : Nat) (x : SyncObj) (j : Nat) (h : j ≠ k) : (s.setObj k x).obj j = s.obj j := tget_tset_ne _ _ _ _ _ h
@[simp] theorem State.setQueue_self (s : State) (k : Nat) (x : List DWord) : (s.setQueue k x).queue k = x := tget_tset_self _ _ _ _
theorem State.setQueue_ne (s : State) (k : Nat) (x : List DWord) (j : Nat) (h : j ≠ k) : (s.setQueue k x).queue j = s.queue j := tget_tset_ne _ _ _ _ _ h
@[simp] theorem State.setSector_self (s : State) (k : Nat) (x : Sector) : (s.setSector k x).sector k = x := tget_tset_self _ _ _ _
theorem State.setSector_ne (s : State) (k : Nat) (x : Sector) (j : Nat) (h : j ≠ k) : (s.setSector k x).sector j = s.sector j := tget_tset_ne _ _ _ _ _ h
@[simp] theorem State.setBank_self (s : State) (k : Nat) (x : Bank) : (s.setBank k x).bank k = x := tget_tset_self _ _ _ _
theorem State.setBank_ne (s : State) (k : Nat) (x : Bank) (j : Nat) (h : j ≠ k) : (s.setBank k x).bank j = s.bank j := tget_tset_ne _ _ _ _ _ h
@[simp] theorem State.setIn_self (s : State) (k : Nat) (x : StreamIn) : (s.setIn k x).strIn k = x := tget_tset_self _ _ _ _
theorem State.setIn_ne (s : State) (k : Nat) (x : StreamIn) (j : Nat) (h : j ≠ k) : (s.setIn k x).strIn j = s.strIn j := tget_tset_ne _ _ _ _ _ h
@[simp] theorem State.setStrOut_self (s : State) (k : Nat) (x : StreamOut) : (s.setStrOut k x).strOut k = x := tget_tset_self _ _ _ _
theorem State.setStrOut_ne (s : State) (k : Nat) (x : StreamOut) (j : Nat) (h : j ≠ k) : (s.setStrOut k x).strOut j = s.strOut j := tget_tset_ne _ _ _ _ _ h

end Sys2Proof.Machine
end

