-- ==== Sys2Proof/Tests/Slice0.lean ====
section
/-!
SUPPORT. Tests: an ill-formed command for each check, the spec's own examples, and for each statement with hypotheses a
state and operands that meet them.
-/

namespace Sys2Proof

open Machine

set_option Elab.async false

/-! ### Well-formedness: an ill-formed command for each check -/

theorem test_wf_core : WellFormed (.iNop 63 0) = true ∧ WellFormed (.iNop 64 0) = false := by decide
theorem test_wf_array : WellFormed (.rerunPass 47) = true ∧ WellFormed (.rerunPass 48) = false := by decide
theorem test_wf_reel : WellFormed (.reelFillStart 15) = true ∧ WellFormed (.reelFillStart 16) = false := by decide
theorem test_wf_group : groupOk 7 = true ∧ WellFormed (.flankGroupOut 0 8 []) = false := by decide
theorem test_wf_codes : WellFormed (.flankGroupOut 0 7 []) = false := by decide
theorem test_wf_plane : WellFormed (.planeProgram 0 15 []) = true ∧ WellFormed (.planeProgram 0 16 []) = false := by decide
theorem test_wf_desc : WellFormed (.probeSave 0 1023) = true ∧ WellFormed (.probeSave 0 1024) = false := by decide
theorem test_wf_bank : WellFormed (.eraseResume 31) = true ∧ WellFormed (.eraseResume 32) = false := by decide
theorem test_wf_stack : WellFormed (.checkpointWrite 1) = true ∧ WellFormed (.checkpointWrite 2) = false := by decide
theorem test_wf_slot : WellFormed (.joinReduce 0 4095 0) = true ∧ WellFormed (.joinReduce 0 4096 0) = false := by decide
theorem test_wf_chiplet :
    WellFormed (.portLaserFault 3 true) = true ∧ WellFormed (.portLaserFault 4 true) = false := by decide
theorem test_wf_rail : WellFormed (.supplyGlitch 6) = true ∧ WellFormed (.supplyGlitch 7) = false := by decide
theorem test_wf_sector :
    WellFormed (.poisonReport 16777215) = true ∧ WellFormed (.poisonReport 16777216) = false := by decide
theorem test_wf_object :
    WellFormed (.syncWait 4095 1 0) = true ∧ WellFormed (.syncWait 4096 1 0) = false := by decide
theorem test_wf_stream :
    WellFormed (.mediaPacketTx 1023) = true ∧ WellFormed (.mediaPacketTx 1024) = false := by decide
theorem test_wf_ring : WellFormed (.ringBaseWrite 3 0) = true ∧ WellFormed (.ringBaseWrite 4 0) = false := by decide
theorem test_wf_schedule :
    WellFormed (.scheduleRelease 255) = true ∧ WellFormed (.scheduleRelease 256) = false := by decide
theorem test_wf_media : WellFormed (.mediaLinkUp 1) = true ∧ WellFormed (.mediaLinkUp 2) = false := by decide
theorem test_wf_audio : WellFormed (.madiFrameTx 3) = true ∧ WellFormed (.madiFrameTx 4) = false := by decide
theorem test_wf_tether : WellFormed (.linkTrained 7) = true ∧ WellFormed (.linkTrained 8) = false := by decide
theorem test_wf_payload : WellFormed (.rowReceive ⟨0, 0, 0, List.replicate 8193 0⟩) = false := by
  have h (n : Nat) (x : Byte) : (List.replicate n x).length ≤ 8192 ↔ n ≤ 8192 := by rw [List.length_replicate]
  simp only [WellFormed, msgOk, h, decide_eq_false_iff_not]; omega
theorem test_wf_source :
    WellFormed (.syncSet 0 (.core 63)) = true ∧ WellFormed (.syncSet 0 (.core 64)) = false := by decide
theorem test_wf_vreq : WellFormed (.bootSequence true 800) = true ∧ WellFormed (.bootSequence true 805) = false ∧
    WellFormed (.bootSequence true 590) = false := by decide

/-! ### The spec's own examples -/

/-- R68: weights at Q = 32, and the crossfade example after R69. -/
theorem test_crossfade_weights :
    qOf 2 = 32 ∧ fadeW 2 0 = 20 ∧ fadeW 2 15 = 15580 ∧ fadeW 2 16 = 17188 ∧ fadeW 2 31 = 32748 := by decide
theorem test_crossfade_example : fadeMix 20 536870912 268435456 = 536707072 ∧
    fadeMix 17188 536870912 (-134217728) = 184860672 ∧ fadeMix 32748 536870912 (-134217728) = -133808128 := by decide
/-- The example after R90: the direct drain of 45,678 to an exit word, and the drain to A32. -/
theorem test_direct_drain : scaleApply 45678 0 [0xF933, 0xF680] (-31) 0 = 1346222016 ∧
    scaleApply 45678 0 [0xF933, 0xF680] (-23) 0 = 5258680 := by decide
/-- R122's example: column 700 of A05. -/
theorem test_convert_column_700 :
    cellValue (-1707) (List.replicate 65 (-16)) 3 = -13664 ∧ cellValue 2 (List.replicate 65 2) 3 = 17 ∧
      16 * (-13664) + 17 + 136 * 32901 = (4255929 : Int) := by decide
/-- R159's example: group 3 of A05 over the window of quantum 999. -/
theorem test_live_reference :
    let x : Arr := { Arr.reset with
      recs := [(3, { CalRec.reset with base := List.replicate 8 (32768, 0) })], sumA := [(27, 61560232)],
      sumB := [(27, 61440000)], sumM := [(27, 3296)], npQ := [(27, 7000)] }
    tget 32768 (liveStep x 27).1.gLive 27 = 32752 ∧ tget 0 (liveStep x 27).1.oLive 27 = 2 ∧
      (liveStep x 27).2 = some 64 := by decide
/-- The example after R138: tanh at entry 527. -/
theorem test_rom_tanh : romV 3 0 527 = 7542 ∧ romV 3 0 528 = 8025 := by decide
/-- The example after R227: the scale of a peak, and a value coded by it. -/
theorem test_scale_and_quantise : sc16Ceil (5872026 * 5) (4 * 32767 * 2 ^ 23) = 0xF0C1 ∧
    quantLane false 0 0xF0C1 32767 5872026 = (26156, false) := by decide
/-- The example after R264: the first bytes of an exponent-coded block. -/
theorem test_exponent_coding :
    (ecEncode bf16 [0x3F40, 0xBEA0, 0x3B86, 0xBB80, 0x3B03]).1.take 7 = [0x7E, 0x40, 0x00, 0xA5, 0xE1, 0x02, 0x0F] := by
  decide
/-- The example after R270: a DENSE group of width 5 that opens with 3 and −2. -/
theorem test_weight_packing : wpVals 1 5 [0xC3, 0x03] 2 = [[3], [0xFE]] := by decide
/-- The example after R90: `MDRAIN acc1, DF=5, RM=RNE, NSC=2, s10, s12, v3` is `0x212A_4A63`. -/
theorem test_mdrain_word : (BitVec.ofNat 23 0x212A4A63).toNat = 0x2A4A63 := by decide
/-- Sample 32,040, tick 0 as a TSTAMP (R26; the example after R476). -/
theorem test_tstamp : packTs 32040 0 = 0x7D28000 := by decide

/-! ### Witnesses: for each claim, states and operands that meet the hypotheses of its clauses -/

/-- An engine whose core 0 is `c`. -/
def wSt (c : Core) : State := { State.reset with run.st := .run, cores := [(0, c)] }
/-- A core that runs, in a LOAD phase and in a COMPUTE phase. -/
def wCore : Core := { Core.reset with run := .running, hasProg := true }
def wCompute : Core := { wCore with compute := true }
/-- A mesh message, local where its words name local units. -/
def wMsg (dest src w1 : Nat) (p : List Byte) : Msg := mkMsg dest src w1 0 false 0 0 0 p
def wMesh (s : State) (m : Msg) : State := { s with grid.mesh := [m] }

theorem wit_scalarArithmetic : (wSt wCore).issues 0 ∧ srOk 0 = true := by unfold State.issues; decide
theorem wit_scalarLogic :
    (wSt { wCore with idx := 16383 }).issues 0 ∧ srOk 0 = true := by unfold State.issues; decide
theorem wit_specialRegisters : (wSt wCore).issues 0 ∧
    ∀ n ∈ [0, 1, 2, 3, 4, 5, 6, 7, 16, 31], ∃ o : Ops23, oSA o = 0 ∧ oImm13 o = n := by
  refine ⟨by unfold State.issues; decide, fun n h => ⟨BitVec.ofNat 23 n, ?_⟩⟩
  revert n; decide
theorem wit_registerFile : (1 : Nat) ≠ 0 ∧ (2 : Nat) ≠ 1 := by decide
theorem wit_vectorLanes : (wSt wCore).issues 0 ∧
    ∀ rm ty modw vb ss : Bool, vrOk ⟨true, true, vb, ss, ty, rm, modw⟩ 0 = true := by
  unfold State.issues; decide
theorem wit_vectorLanes_types : oTY (0 : Ops23) = 0 ∧ ∃ o : Ops23, oTY o ≠ 0 ∧
    vrOk ⟨true, true, true, false, true, false, false⟩ o = true := by
  refine ⟨by decide, BitVec.ofNat 23 0x20, ?_⟩; decide
theorem wit_vectorMemory : (wSt wCompute).issues 0 ∧ ((wSt wCompute).core 0).compute = true ∧
    ∀ mf ∈ [0, 7, 8, 9], ∃ o : Ops23, fld o 7 0 = 0 ∧ oMRM o = 0 ∧ oMF o = mf ∧
      ((wSt wCompute).core 0).sr (oMSA o) + mfBytes mf 64 ≤ 0x200000 := by
  refine ⟨by unfold State.issues; decide, by decide, fun mf h => ⟨BitVec.ofNat 23 (mf * 1024), ?_⟩⟩
  revert mf; decide
theorem wit_byteMemory : Memory.wf (wrBytes [] 2 [1, 0]) = true ∧ (2 : Nat) ≤ 3 ∧ 3 < 2 + [(1 : Byte), 0].length := by
  decide
theorem wit_scalarMemory :
    (wSt wCore).issues 0 ∧ ((wSt wCore).core 0).dma = [] ∧ 0 / 4 * 4 + 4 ≤ 0x200000 ∧
      ∃ c : Core, (wSt c).issues 0 ∧ ((wSt c).core 0).dma = [] ∧ 0x200000 < c.sr 1 / 4 * 4 + 4 ∧
        0x1FFFFC + 4 ≤ 0x200000 := by
  refine ⟨by unfold State.issues; decide, by decide, by decide, { wCore with s := [(1, 0x200001)] }, ?_⟩
  unfold State.issues; decide
theorem wit_branches : (wSt { wCore with idx := 16383 }).issues 0 ∧ srOk (BitVec.ofNat 23 0x1000) = true := by
  unfold State.issues; decide
theorem wit_transferInstructions : (wSt wCore).issues 0 ∧ ((wSt wCore).core 0).compute = false ∧
    fld (0 : Ops23) 4 0 = 0 ∧ fld (0 : Ops23) 18 0 = 0 ∧ wCore.sr (oTSC 0) % 2 ^ 17 = 0 ∧
    (∃ c : Core, ∃ o : Ops23, fld o 4 0 = 0 ∧ c.sr (oTSA o) + c.sr (oTSC o) % 2 ^ 17 = 0x200000) ∧
    ∃ c : Core, (wSt c).issues 0 ∧ (c.dma.filter fun d => flag (0 : Ops23) 19 || d.tag == oDT 0) ≠ [] := by
  refine ⟨by unfold State.issues; decide, by decide, by decide, by decide, by decide,
    ⟨{ wCore with s := [(1, 0x1FFFFF), (2, 1)] }, BitVec.ofNat 23 (1 * 2 ^ 15 + 2 * 2 ^ 5), by decide⟩,
    ⟨{ wCore with dma := [⟨true, 0, 0, 0, 4, 0⟩] }, by unfold State.issues; decide, by decide⟩⟩
theorem wit_ringInstructions : (wSt wCore).issues 0 ∧ ((wSt wCore).core 0).compute = false ∧ ((wSt wCore).core 0).rx = [] ∧
    fld (0 : Ops23) 8 0 = 0 ∧ fld (0 : Ops23) 13 0 = 0 ∧ fld (0 : Ops23) 18 14 % 2 = 0 ∧ wCore.sr 0 % 64 = 0 ∧
    (64 + (0x200000 - 64) ≤ 0x200000) := by unfold State.issues; decide
theorem wit_taskInstructions : (wSt wCore).issues 0 ∧ (wSt wCore).readyList = false ∧
    State.findTask (wSt wCore) 0 (bitsSet 16 wCore.qmask) = none ∧ wCore.compute = false ∧
    (let s : State := { wSt wCore with cfg.plctl := BitVec.ofNat 64 (2 ^ 63), grid.queues := [(15, [5])] }
     s.issues 0 ∧ s.readyList = true ∧ (s.findTask 0 (bitsSet 16 wCore.qmask)).isSome = true) := by
  unfold State.issues; decide
theorem wit_taskChoice :
    ((({ wSt wCore with grid.queues := [(3, [5, 6])] } : State).findTask 0 [1, 3]).map (·.1)) = some 5 ∧
      (wSt wCore).findTask 0 [0, 1] = none := by decide
theorem wit_taskAvailable : (0 : Nat) < 64 ∧
    (let s : State := { wSt { wCore with run := .waitTake } with grid.queues := [(0, [5])] }
     (s.core 0).run = .waitTake ∧ (s.findTask 0 (bitsSet 16 (s.core 0).qmask)).isSome = true) := by decide
theorem wit_timeInstructions : (wSt wCore).issues 0 ∧ wCore.compute = false ∧ fld (0 : Ops23) 17 0 = 0 ∧
    oSD (0 : Ops23) % 2 = 0 ∧ fld (0 : Ops23) 3 0 = 0 ∧ 0 ≤ (wSt wCore).tstamp ∧
    (wSt wCore).tstamp < packTs ((0 + 1) * 8 + 0) 0 := by unfold State.issues; decide
theorem wit_coreInstants : (0 : Nat) < 64 ∧
    (let s (c : Core) : State := { wSt c with time.counting := true, time.windowOpen := true }
     (∃ ts, (s { wCore with deadline := some ts }).reaches ts = true) ∧
       ∃ ts, (s { wCore with run := .waitTime ts }).reaches ts = true) := by
  refine ⟨by decide, ⟨4096, by decide⟩, ⟨4096, by decide⟩⟩
theorem wit_issueTraps : coreLegal (.iNop 0 0) = some (0, true) ∧ coreLegal (.iQend 0 1) = some (0, false) ∧
    (wSt Core.reset).runs 0 = false ∧ (wSt { wCore with idx := 16384 }).runs 0 = true := by decide
theorem wit_issueSwitchesPhase : coreLegal (.iVld 0 0) = some (0, true) ∧ coreLegal (.iTake 0 0) = some (0, true) ∧
    (wSt wCore).issues 0 := by unfold State.issues; decide
theorem wit_phaseSwitches : ((wSt wCore).core 0).compute = false ∧ ((wSt wCompute).core 0).compute = true ∧
    wCore.dma = [] ∧ wCompute.rx = [] := by decide

/-- An engine in RUN at sample 64 of a quantum of 8, with sample time counted and the lasers lit. -/
def wRun : State := { State.reset with run.st := .run, run.cfgOk := true, time.counting := true, time.sample := 64,
                                       time.window := 7, port.lit := true }
/-- The same with one media stream record and both media ports up. -/
def wMedia (w : BitVec 256) : State :=
  { wRun with cfg.streams := [(3, w)], port.mediaUp := [true, true],
              cfg.mport := [BitVec.ofNat 128 (1 * 2 ^ 32), BitVec.ofNat 128 (2 * 2 ^ 32)] }
/-- A receive stream on port 0, PTIME 0, one channel, L16; and a transmit stream. -/
def wRxRec : BitVec 256 := BitVec.ofNat 256 (2 ^ 63)
def wTxRec : BitVec 256 := BitVec.ofNat 256 (2 ^ 63 + 2 ^ 62)
def wPkt (ip n : Nat) : MediaPkt := ⟨ip, 0, 0, 0, none, 0, 1, 64, 0, List.replicate n 0⟩
def wSa (w : Word) : State := { wRun with cfg.sactl := [w, w, w, w] }
/-- A layer descriptor of role single, and an array that holds it. -/
def wDesc : List DWord := [0, 0, 0, 0, 0, 0, 0, 0]
def wArr : Arr := { Arr.reset with descs := [(0, wDesc)] }
def wWith (x : Arr) : State := { wRun with arrs := [(0, x)] }
def wJob : RowJob := RowJob.reset

theorem wit_clockSources :
    let s (st : Bridle) (src : Nat) (qual : List Nat) : State :=
      { wRun with time.st := st, time.src := src, time.qual := qual, time.hadLocked := true,
                  cfg.clocking := BitVec.ofNat 192 (1 * 2 ^ 41 + 2 * 2 ^ 38 + 2 ^ 57) }
    (s .freeRun 0 []).run.st ≠ .boot ∧ 1 ∈ (s .freeRun 0 []).sources ∧ (s .freeRun 0 [1]).bestSrc = some 1 ∧
      (1 : Nat) ≠ (s .freeRun 0 []).time.src ∧ (s .holdover 2 [2]).bestSrc = some (s .holdover 2 [2]).time.src ∧
      (s .locked 1 [2]).bestSrc = some 2 ∧ (s .locked 1 []).bestSrc = none ∧ (s .locked 2 [1, 2]).revertEn = true ∧
      srcBefore (s .locked 2 [1, 2]).sources 1 2 = true := by decide
theorem wit_clockLock :
    let s : State := { wRun with time.st := .acquiring }
    let d (sample tick : Nat) : Int := ((sample * 4096 + tick : Nat) : Int) - ((64 * 4096 : Nat) : Int)
    s.time.st = .acquiring ∧ s.time.slewing = false ∧ s.run.st ≠ .boot ∧ (d 64 15).natAbs < 16 ∧ 16 ≤ (d 64 16).natAbs ∧
      (d 63 0).natAbs ≤ 4096 ∧ 4096 < (d 65 1).natAbs ∧ ({ s with run.st := .boot } : State).run.st = .boot ∧
      ({ s with time.slewing := true } : State).time.slewing = true ∧
      ({ s with time.st := .lockedOffset } : State).time.st = .lockedOffset ∧
      ({ s with time.st := .holdover } : State).time.st = .holdover := by decide
theorem wit_clockTimeoutAndStatus :
    let s : State := { State.reset with run.st := .boot, run.step := 9 }
    s.run.st = .boot ∧ 9 ≤ s.run.step ∧ s.run.s9 = false ∧ s.bestSrc = none ∧ s.time.counting = false := by decide
theorem wit_timeMovesOn : wRun.time.tick < 4096 ∧ wRun.time.rate ≤ 5 ∧
    ({ wRun with time.tick := 4095, time.rate := 5 } : State).time.tick < 4096 := by decide
theorem wit_scheduleReleases :
    let s : State := { wRun with time.sched := [(255, BitVec.ofNat 64 (2 ^ 63)), (3, BitVec.ofNat 64 (2 ^ 63))] }
    (255 : Nat) < 256 ∧ s.due 3 = true ∧ s.reaches (packTs 64 0) = true := by decide
theorem wit_syncSignals :
    let s (o : SyncObj) : State := { wRun with grid.objs := [(3839, o), (4095, o)] }
    let sem : SyncObj := { SyncObj.reset with w0 := BitVec.ofNat 64 (1 * 2 ^ 62), count := 2 ^ 32 - 2 }
    let ev : SyncObj := { SyncObj.reset with w0 := BitVec.ofNat 64 (3 * 2 ^ 62) }
    (3839 : Nat) < 3840 ∧ ((s sem).obj 3839).kind = 1 ∧ ((s sem).obj 3839).count + 1 < 2 ^ 32 ∧
      2 ^ 32 ≤ ((s sem).obj 3839).count + 2 ∧ ((s sem).obj 3839).queue = [] ∧ ((s sem).obj 3839).trig = false ∧
      ((s ev).obj 4095).kind = 3 := by decide
theorem wit_syncBarriers :
    let s (o : SyncObj) : State := { wRun with grid.objs := [(3839, o)] }
    let bar : SyncObj := { SyncObj.reset with w0 := BitVec.ofNat 64 (2 * 2 ^ 62), w1 := BitVec.ofNat 64 (2 * 2 ^ 32) }
    ((s bar).obj 3839).kind = 2 ∧ ((s bar).obj 3839).count + 1 < ((s bar).obj 3839).target ∧
      ((s { bar with count := 1 }).obj 3839).target ≤ 1 + 1 ∧ SyncSrc.unit ≠ .peer ∧
      ((s { bar with w0 := BitVec.ofNat 64 (3 * 2 ^ 62) }).obj 3839).kind = 3 := by decide
theorem wit_syncWaits :
    let s (r : CoreRun) (k : Nat) : State :=
      { wSt { wCore with run := r } with grid.objs := [(5, { SyncObj.reset with w0 := BitVec.ofNat 64 (k * 2 ^ 62) })] }
    ((s (.waitSync 5 4 0) 1).core 0).run = .waitSync 5 4 0 ∧ ((s (.waitSync 5 4 0) 1).obj 5).kind = 1 ∧
      ((s (.waitSync 5 4 0) 1).core 0).woken = false ∧ ((s (.waitSync 5 5 0) 3).obj 5).kind = 3 ∧
      ((s (.waitRead 5 true 31) 1).core 0).run = .waitRead 5 true 31 ∧
      ((wSt { wCore with run := .waitSync 5 4 1, woken := true }).core 0).woken = true := by decide
theorem wit_syncReleases :
    let o : SyncObj := { SyncObj.reset with w0 := BitVec.ofNat 64 (2 ^ 60 + 15 * 2 ^ 56) }
    o.trig = true ∧ SyncObj.reset.trig = false ∧ (wRun.queue o.tq).length + 256 ≤ 256 := by decide
theorem wit_syncMisuse : (4095 : Nat) < 4096 ∧ opSuits 0 (wRun.obj 3839).kind = false ∧
    (SyncSrc.core 0 ≠ .entry ∧ 3840 ≤ 4095) := by decide
theorem wit_loftAccess :
    let m (type unit a n : Nat) : Msg := mkMsg (localAddr 2 unit 0) 0 type 0 false 0 0 0 (leBytes 8 (a + n * 2 ^ 32))
    let w (type unit a n : Nat) : Nat := leAt (m type unit a n).payload 0 8
    wRun.ready (m 0 15 0 0) = true ∧ (m 0 15 0 0).toUnit 2 = true ∧ (m 0 15 0 0).type = 0 ∧ bf (w 0 0 0 1) 63 26 ≠ 0 ∧
      bf (w 0 0 4095 0) 63 26 = 0 ∧ 4095 / 2 ^ 22 = (m 0 0 4095 0).unit ∧ loftCtl 4095 = false ∧ loftCtl 0x3F0000 = true ∧
      (m 4 0 0 4096).type = 4 ∧ bf (w 4 0 0 4096) 63 45 = 0 ∧ bf (w 4 0 0 4096) 44 32 = 4096 ∧
      bf (w 4 0 0 4097) 44 32 = 4097 := by decide
theorem wit_loftAccess_protected :
    inRanges [(8, 16)] 8 = true ∧ inRanges [] 8 = false := by decide
theorem wit_transfersComplete :
    let c (r : CoreRun) (l : List Dma) : State := wSt { wCore with run := r, dma := l }
    ((c (.waitDma none) [⟨true, 7, 0, 0, 131071, 0⟩]).core 0).dma = ⟨true, 7, 0, 0, 131071, 0⟩ :: [] ∧
      ((c (.waitDma (some 7)) [⟨false, 7, 0, 0, 4, 0⟩]).core 0).run = .waitDma (some 7) := by decide
theorem wit_coreReceives :
    let m (sub arg n : Nat) : Msg := mkMsg (localAddr 0 63 sub) 0 0 0 false 0 0 arg (List.replicate n 0)
    let s : State := { wRun with cores := [(63, { wCore with rings := [(0, ⟨0, 128, 0, 64, 64⟩)] })] }
    (m 255 0 1).type = 0 ∧ (m 255 0 1).toUnit 0 = true ∧ (m 255 0 1).unit < 64 ∧ s.ready (m 255 0 1) = true ∧
      (s.core 63).compute = false ∧ (s.core 63).rx = [] ∧ (m 255 0x1FFFFF 1).arg + 1 ≤ 0x200000 ∧
      0x200000 < (m 255 0x1FFFFF 2).arg + 2 ∧ (m 1 0 1).sub ≠ 255 ∧
      (tget .reset (s.core 63).rings 1).size = 0 ∧ (tget .reset (s.core 63).rings 0).size ≠ 0 ∧
      64 + cdiv 64 64 * 64 ≤ 0 + 128 := by decide
theorem wit_taskMessages :
    let m (q : Nat) : Msg := mkMsg (localAddr 7 0 0) 0 6 0 false 0 q 0 []
    let s : State := { wMesh wRun (m 3) with grid.queues := [(0, List.replicate 256 0)] }
    (m 3).type = 6 ∧ (m 3).remote = false ∧ wRun.ready (m 3) = true ∧ (m 2).qtag ≠ wRun.qindex % 4 ∧
      (m 3).qtag = wRun.qindex % 4 ∧ (wRun.queue 0).length < 256 ∧ 256 ≤ (s.queue 0).length ∧ m 3 ∈ s.grid.mesh := by decide +kernel
theorem wit_mediaReceive :
    let s := wMedia wRxRec
    let n := packetOf 0 0
    s.mediaOn 0 = true ∧ s.chan.stopped = false ∧ s.time.counting = true ∧ (wPkt 0 2).udpDst ≠ 319 ∧
      msOn wRxRec 0 = true ∧ msTx wRxRec = false ∧ (wPkt 0 2).dstIp = msGroup wRxRec 0 ∧ (wPkt 5 2).dstIp ≠ msGroup wRxRec 0 ∧
      tget 0 s.cfg.streams 3 = wRxRec ∧ s.msPass 0 wRxRec (wPkt 0 (2 * n)) = true ∧
      s.msPass 0 wRxRec { wPkt 0 2 with pt := 1 } = false ∧ (wPkt 0 (2 * n)).payload.length = n * 1 * 2 ∧
      (wPkt 0 2).payload.length ≠ n * 1 * 2 ∧ ((64 : Int) - (64 - 0)) % 2 ^ 32 = 0 ∧ (64 : Int) + ((n + 8 : Nat) : Int) ≤ 64 + 1024 ∧
      ux 64 64 ∉ (s.strIn 3).seen := by decide
theorem wit_mediaTransmit :
    let s (p : Nat) : State := (wMedia wTxRec).setStrOut 3 { StreamOut.reset with next := some p }
    ((s 0).strOut 3).next = some 0 ∧ (7 + 3) * 8 + 24 < 1000 + packetOf 0 0 ∧ 0 + packetOf 0 0 ≤ (7 + 3) * 8 + 24 ∧
      msEn wTxRec = true ∧ msTx wTxRec = true ∧ msPort wTxRec = 0 := by decide
theorem wit_mediaPorts :
    let s := wMedia wRxRec
    nth false s.port.mediaUp 1 = true ∧ s.ph0 = true ∧ s.mportIp 1 ≠ 0 ∧ s.mediaOn 1 = true ∧
      ({ s with run.st := .shutdown } : State).run.st = .shutdown ∧ s.chan.stopped = false ∧
      (wSa (BitVec.ofNat 32 (2 ^ 31 + 2 ^ 29 + 2 ^ 27))).saLit 3 = true ∧ saWclk (BitVec.ofNat 32 (2 ^ 31 + 2 ^ 29)) = true ∧
      saTx (BitVec.ofNat 32 (2 ^ 31 + 2 ^ 29 + 2 ^ 27)) = true ∧ wRun.time.tick = 0 := by decide
theorem wit_ptpMessages :
    let s : State := { wMedia 0 with port.gm := [some (1, 2, 3), none], port.twoStep := [some (9, 4), none] }
    s.mediaOn 0 = true ∧ bf s.cfg.clocking.toNat 51 44 = 0 ∧ nth none s.port.gm 0 = some (1, 2, 3) ∧
      nth none s.port.gm 1 = none ∧ nth none s.port.twoStep 0 = some (9, 4) ∧ PtpKind.followUp ≠ .announce := by decide
theorem wit_serialAudio :
    let w : Word := BitVec.ofNat 32 (2 ^ 31 + 2 ^ 27)
    let s : State := { wSa w with port.saLock := [true, false, false, false] }
    saMadi (s.sactl 0) = true ∧ s.saLit 0 = true ∧ nth false s.port.saLock 0 = true ∧ nth false s.port.saLock 1 = false ∧
      saTx w = true ∧ s.time.tick = 0 ∧ s.chan.stopped = false ∧ s.time.counting = true := by decide
theorem wit_tetherReceive :
    let w : BitVec 128 := BitVec.ofNat 128 (2 ^ 127)
    let m : Msg := mkMsg (localAddr 3 0 0) 0 0 0 false 0 3 0 (leBytes 8 (5 + 2 ^ 32) ++ [1, 2, 3, 4])
    let s : State := { wRun with cfg.tstreams := [(5, w)] }
    m.type = 0 ∧ m.toUnit 3 = true ∧ s.ready m = true ∧ bf (leAt m.payload 0 8) 9 0 = 5 ∧ 2 ≤ s.qindex ∧ tsEn w = true ∧
      tsTx w = false := by decide
theorem wit_rowReceive :
    let m (fmt arg q h n : Nat) : Msg := mkMsg (localAddr 1 0 0) 0 1 fmt false 0 q arg (leBytes 16 h ++ List.replicate n 0)
    let s := wWith wArr
    (m 5 0 3 0 4).type = 1 ∧ (m 5 0 3 0 4).toUnit 1 = true ∧ s.ready (m 5 0 3 0 4) = true ∧ (m 5 0 2 0 4).qtag ≠ s.qindex % 4 ∧
      rhPrio 0 ∉ s.sup.shed ∧ rhPrio (2 ^ 98) ∈ ({ s with sup.shed := [1] } : State).sup.shed ∧ (s.arr 0).hasDesc 1 = false ∧
      (s.arr 0).hasDesc 0 = true ∧ lcRole wDesc = 0 ∧ rhGen 0 = tget 0 s.model.captured (s.descModel 0 0) ∧
      rhGen (2 ^ 80) ≠ tget 0 s.model.captured (s.descModel 0 0) ∧ s.tileServed (0, 0) = true ∧ (s.arr 0).flankOut = false ∧
      (wWith { wArr with flankOut := true }).arr 0 ≠ wArr ∧ rowVals 7 0 false [] = none ∧
      (rowVals 5 0 false [0, 0, 0, 0]).map (·.length) = some 1 ∧ s.layerRows (s.tiles 0 0) (0, 0) = 1 ∧
      (s.arr 0).asm = none ∧
      (let p : RowAsm := ⟨0, 0, [], 0, true⟩
       p.whole = true ∧ p.desc = 0 ∧ rhSlot p.hdr = rhSlot 0 ∧ rhTpos p.hdr = rhTpos 0 ∧ rhTpos p.hdr ≠ rhTpos (2 ^ 106)) := by decide
theorem wit_rowQuantiser : (3 : Nat) < 4 ∧
    (let v : List Dy := [⟨1, 0⟩, ⟨2, 0⟩]
     v.head? = some ⟨1, 0⟩ ∧ ((Dy.mk 1 0).add ⟨-2, 0⟩).man ≠ 0) ∧ (∀ n, wRun.ctr n ≤ 2 ^ 64 - 1) := by
  refine ⟨by decide, by decide, fun n => ?_⟩
  simp [wRun, State.ctr, State.reset, tget, tfind]
theorem wit_flankPasses :
    let x : Arr := { wArr with fifo := [wJob] }
    let y : Arr := { wArr with fifo := [{ wJob with passes := 2 }] }
    let z : Arr := { wArr with fifo := [{ wJob with again := some ([1], 0), passes := 1, donePasses := 1 }] }
    (wWith x).obs.halting = false ∧ x.serves = true ∧ wJob.flat = false ∧ wJob.passes < lgPasses (x.desc wJob.desc) ∧
      x.flying < 2 ∧ 2 ≤ y.flying ∧ lgPasses (z.desc 0) ≤ 1 := by decide
theorem wit_flankConversions :
    let l : List DWord := [0, BitVec.ofNat 64 (1 * 2 ^ 57 + 1 * 2 ^ 28), 0, 0, 0, 0, 0, 0]
    let j : RowJob := { wJob with passes := 1, group := 7, codes := [1, 2] }
    let x : Arr := { Arr.reset with descs := [(0, l)], fifo := [j] }
    j.flat = false ∧ j.donePasses < j.passes ∧ j.group = 7 ∧ j.donePasses + 1 < lgPasses l ∧ x.fifo = j :: [] := by decide
theorem wit_columnArithmetic : wArr.spareOf 15 2111 = none := by decide
theorem wit_joinsAndTerms :
    let x : Arr := { wArr with joins := [((5 * 65536 + 3) * 1024 + 7, ⟨0, 0, [], [], []⟩)], adapters := [(0, { Adapter.reset with rank := 4 })],
                               late := [wJob] }
    x.joins.filter (fun p => p.1 / 1024 == 5 * 65536 + 3) = [((5 * 65536 + 3) * 1024 + 7, ⟨0, 0, [], [], []⟩)] ∧
      x.joins.filter (fun p => p.1 / 1024 == 5 * 65536 + 4) = [] ∧ x.adapting 0 = true ∧ wJob.terms.isNone = true ∧
      wJob.flat = false ∧ rhSlot wJob.hdr = 0 ∧ rhTpos wJob.hdr = 0 := by decide
theorem wit_nearestRecord : (wRun.nearest 0 0 [(0, CalRec.reset)]).isSome = true ∧ wRun.nearest 0 0 [] = none := by decide
theorem wit_calibration :
    let x (q : List CalReq) (d : Nat) : Arr := { wArr with calQ := q, calDone := d }
    let s (x : Arr) : State := { wWith x with nv.alloc := [(0, 2)] }
    (s (x [] 0)).activePlanes 0 = [0] ∧ (s (x [] 0)).points 0 0 = [] ∧ (wWith (x [] 0)).activePlanes 0 = [] ∧
      (x [⟨[0], none, true⟩] 63).calDone < 64 * 1 ∧ 64 * 1 ≤ (x [⟨[0], none, false⟩] 64).calDone ∧ (s (x [] 0)).mayPass 0 = true ∧ (x [] 0).asm = none ∧ (x [] 0).serves = true ∧
      (x [] 0).fifo = [] ∧ (s (x [] 0)).ballast 1 = false ∧ (s (x [] 0)).isolated 64 = false ∧
      ({ wArr with st := .stale } : Arr).st = .stale ∧ ({ wArr with st := .suspect } : Arr).st ≠ .online := by decide

theorem wit_scalarImmediates : (wSt wCore).issues 0 ∧ oImm18 (0 : Ops23) < 16384 ∧ fld (0 : Ops23) 9 8 ≠ 3 ∧
    (∃ o : Ops23, flag o 12 = true ∧ fld o 7 0 = 0 ∧ fld o 9 8 ≠ 3) := by
  refine ⟨by unfold State.issues; decide, by decide, by decide, BitVec.ofNat 23 (2 ^ 12), by decide⟩
theorem wit_scalesAndConstants : srOk (0 : Ops23) = true ∧
    (scExp 0x7F00 < scExp 0x7FFF ∨ scExp 0x7EFF < scExp 0x7F00) ∧ scExp 0x8000 < scExp 0x7FFF ∧
      scExp 0x7F00 = scExp 0x7FFF ∧ 0x7F00 % 256 < 0x7FFF % 256 ∧
      (let o : Ops23 := BitVec.ofNat 23 (2 ^ 18 + 2 ^ 18 - 1)
       let p : Ops23 := BitVec.ofNat 23 (2 ^ 18 + 16383)
       (wSt wCore).issues 0 ∧ ((wSt wCore).core 0).idx < 16383 ∧ oSD o ≠ 0 ∧ oSD p = oSD o ∧
         oImm18 o = (2 ^ 32 - 1) / 16384 ∧ oImm18 p = (2 ^ 32 - 1) % 16384) := by
  unfold State.issues; decide
theorem wit_scaleCeiling :
    ((0 : Nat) < 1 ∧ 0 * 2 ^ 136 ≤ 1 * scUnits 0) ∧ ∀ c < 65536, 1 * scUnits c < 2 ^ 200 * 2 ^ 64 * 2 ^ 136 := by
  refine ⟨⟨by decide, by omega⟩, fun c hc => ?_⟩
  have h1 : scMan c < 2 ^ 9 := by unfold scMan; omega
  have h2 : (scExp c + 128).toNat ≤ 255 := by
    have h : ∀ x < 256, (sx 8 x + 128).toNat ≤ 255 := by decide +kernel
    exact h _ (by omega)
  have h3 : scUnits c < 2 ^ 9 * 2 ^ 255 := by
    have := Nat.pow_le_pow_right (n := 2) (by decide) h2
    exact Nat.mul_lt_mul_of_lt_of_le h1 this (by decide)
  rw [Nat.one_mul]
  exact Nat.lt_of_lt_of_le h3 (by decide)
theorem wit_vectorReductions : (wSt wCore).issues 0 ∧ oTY (0 : Ops23) = 0 ∧ oVB (0 : Ops23) ≤ 1 ∧
    vrOk ⟨false, true, false, true, true, false, true⟩ 0 = true ∧ vrOk ⟨false, true, false, true, true, false, false⟩ 0 = true ∧
    vrOk ⟨true, true, true, true, true, false, false⟩ 0 = true ∧
    (∃ o : Ops23, oTY o ≠ 0 ∧ vrOk ⟨false, true, false, true, true, false, true⟩ o = true ∧
      vrOk ⟨false, true, false, true, true, false, false⟩ o = true) := by
  refine ⟨by unfold State.issues; decide, by decide, by decide, by decide, by decide, by decide, BitVec.ofNat 23 0x20, by decide⟩
theorem wit_matrixInstructions : (wSt wCompute).issues 0 ∧ wCompute.compute = true ∧ viewOk 0 0 = true ∧ viewOk 2 3 = true ∧
    wCompute.sr 0 + (31 * mldwRow 4 false + mldwRow 4 false) ≤ 0x200000 ∧
    wCompute.sr 0 + (63 % 64 * mmacRow 0 false + mmacRow 0 false) ≤ 0x200000 ∧
    wCompute.sr 0 + (63 % 64 * (64 * dfSize 8) + 64 * dfSize 8) ≤ 0x200000 ∧ fld (0 : Ops23) 16 15 ≠ 3 ∧ fld (0 : Ops23) 7 3 % 2 = 0 := by
  unfold State.issues; decide
theorem wit_messageInstructions :
    let c : Core := { wCore with s := [(1, 4), (2, BitVec.ofNat 32 (48 * 2 ^ 26)), (3, 0x1FFFF0)] }
    let m := c.readMsg 0 64
    (wSt c).issues 0 ∧ c.compute = false ∧ 64 + 16 + m.payload.length ≤ 0x200000 ∧ m.sendable = true ∧ m.type ≤ 3 ∧
      ({ m with w1 := BitVec.ofNat 64 (4 * 2 ^ 60) } : Msg).type ≠ 5 ∧ min (c.sr 1 % 2 ^ 17) 65536 ≠ 0 ∧
      bf (c.sr 0) 31 26 < 48 ∧ 48 ≤ bf (c.sr 2) 31 26 ∧ 0 + 16 + 65536 * aevalSize 4 ≤ 0x200000 ∧
      ({ m with w1 := BitVec.ofNat 64 (2 ^ 21) } : Msg).sendable = false := by unfold State.issues; decide +kernel
theorem wit_syncInstructions :
    let s (k : Nat) (c : Core) : State := { wSt c with grid.objs := [(0, { SyncObj.reset with w0 := BitVec.ofNat 64 (k * 2 ^ 62) })] }
    (s 1 wCore).issues 0 ∧ oSEL (0 : Ops23) = false ∧ oXR (0 : Ops23) = false ∧ oOBJ (0 : Ops23) = 0 ∧
      ((s 1 wCore).obj 0).kind = 1 ∧ ((s 2 wCore).obj 0).kind = 2 ∧ ((s 3 wCompute).obj 0).kind = 3 := by
  unfold State.issues; decide
theorem wit_columnRepair :
    let s (n : Nat) (x : Arr) : State := { wWith x with nv.cycles := [(cycKey 47 15 7, n), (cycKey 0 15 2048, n), (cycKey 0 15 7, n)] }
    let x : Arr := { Arr.reset with flagged := [(15, [7, 9])] }
    (s 3000 x).mayProgram 0 = true ∧ ([7, 8].filter (tget [] x.flagged 15).contains).take 8 = [7] ∧
      3000 ≤ (s 3000 x).cycles 0 15 ([7].map (x.entryOf 15)) ∧ (s 2999 x).cycles 0 15 ([7].map (x.entryOf 15)) < 3000 ∧
      ({ x with prog := some ⟨15, [7], false, some 1, true⟩, st := .programming } : Arr).prog = some ⟨15, [7], false, some 1, true⟩ ∧
      ({ s 0 x with model.progs := [⟨0, 15, false, [7], [], none⟩] } : State).model.progs = [⟨0, 15, false, [7], [], none⟩] ∧
      x.st ≠ .failed ∧ 7 ∈ tget [] x.flagged 15 ∧ x.spareOf 15 7 = none ∧ (s 2999 x).cycles 0 15 [2048] < 3000 ∧
      (∀ i < 8, 8 * (7 / 256) + i ∈ (tget [] ({ x with colmap := [(15, (List.range 8).map fun i => (i, 100 + i))] } : Arr).colmap 15).map
        (·.1)) := by decide
theorem wit_adapters :
    let l : List DWord := [0, 0, 0, 0, 0, 0, 0, BitVec.ofNat 64 (2 ^ 63 + 3 * 2 ^ 61)]
    let x : Arr := { Arr.reset with descs := [(0, l)], lastRow := [(0, [], [])], probe := [(0, List.replicate 256 ([], []))],
                                    tried := [(0, [0])], adapters := [(0, { Adapter.reset with steps := 64, ofSerial := 0 })] }
    let s := wWith x
    (s.arr 0).desc 0 = l ∧ lpAdapt l = true ∧ tfind x.lastRow 0 = some ([], []) ∧ s.ballast 2 = false ∧
      tfind x.probeAt 0 = none ∧ (tget [] x.probe 0).length = 256 ∧ (tget [] Arr.reset.probe 0).length < 256 ∧
      96 ≤ (tget [] x.probe 0).length ∧ x.toLearn l ≠ [] ∧
      ({ s with sup.stage := 2, cfg.stages := [0, BitVec.ofNat 64 (2 ^ 63)] } : State).ballast 2 = true ∧
      (tget .reset x.adapters 0).steps ≠ 0 ∧ (tget .reset x.adapters 0).steps % 64 = 0 ∧ 16 ≤ lpMax l ∧
      (tget .reset x.adapters 0).ofGen = tget 0 s.model.captured (s.descModel 0 0) ∧
      (tget .reset x.adapters 0).ofSerial = (tget .reset x.adapters 0).serial ∧ (tget .reset x.adapters 0).rank = 0 ∧
      s.nv.adapterQ = none ∧ ({ s with nv.adapterQ := some 0 } : State).nv.adapterQ = some 0 ∧ s.qindex < 0 + 65536 ∧
      (let t : State := { s with model.captured := [(0, 1)] }
       (tget .reset x.adapters 0).ofGen ≠ tget 0 t.model.captured (t.descModel 0 0)) := by decide +kernel
/-- A switch to generation 1 of model 7. -/
def wSwitch : Switch := ⟨7, 1, none, true, 0, [(0, 3)], [], [], false, [], none⟩
/-- Programs of a plane all of whose columns are new, and of one whose column 0 has been programmed 3,000 times. -/
theorem wit_planePrograms_cycles : (∀ s : State, s.nv.cycles = [] → s.cycles 0 3 ((Arr.reset.planeCols 3).map (·.1)) < 3000) ∧
    ∀ s : State, s.nv.cycles = [(cycKey 0 3 0, 3000)] → 3000 ≤ s.cycles 0 3 ((Arr.reset.planeCols 3).map (·.1)) := by
  have up : ∀ (l : List Nat) (m x : Nat), x ≤ m ∨ x ∈ l → x ≤ l.foldl Nat.max m := by
    intro l
    induction l with
    | nil => exact fun m x h => h.elim id fun h => absurd h (List.not_mem_nil)
    | cons a l ih =>
      intro m x h
      refine ih _ x ?_
      rcases h with h | h
      · exact .inl (Nat.le_trans h (Nat.le_max_left m a))
      · rcases List.mem_cons.1 h with rfl | h
        · exact .inl (Nat.le_max_right m x)
        · exact .inr h
  have zero : ∀ l : List Nat, (∀ x ∈ l, x = 0) → l.foldl Nat.max 0 = 0 := by
    intro l
    induction l with
    | nil => exact fun _ => rfl
    | cons a l ih =>
      intro h
      obtain rfl := h a (by simp)
      exact ih fun x hx => h x (by simp [hx])
  constructor <;> intro s h <;> unfold State.cycles maxN <;> rw [h]
  · rw [zero _ (by intro x hx; obtain ⟨_, _, rfl⟩ := List.mem_map.1 hx; rfl)]
    decide
  · exact up _ 0 3000 (.inr (List.mem_map.2 ⟨0, List.mem_map.2 ⟨(0, 0), List.mem_append.2 (.inl
      (List.mem_map.2 ⟨0, List.mem_range.2 (by decide), rfl⟩)), rfl⟩, by decide⟩))
theorem wit_planePrograms :
    let s (x : Arr) : State := { wWith x with model.switches := [wSwitch] }
    let x : Arr := { Arr.reset with prog := some ⟨3, [], true, none, true⟩, st := .programming }
    (s .reset).model.switches.find? (fun w => w.todo.contains (0, 3)) = some wSwitch ∧ (s .reset).mayProgram 0 = true ∧
      wSwitch.atomic = true ∧ x.prog = some ⟨3, [], true, none, true⟩ ∧ x.st = .programming ∧
      (wWith x).model.switches.find? (fun w => w.todo.contains (0, 3)) = none := by decide
theorem wit_switchReports :
    let s : State := { wRun with model.switches := [wSwitch], fab.addr := some 4 }
    let w : Switch := { wSwitch with ready := false }
    s.model.switches.find? (fun v => v.model == w.model && v.gen == w.gen) = some w ∧ w.ready = false ∧ w.todo ≠ [] ∧
      ({ wSwitch with todo := [] } : Switch).todo = [] ∧ s.switchOf 7 = some wSwitch ∧ s.isPlacement wSwitch = false := by decide
theorem wit_reelFillStarts :
    let e (w : Nat) : BitVec 256 := BitVec.ofNat 256 (2 ^ 63 + w)
    let r (w pos : Nat) (o : List ReelOut) : Reel := { Reel.reset with list := [(pos, e w)], pos := pos, d := 1, active := true, out := o }
    let s (r : Reel) : State := { wRun with loft.reels := [(15, r)] }
    let o : ReelOut := ⟨0, 0, false, false, false, false⟩
    let a := r 0 1023 [o]
    (if (s a).ballast 3 = true then 1 else a.d) < (r 0 0 [o, o]).out.length ∧ ((s a).reel 15).active = true ∧
      (s a).obs.halting = false ∧ a.out.length ≤ 1 ∧ reEn (a.entry a.pos) = true ∧ rePin (a.entry a.pos) = false ∧
      reCond (a.entry a.pos) = false ∧ 1023 ≤ a.pos ∧
      (let b := r (2 ^ 60) 0 []
       let t : State := { s b with arrs := [(0, { Arr.reset with onStandin := [0] })], time.opened := true }
       reCond (b.entry b.pos) = true ∧ t.windowOf b.quantum = true ∧ reDesc (b.entry b.pos) ∈ (t.arr (reArr (b.entry b.pos))).onStandin) := by
  decide
theorem wit_reelFillCompletes :
    let e : BitVec 256 := BitVec.ofNat 256 (2 ^ 63 + 1 * 2 ^ (128 + 14) + 1 * 2 ^ (64 + 24))
    let o : ReelOut := ⟨0, 0, false, false, false, false⟩
    let r : Reel := { Reel.reset with list := [(0, e)], out := [o], active := true }
    let s : State := { wRun with loft.reels := [(0, r)] }
    r.out.find? (fun o => !o.filled) = some o ∧ s.obs.halting = false ∧ o.late = false ∧ (s.reel 0).entry o.entry = e ∧
      reUlen e = 1 ∧ reNsec e = 1 ∧ (s.reelRun 0 e [] [] 0 0 []).2.1 = none ∧ (s.reelRun 0 e [] [] 0 0 []).1.length ≠ reUlen e ∧
      (s.reelRun 0 0 [] [] (reNsec 0) 0 []).1.length = reUlen 0 := by decide
theorem wit_reelReleases :
    let m (sync arg : Nat) : Msg := mkMsg (localAddr 2 0 0) 0 3 0 false sync 0 arg []
    let e : BitVec 256 := BitVec.ofNat 256 (2 ^ 63 + 9 * 2 ^ 36)
    let o : ReelOut := ⟨1, 0, false, false, false, false⟩
    let r (l : List ReelOut) : Reel := { Reel.reset with list := [(0, e), (1, e)], out := l }
    let s (l : List ReelOut) : State := { wSt { wCore with run := .waitSync 9 4 0 } with loft.reels := [(0, r l)] }
    (m 15 0).type = 3 ∧ (m 15 0).toUnit 2 = true ∧ (s []).ready (m 15 0) = true ∧ (m 15 0).unit = 0 ∧ (m 15 1).arg % 16 ≠ 0 ∧
      16 ≤ (m 16 0).sync ∧ (m 15 32).arg % 16 = 0 ∧ (m 15 0).sync < 16 ∧ ((s []).core 0).run = .waitSync 9 4 0 ∧
      ((s [o]).reel 0).out.find? (fun x => !x.signalled && !x.late && reSync (((s [o]).reel 0).entry x.entry) == 9) = some o ∧
      ((s []).reel 0).out = [] ∧ reEn e = true ∧ rePin e = false ∧ reSync e = 9 ∧ 0 ∉ ((s []).reel 0).late ∧
      ((s []).reel 0).rest.find? (fun i => (s []).willFill (((s []).reel 0).entry i) && reSync (((s []).reel 0).entry i) == 9) = some 0 ∧
      0 ∈ ({ r [] with late := [0] } : Reel).late := by decide +kernel
theorem wit_resultsDelivered :
    let m (fmt q : Nat) : Msg := mkMsg (localAddr 3 0 0) 0 2 fmt false 0 q 0 (List.replicate 24 0)
    let s : State := { wRun with time.windowOpen := true }
    (m 3 0).type = 2 ∧ (m 3 0).toUnit 0 = false ∧ (m 3 0).remote = false ∧ s.ready (m 3 0) = true ∧
      (m 3 (s.qindex % 4)).qtag = s.qindex % 4 ∧ (m 3 ((s.qindex + 1) % 4)).qtag ≠ s.qindex % 4 ∧ (m 3 0).kind = 3 ∧
      s.time.windowOpen = true ∧ wRun.time.windowOpen = false := by decide

/-- An engine with its lasers lit, a verified configuration and tether port 0. -/
def wFab (p : Port) : State := { wRun with fab.ports := [(0, p)], fab.addr := some 5 }
def wPort (st : Link) : Port := { Port.reset with st := st }
/-- The one flit of a message of one byte from engine 1 to engine `d`. -/
def wFlit (d : Nat) : Flit := (flitsOn d 1 0 false 0 0 0 0 [1]).headD ⟨0, []⟩
theorem wit_tetherLinks :
    let n (rate : Nat) : Neighbour := ⟨1, some 6, false, true, rate, 0, false⟩
    ((wFab (wPort .training)).port_ 0).st = .training ∧ (wFab (wPort .training)).tpOn 0 = true ∧
      ((wFab (wPort .up)).port_ 0).st = .up ∧ ((wFab (wPort .negotiating)).port_ 0).st = .negotiating ∧
      ((wFab (wPort .exchanging)).port_ 0).st = .exchanging ∧
      ((n 0).cascade = (wFab (wPort .up)).isCascade ∧ (n 0).rate = (wFab (wPort .up)).time.rate ∧
        (n 0).quantum = (wFab (wPort .up)).time.quantum) ∧ (n 1).rate ≠ (wFab (wPort .up)).time.rate := by decide
theorem wit_linkStates : ((wFab (wPort .up)).port_ 0).st = .up ∧ ((wFab (wPort .up)).port_ 7).st ≠ .up := by decide
theorem wit_fabricRecords :
    let r (q : Nat) : Lsr := ⟨some 9, 77, q, [], 0, [], false⟩
    let s : State := { wFab (wPort .up) with fab.lsrs := [r 3], fab.root := some 9, fab.routes := [(9, 0)],
                                             fab.declaredAt := [(7, 0)], time.sample := 64 }
    s.isCascade = false ∧ s.tpUp 0 = true ∧ (r 4).uid ≠ s.uid ∧ s.fab.lsrs.find? (fun x => x.uid == 77) = some (r 3) ∧
      (3 < (r 4).seq) ∧ (r 3).seq ≤ 3 ∧ (∃ x ∈ s.fab.lsrs, x.uid = 77) ∧ s.rootPort = some 0 ∧
      ({ s with fab.ports := [(0, wPort .up), (1, wPort .up)] } : State).tpUp 1 = true ∧ s.rootPort ≠ some 1 ∧
      tfind s.fab.declaredAt 7 = some 0 ∧ tfind s.fab.remap 7 = none ∧ 0 + 8 ≤ s.time.sample / s.q ∧
      ({ s with time.sample := 63 } : State).time.sample / s.q < 0 + 8 := by decide
theorem wit_peerFailures :
    let s : State := { wFab (wPort .up) with cfg.remap := [BitVec.ofNat 128 (2 ^ 127 + 7 * 2 ^ 115)], fab.missed := [(7, 3)],
                                             fab.lsrs := [⟨some 7, 77, 1, [], 4, [], false⟩] }
    let h : Heartbeat := ⟨7, 0, 1, true, 4, 1, [5]⟩
    7 ∈ s.watch ∧ 3 ≤ tget 0 s.fab.missed 7 ∧ 7 ∉ s.fab.failed ∧ 7 ∈ ({ s with fab.failed := [7] } : State).fab.failed ∧
      tget 0 ({ s with fab.missed := [(7, 2)] } : State).fab.missed 7 < 3 ∧ h.sender = 7 ∧ h.notServing = true := by decide
theorem wit_fabricSends :
    let m (kind fmt : Nat) : Msg := mkMsg (remoteAddr 9 kind 1 0) 0 0 fmt false 0 0 0 [1]
    let s (k : Nat) : State := { wFab (wPort .up) with fab.routes := [(9, 0)], grid.mesh := [m k 0] }
    (m 0 0).remote = true ∧ m 0 0 ∈ (s 0).grid.mesh ∧ (s 0).ready (m 0 0) = true ∧ (s 6).ready (m 6 0) = true ∧
      (s 0).fab.conflict = false ∧ (m 6 0).kind = 6 ∧ (m 0 0).kind ≠ 6 ∧ (s 0).routeTo (m 0 0).dev = some 0 ∧
      (m 0 0).dev ≠ (s 0).dev ∧ (m 0 0).dev ∉ (s 0).fab.remapped ∧ (m 0 0).fmt ≠ 8 ∧
      ({ s 0 with fab.routes := [] } : State).routeTo 9 = none := by decide
theorem wit_flitsCarryMessages : List.replicate 241 (0 : Byte) ≠ [] ∧ (2 : Nat) < 3 ∧ 15 < 16 ∧ 255 < 256 ∧
    (flitsOn 255 4095 2 true 15 7 0 65535 (List.replicate 241 0))[1]?.isSome = true := by decide +kernel
theorem wit_flitsReceived :
    let s : State := { wFab (wPort .up) with fab.routes := [(9, 0)] }
    let c : Flit := ⟨BitVec.ofNat 128 (let h := 5 * 2 ^ 116 + 1 * 2 ^ 100 + 240 * 2 ^ 32; h + hcrc h), []⟩
    s.tpUp 0 = true ∧ (⟨1, []⟩ : Flit).sound = false ∧ (wFlit 5).sound = true ∧ (wFlit 5).ftype = 0 ∧ (wFlit 5).mc = false ∧
      (wFlit 5).dst = s.dev ∧ (wFlit 9).dst ≠ s.dev ∧ s.routeTo (wFlit 9).dst = some 0 ∧ s.fab.conflict = false ∧
      c.ftype = 1 ∧ c.dst = s.dev ∧ c.ctrlSound = false := by decide +kernel
theorem wit_reassembly :
    let f (n i : Nat) : Flit := nth ⟨0, []⟩ (flitsOn 5 1 0 false 0 0 0 65535 (List.replicate n 0)) i
    let k := streamNo (f 1 0).src (f 1 0).mc (f 1 0).dst (f 1 0).stream
    let s (r : Tab Reasm) : State := { wRun with fab.rxSeq := [(k, 0)], fab.reasm := r }
    tfind State.reset.fab.rxSeq k = none ∧ (f 1 0).first = true ∧ (f 1 0).last = true ∧ (f 241 0).first = true ∧
      (f 241 0).last = false ∧ tfind (s []).fab.reasm k = none ∧ (f 241 1).seq = 0 ∧ (f 241 1).first = false ∧ (f 241 1).last = true ∧
      (f 481 1).last = false ∧ tfind (s [(k, ⟨[1], 0, true⟩)]).fab.reasm k = some ⟨[1], 0, true⟩ := by decide +kernel
theorem wit_multicastAndBulk :
    (255 : Nat) < 256 ∧ 127 < 128 ∧ (tget Bulk.reset wRun.fab.bulk 127).failed = false ∧
      (∃ x ∈ [3], 4 ≤ tget 0 [(3, 4)] x) ∧ (∀ x ∈ [3], tget 0 [(3, 3)] x < 4) ∧ [3].Nodup := by decide
/-- An engine with its host link up, and with the command and completion rings enabled and one command waiting. -/
def wHost : State := { wRun with host.up := true }
def wRings : State := { wHost with host.sq.en := true, host.cq.en := true, host.sq.tail := 1 }
/-- The 64 bytes of a command: its word 0, and a word at byte 56. -/
def wCmdBytes (w0 x : Nat) : List Byte :=
  let b := leBytes 8 w0 ++ List.replicate 48 0 ++ leBytes 4 x
  b ++ leBytes 4 (crc32c b)
theorem wit_hostLink : wRun.port.lit = true ∧ nth false wRun.port.dark 0 = false ∧ 32 ∈ [8, 16, 32] ∧ 4 ∈ [1, 2, 4] ∧
    wHost.host.up = true ∧ ({ wHost with host.d3 := true } : State).host.d3 = true ∧ wRun.model.install = none := by decide
theorem wit_doorbells : wRings.host.up = true ∧ wRings.host.d3 = false ∧ wRings.host.sq.en = true ∧
    fld (15 : DWord) 15 0 < 2 ^ wRings.host.sq.log2n ∧ 2 ^ wRings.host.sq.log2n ≤ fld (16 : DWord) 15 0 ∧
    wRun.host.up = false := by decide
theorem wit_ringRegisters : wHost.host.up = true ∧ wHost.host.d3 = false ∧
    (let v (n : Nat) : DWord := BitVec.ofNat 64 (2 ^ 63 + n)
     flag (v 4) 63 = true ∧ fld (v 3) 3 0 < 4 ∧ 12 < fld (v 13) 3 0) := by decide
theorem wit_hostRegisters : wHost.host.up = true ∧ wHost.host.d3 = false ∧ 0xF0000 ≤ 0xF01F8 ∧ 0xF01F8 < 0xF0200 ∧
    0xF01F8 % 8 = 0 ∧ (List.replicate 32 (0 : Byte)).length = 32 ∧
    (let e : EvRec := ⟨2 ^ 64 - 1, 0, List.replicate 16 0⟩
     (leBytes 8 e.ts ++ leBytes 8 e.word ++ e.payload).length = 32 ∧ e.ts < 2 ^ 64 ∧ e.word < 2 ^ 64) := by decide
theorem wit_commandChecks :
    let c (w0 : Nat) : Cmd := cmdOf .host (wCmdBytes w0 0) [] true true
    wRings.dmaOn = true ∧ wRings.host.sq.en = true ∧ wRings.host.cq.en = true ∧ wRings.host.sq.head ≠ wRings.host.sq.tail ∧
      wRings.takes = true ∧ (wCmdBytes 0 0).length = 64 ∧
      wRings.host.owed + wRings.host.held.length + 1 ≤ wRings.host.cq.room ∧
      ({ wRings with host.cq.tail := 15 } : State).host.cq.room < 1 ∧
      crc32c ((List.replicate 64 (0 : Byte)).take 60) ≠ leAt (List.replicate 64 0) 60 4 ∧
      crc32c ((wCmdBytes 0 1).take 60) = leAt (wCmdBytes 0 1) 60 4 ∧ leAt (wCmdBytes 0 1) 56 4 ≠ 0 ∧ leAt (wCmdBytes 0 0) 56 4 = 0 ∧
      wRings.checkCmd (c 0) = some 2 ∧ wRings.checkCmd (c (1 * 2 ^ 56)) = none ∧ (c (1 * 2 ^ 56)).fwd = false ∧
      (c (1 * 2 ^ 56 + 2 ^ 19)).fwd = true ∧ (c 0).src = .host ∧ (c 0).dmaOk = true := by decide +kernel
theorem wit_commandChecks_forwarded :
    let s : State := { wRings with host.neg := 0x23 }
    let c (w0 : Nat) : Cmd := cmdOf .host (wCmdBytes w0 0) [] true true
    s.checkCmd (c (0x42 * 2 ^ 56 + 2 ^ 19)) = none := by decide +kernel
theorem wit_forwardedCommands :
    let f : FwdSt := ⟨7, 9, false, 0, 16⟩
    ({ wHost with host.fwd := [f] } : State).host.fwd.find? (fun f => f.tag == 7) = some f ∧
      ([] : List Byte).length ≤ f.total ∧ (∀ f ∈ wHost.host.fwd, f.tag ≠ 7) := by decide
theorem wit_completions :
    let c : Cpl := ⟨.host, 65535, 0, 0, 0, 0, false, 0, []⟩
    c.dst = .host ∧ c.kind = 0 ∧ c.data = [] ∧ c.irq = false ∧ c.status ≠ 1 ∧ wRun.dmaOn = false ∧ wHost.dmaOn = true ∧
      wHost.host.cq.en = false ∧ wRings.host.cq.en = true ∧
      ({ wRings with host.cq.tail := 15 } : State).host.cq.tail + 1 = 2 ^ wRings.host.cq.log2n := by decide

/-- A word of a configuration record without sections, sequence 1, whose header states `n` of them; its CRC for 0 and for 13. -/
def wWord (n i : Nat) : DWord :=
  let c := if n = 0 then 423517069 else 4051313492
  let h := 0x4643464A + 2 * 2 ^ 32 + 1 * 2 ^ 64 + 4096 * 2 ^ 96 + c * 2 ^ 128 + n * 2 ^ 160
  if i < 3 then BitVec.ofNat 64 (h / 2 ^ (64 * i)) else 0
def wRecord (n : Nat) : List Byte :=
  ((List.range 8).flatMap fun i => leBytes 8 (wWord n i).toNat) ++ List.replicate 4032 0
theorem wRecord_words (n : Nat) : ((List.range 512).flatMap fun i => leBytes 8 (wWord n i).toNat) = wRecord n := by
  have rest : ∀ m k, 3 ≤ k →
      ((List.range' k m).flatMap fun i => leBytes 8 (wWord n i).toNat) = List.replicate (8 * m) 0 := by
    intro m
    induction m with
    | zero => intro k _; rfl
    | succ m ih =>
      intro k h
      have h0 : leBytes 8 (wWord n k).toNat = List.replicate 8 0 := by
        rw [show wWord n k = 0 from if_neg (by omega)]
        decide
      rw [List.range'_succ, List.flatMap_cons, ih (k + 1) (by omega), h0, List.replicate_append_replicate]
      congr 1
      omega
  have h := List.range'_append_1 (s := 0) (m := 8) (n := 504)
  rw [List.range_eq_range', ← h, List.flatMap_append, rest 504 (0 + 8) (by decide), ← List.range_eq_range']
  rfl
/-- An engine whose configuration slot 0 holds that record. -/
def wSlot (n : Nat) : State :=
  { wRun with nv.sectors := [(0, { Sector.reset with words := (List.range' 0 512).map fun i => (i, wWord n i) })],
              store.map := [(0, ⟨0, .written, false⟩)] }
theorem wSlot_words (f : Nat → DWord) (j : Nat) : ∀ n k, k ≤ j → j < k + n →
    tfind ((List.range' k n).map fun i => (i, f i)) j = some (f j) := by
  intro n
  induction n with
  | zero => intro k _ _; omega
  | succ n ih =>
    intro k h1 h2
    rw [List.range'_succ, List.map_cons, tfind]
    split
    · next h => rw [h]
    · exact ih (k + 1) (by omega) (by omega)
theorem wSlot_record (n : Nat) (h : hdLenOk (leAt (wRecord n) 0 32) = true)
    (h1 : cdiv (hdLength (leAt (wRecord n) 0 32)) 4096 = 1) : (wSlot n).slotRecord 0 = (wRecord n, false) := by
  have hb : (wSlot n).sectorBytes (128 * 0) = wRecord n := by
    show ((wSlot n).sector 0).bytes = _
    rw [← wRecord_words]
    unfold Sector.bytes
    rw [List.flatMap_def, List.flatMap_def]
    refine congrArg List.flatten (List.map_congr_left fun i hi => ?_)
    have h : Sector.word ((wSlot n).sector 0) i = wWord n i := by
      show (tfind ((List.range' 0 512).map fun i => (i, wWord n i)) i).getD ones64 = _
      rw [wSlot_words (wWord n) i 512 0 (Nat.zero_le i) (by simpa using hi)]
      rfl
    rw [h]
  have hl : (List.range 1).map (128 * 0 + ·) = [128 * 0] := rfl
  unfold State.slotRecord
  simp only [hb, h, h1, if_true, hl, List.flatMap_cons, List.flatMap_nil, List.append_nil]
  rfl
theorem slot_chosen (s : State) (l : List Byte) (r : s.slotRecord 0 = (l, false)) (h : s.headerOk l = true)
    (h1 : s.slotValid 1 = false) (h2 : s.slotSeq 0 = 1) (h3 : s.slotSeq 1 = 0) : s.selectSlot = some (0, false) := by
  have h0 : s.slotValid 0 = true := by simp only [State.slotValid, r, h, Bool.not_false, Bool.and_self]
  simp only [State.selectSlot, h0, h1, h2, h3]
  rfl
theorem wSlot_record_0 : (wSlot 0).slotRecord 0 = (wRecord 0, false) := wSlot_record 0 (by decide +kernel) (by decide +kernel)
theorem wSlot_record_13 : (wSlot 13).slotRecord 0 = (wRecord 13, false) := wSlot_record 13 (by decide +kernel) (by decide +kernel)
theorem wit_configRecord : (wSlot 0).selectSlot = some (0, false) ∧ ∃ c, checkRecord 0 ((wSlot 0).slotRecord 0).1 = .ok c := by
  refine ⟨slot_chosen _ _ wSlot_record_0 (by decide +kernel) (by decide +kernel) (by decide +kernel) (by decide +kernel), ?_⟩
  rw [wSlot_record_0]
  have h : (match checkRecord 0 (wRecord 0) with | .ok _ => true | .error _ => false) = true := by decide +kernel
  revert h
  cases checkRecord 0 (wRecord 0) with
  | ok c => exact fun _ => ⟨c, rfl⟩
  | error e => exact fun h => Bool.noConfusion h
/-- A record whose header states 13 sections is refused (R403). -/
theorem wit_configRecord_refused : (wSlot 13).selectSlot = some (0, false) ∧
    ∃ e, checkRecord 0 ((wSlot 13).slotRecord 0).1 = .error e := by
  refine ⟨slot_chosen _ _ wSlot_record_13 (by decide +kernel) (by decide +kernel) (by decide +kernel) (by decide +kernel), ?_⟩
  rw [wSlot_record_13]
  have h : (match checkRecord 0 (wRecord 13) with | .ok _ => false | .error _ => true) = true := by decide +kernel
  revert h
  cases checkRecord 0 (wRecord 13) with
  | ok c => exact fun h => Bool.noConfusion h
  | error e => exact fun _ => ⟨e, rfl⟩

/-- A command of the host with opcode `op` and parameter 1 `p`, accepted as the only one. -/
def wCmd (op p : Nat) : Cmd := ⟨.host, BitVec.ofNat 64 (op * 2 ^ 56), BitVec.ofNat 64 p, 0, 0, 0, 0, 0, [], true, true⟩
def wTurn (c : Cmd) : State := { wHost with host.accepted := [c] }
/-- A directory entry of model 7, generation 1, in place `x`. -/
def wEnt (st : Nat) (active : Bool) : DirEnt := ⟨7, 1, st, active, false, none, false, false, 1, 0, 0, none, [], [], [], []⟩
def wDir (c : Cmd) (e : DirEnt) : State := { wTurn c with nv.dir := [(5, e)] }
theorem wit_romOrder :
    let c := wCmd 0x02 0
    let f : Cmd := { c with w0 := BitVec.ofNat 64 (2 * 2 ^ 56 + 2 ^ 55) }
    (0x02, Instr.identify) ∈ romCommands ∧ c.opcode = 2 ∧ c.fwd = false ∧ (wTurn c).host.accepted.head? = some c ∧ wCmd 1 0 ≠ c ∧
      ({ wTurn f with host.long := [c] } : State).fenced f ∧ ¬ (wTurn c).fenced c ∧ ({ c with dmaOk := false } : Cmd).dmaOk = false ∧
      wHost.host.accepted = [] ∧ wHost.takes = true ∧ State.reset.takes = false ∧ wHost.checkCmd (wCmd 0xFF 0) = some 2 := by
  refine ⟨List.mem_cons_of_mem _ (List.mem_cons_self ..), ?_⟩
  unfold State.fenced; decide
theorem wit_romReads :
    let n (a b : Nat) := wCmd 0x01 (a * 256 + b)
    let p : Cmd := { n 0x12 0x21 with src := .peer 9 }
    (wTurn (n 0x13 0x1F)).turn 1 (n 0x13 0x1F) ∧ (wTurn (n 0x12 0x21)).turn 1 (n 0x12 0x21) ∧
      ({ wTurn p with host.accepted := [p] } : State).turn 1 p ∧
      (∀ v ∈ [0x12, 0x20, 0x21, 0x22, 0x23], ¬ (0x13 ≤ v ∧ v ≤ 0x1F)) ∧
      (∀ w ∈ [0x12, 0x20, 0x21, 0x22, 0x23], w ≤ 0x21 → w ≤ 0x21) ∧
      (∀ op ∈ [0x02, 0x52, 0x32, 0x53, 0x21], (wTurn (wCmd op 0)).turn op (wCmd op 0)) := by
  unfold State.turn State.fenced; decide
theorem wit_romRunState :
    let c := wCmd 0x10
    (∀ op ∈ [0x10, 0x11, 0x42, 0x43, 0x70], (wTurn (wCmd op 2)).turn op (wCmd op 2)) ∧
      ((wTurn (c 2)).begun (c 2)).run.st = .run ∧ ((wTurn (c 4)).begun (c 4)).run.st ≠ .shutdown ∧
      (let m (ok pl : Bool) : State := { wTurn (c 2) with run.st := .maintenance, run.cfgOk := ok, run.placeOk := pl }
       ((m false false).begun (c 2)).run.cfgOk = false ∧ ((m true false).begun (c 2)).run.placeOk = false ∧
         ((m true true).begun (c 2)).run.placeOk = true) ∧
      (let h : State := { wTurn (wCmd 0x42 0) with obs.haltAt := some 0 }
       (h.begun (wCmd 0x42 0)).obs.haltAt ≠ none ∧ ((wTurn (wCmd 0x42 0)).begun (wCmd 0x42 0)).obs.haltAt = none ∧
         ((wTurn (wCmd 0x42 0)).begun (wCmd 0x42 0)).obs.halting = false) ∧
      (let r : State := { wTurn (wCmd 0x70 7) with fab.remapped := [7] }
       fld (wCmd 0x70 7).p1 11 0 ∈ (r.begun (wCmd 0x70 7)).fab.remapped ∧
         fld (wCmd 0x70 7).p1 11 0 ∉ ((wTurn (wCmd 0x70 7)).begun (wCmd 0x70 7)).fab.remapped) := by
  unfold State.turn State.fenced; decide
theorem wit_placement :
    let c := wCmd 0x10 2
    let s (b : Bool) : State := State.begun { wTurn c with run.st := .maintenance, fab.conflict := b } c
    ((s false).tryPlacement false).1 = true ∧ ((s true).tryPlacement false).1 = false ∧ (s false).placementOk = true := by
  decide +kernel

theorem wit_romConfiguration :
    let c : Cmd := { wCmd 0x20 0 with data := wRecord 0 }
    (wTurn c).turn 0x20 c ∧ (wTurn (wCmd 0x62 1)).turn 0x62 (wCmd 0x62 1) ∧
      hdSeq (leAt c.data 0 32) ≤ ({ wTurn c with cfg.seq := 1 } : State).cfg.seq ∧ ((wTurn c).begun c).run.selected = false ∧
      ((wTurn c).begun c).headerOk c.data = true ∧ ((wTurn c).begun c).headerOk [] = false ∧
      ({ wTurn c with store.protect := [(127, 1)] } : State).protected_ 127 = true ∧
      (({ wTurn c with store.map := [(127, ⟨127, .retired, false⟩)] } : State).ent 127).st = .retired := by
  refine ⟨⟨rfl, rfl, rfl, rfl, fun h => absurd h.1 (by decide)⟩, by unfold State.turn State.fenced; decide, ?_⟩
  decide +kernel
theorem wit_romConfiguration_free : wHost.store.protect = [] ∧ (∀ l ∈ List.range 128, (wHost.ent l).st ≠ .retired) := by
  decide +kernel
theorem wit_romModels :
    let i : Install := ⟨wCmd 0x30 0, 5, 0, 0, 1, 7⟩
    let e : DirEnt := { wEnt 0 true with layers := [] }
    let t (op : Nat) := wTurn (wCmd op (7 * 2 ^ 32 + 1 * 2 ^ 16))
    let u (op st : Nat) (a : Bool) : State := (wDir (wCmd op (7 * 2 ^ 32 + 1 * 2 ^ 16)) (wEnt st a)).begun (wCmd op (7 * 2 ^ 32 + 1 * 2 ^ 16))
    (∀ op ∈ [0x30, 0x31, 0x33, 0x34, 0x40], (wTurn (wCmd op 5)).turn op (wCmd op 5)) ∧
      ({ wRun with model.install := some i } : State).installPaused i = false ∧ e.active = true ∧
      (t 0x31).entOf 7 1 = none ∧ (u 0x31 0 true).entOf 7 1 = some (5, wEnt 0 true) ∧ (u 0x31 5 false).entOf 7 1 = some (5, wEnt 5 false) ∧
      (wEnt 0 true).st ∉ [1, 5, 6] ∧ (wEnt 5 false).st ∈ [1, 5, 6] ∧ (u 0x31 0 true).dirEnt 5 = some (wEnt 0 true) ∧
      (wEnt 0 false).active = false ∧
      ({ u 0x31 0 false with model.switches := [{ wSwitch with cmd := some (wCmd 0x31 0) }] } : State).switchOf 7 =
        some { wSwitch with cmd := some (wCmd 0x31 0) } ∧
      (u 0x33 0 false).hasPending (wEnt 0 false) = false ∧ (wEnt 1 false).st = 1 ∧ (u 0x33 0 false).protEnt (wEnt 0 false) = none ∧
      ({ u 0x33 0 false with store.protect := [(9, 1)] } : State).protEnt { wEnt 0 false with first := some 9 } = some 9 ∧
      bitsSet 48 (wCmd 0x40 5).p1.toNat = [0, 2] ∧ bitsSet 48 (wCmd 0x40 0).p1.toNat = [] ∧ (wRun.arr 0).st ≠ .failed ∧
      ((wWith { Arr.reset with st := .failed }).arr 0).st = .failed := by
  unfold State.turn State.fenced; decide
theorem wit_installPaused :
    let y : LayerRef := ⟨[], [], [100000], 0⟩
    let i : Install := ⟨wCmd 0x30 0, 5, 0, 0, 1, 7⟩
    ({ wRun with nv.dir := [(5, { wEnt 0 true with layers := [y] })], test.cur := some (5 * 256), model.install := some i } : State).installPaused i
      = true := by decide
theorem wit_countersAndRipcord :
    let c (clear : Nat) : Cmd := { wCmd 0x50 0 with p3 := BitVec.ofNat 64 (4607 * 2 ^ 32 + 1 * 2 ^ 16 + clear) }
    let snap (clear : Nat) : Cmd := { wCmd 0x50 0 with p3 := BitVec.ofNat 64 ((2 ^ 31 + 7) * 2 ^ 32 + 1 * 2 ^ 16 + clear) }
    let s : State := { wRun with obs.armed := some (packTs 65 0) }
    (wTurn (c 0)).turn 0x50 (c 0) ∧ (wTurn (c 1)).turn 0x50 (c 1) ∧ (wTurn (wCmd 0x51 0)).turn 0x51 (wCmd 0x51 0) ∧
      (wTurn (snap 1)).turn 0x50 (snap 1) ∧ fld (snap 1).p3 63 32 + 0 = 2 ^ 31 + 7 ∧ fld (snap 1).p3 31 16 = 1 ∧ wRun.obs.snapN = none ∧
      4607 + 0 < 4608 ∧ timed 4607 = false ∧ (c 0).p3.getLsbD 0 = false ∧ (c 1).p3.getLsbD 0 = true ∧ wRun.obs.armed = none ∧
      s.obs.armed = some (packTs 65 0) ∧ s.reaches (packTs 65 0) = true ∧ s.reaches (packTs 4096 0) = false ∧ 0 < wRun.tstamp ∧
      ({ wRun with obs.captureOff := true } : State).obs.copying = [] ∧ wRun.obs.captureOff = false := by
  unfold State.turn State.fenced; decide
theorem wit_debugHalts :
    let s : State := { wRun with obs.haltAt := some (packTs 65 0), obs.halting := true }
    wRun.obs.haltAt = none ∧ s.obs.haltAt = some (packTs 65 0) ∧ s.reaches (packTs 65 0) = true ∧
      ({ s with time.counting := false } : State).reaches (packTs 65 0) = false ∧ s.obs.halting = true ∧ s.obs.halted = false ∧
      s.grid.mesh = [] ∧ s.cores = [] ∧ wRun.obs.halting = false := by decide
/-- An engine in life-cycle state `lc`, its first transition slot written unless that is BLANK, with entropy. -/
def wLife (lc : Nat) : State :=
  if lc = 0 then { wHost with sec.entropyOk := true }
  else { wHost with nv.otp := [(0x20, BitVec.ofNat 64 (lc * 2 ^ 61))], nv.otpDone := [0x20, 0x21], sec.entropyOk := true }
/-- A token of the vendor, unsigned. -/
def wTok (kind target slot seq : Nat) (body : List Byte) : List Byte :=
  leBytes 8 (0x544C464A + 2 ^ 32 + kind * 2 ^ 40 + target * 2 ^ 44) ++ leBytes 8 0 ++ leBytes 8 (slot + body.length * 2 ^ 32)
    ++ leBytes 8 seq ++ List.replicate 32 0 ++ body ++ List.replicate 512 0
/-- Where the vendor's signature verifies, a token that passes the other checks is admitted. -/
theorem token_admitted (s : State) (t : List Byte) (l : List BodyKey) (m : Nat)
    (h1 : tkHeaderOk t = true ∧ leAt t 8 8 = s.uid ∧ ¬ (tkKind t = 0 ∧ bf (leAt t 16 8) 7 0 ≠ s.slotsUsed) ∧
      ¬ (tkKind t = 1 ∧ bf (leAt t 24 8) 31 0 ≤ s.nv.keys.seq))
    (h2 : s.signers t = some m ∧ m.testBit (tkSigner t) = true ∧ tkSigner t = 0 ∧ bodyKeys 64 (tkBody t) = some l)
    (h3 : s.bodyOk t l = true ∧ ¬ (tkKind t = 0 ∧ tkTarget t = 1 ∧ s.keyWords = 2) ∧ s.sec.entropyOk = true)
    (h : Config.rsaPss Config.vendorKey (t.take (t.length - 512)) (t.drop (t.length - 512)) = true) :
    s.checkToken t = .ok l := by
  obtain ⟨a1, a2, a3, a4⟩ := h1
  obtain ⟨b1, b2, b3, b4⟩ := h2
  obtain ⟨c1, c2, c3⟩ := h3
  have d : s.signKey t (some l) = some Config.vendorKey := by simp only [State.signKey, b3, if_true]
  simp only [State.checkToken, a1, b1, b2, b4, d, h, c1, c3, Bool.not_true, Bool.and_false, Bool.false_eq_true, if_false]
  rw [if_neg (by simpa using a2), if_neg a3, if_neg a4, if_neg c2]
/-- A token for each clause: refused for its header; key lists; each target, and FIELD from PROVISIONED with an owner's key. -/
theorem wit_tokens (h : ∀ m g, Config.rsaPss Config.vendorKey m g = true) :
    (wTurn (wCmd 0x61 0)).turn 0x61 (wCmd 0x61 0) ∧ wHost.checkToken [] = .error 1 ∧
    (wLife 3).checkToken (wTok 1 0 0 1 []) = .ok [] ∧ (wLife 0).checkToken (wTok 0 1 0 0 []) = .ok [] ∧
    (wLife 0).keyWords ≠ 1 ∧ (wLife 3).checkToken (wTok 0 2 1 0 []) = .ok [] ∧ (wLife 3).lc ≠ 1 ∧
    (wLife 2).checkToken (wTok 0 3 1 0 []) = .ok [] ∧ (wLife 0).checkToken (wTok 0 4 0 0 []) = .ok [] ∧ (wLife 1).lc = 1 := by
  refine ⟨by unfold State.turn State.fenced; decide, by rfl, ?_, ?_, by decide +kernel, ?_, by decide +kernel, ?_, ?_, by decide +kernel⟩
  · exact token_admitted _ _ _ 3 (by decide +kernel) (by decide +kernel) (by decide +kernel) (h _ _)
  · exact token_admitted _ _ _ 1 (by decide +kernel) (by decide +kernel) (by decide +kernel) (h _ _)
  · exact token_admitted _ _ _ 3 (by decide +kernel) (by decide +kernel) (by decide +kernel) (h _ _)
  · exact token_admitted _ _ _ 3 (by decide +kernel) (by decide +kernel) (by decide +kernel) (h _ _)
  · exact token_admitted _ _ _ 1 (by decide +kernel) (by decide +kernel) (by decide +kernel) (h _ _)
/-- From PROVISIONED to FIELD with one owner entry; and BLANK with both keys already in the OTP row. -/
theorem wit_tokens_keys (h : ∀ m g, Config.rsaPss Config.vendorKey m g = true) :
    let e : List Byte := leBytes 8 (13 * 2 ^ 60) ++ List.replicate 512 0
    let s : State := { wLife 0 with nv.otpDone := (List.range 64).map (0x160 + ·) ++ (List.range 164).map (0xA0 + ·) }
    (wLife 1).checkToken (wTok 0 2 1 0 e) = .ok [⟨e, []⟩] ∧ s.checkToken (wTok 0 1 0 0 []) = .ok [] ∧ s.keyWords = 1 := by
  intro e s
  have k : s.keyWords = 1 := by decide +kernel
  refine ⟨?_, ?_, k⟩
  · exact token_admitted _ _ _ 1 (by decide +kernel) (by decide +kernel) (by decide +kernel) (h _ _)
  · exact token_admitted _ _ _ 1 (by decide +kernel) (by decide +kernel) ⟨rfl, by rw [k]; decide, rfl⟩ (h _ _)
theorem wit_lifeCycleFollowsSlots :
    (wLife 1).slotsUsed < 64 ∧ (∀ i < 64, (wLife 1).otpDone (0x100 + 16 * i) = decide (i < (wLife 1).slotsUsed) ∧
      (wLife 1).otpDone (0x108 + 16 * i) = decide (i < (wLife 1).slotsUsed)) ∧ tkTarget (wTok 0 2 1 0 []) < 5 ∧
      tkSigner (wTok 0 2 1 0 []) < 2 := by decide +kernel
theorem wit_keysAndAttestation :
    let c := wCmd 0x60 0
    let s : State := { wHost with sec.lcCmd := some c, sec.keygen := true }
    (wTurn c).turn 0x60 c ∧ ((wTurn c).begun c).lc = 0 ∧ (wLife 1).lc ≠ 0 ∧ wHost.sec.lcCmd = none ∧ s.sec.lcCmd = some c ∧
      (List.replicate 1824 (0 : Byte)).length = 1824 ∧ keysMatch (List.replicate 512 0) (List.replicate 1312 0) = true ∧
      keysMatch (1 :: List.replicate 511 0) (List.replicate 1312 0) = false := by
  unfold State.turn State.fenced; decide +kernel

theorem wit_selfTestSlices :
    let t (k : Nat) (cur : Option Nat) : State := { wRun with test.kind := k, test.cur := cur }
    let sh : State := { wRun with run.st := .shutdown, run.shut := 2 }
    wRun.test.kind = 0 ∧ (t 1 (some 5)).test.kind = 1 ∧ wRun.test.cur = none ∧ (t 1 (some 5)).test.cur = some 5 ∧
      (wTurn (wCmd 0x41 0)).turn 0x41 (wCmd 0x41 0) ∧ sh.run.st = .shutdown ∧ sh.run.shut = 2 ∧
      (∀ c ∈ sh.host.long, c.opcode ≠ 0x20) ∧ (∃ c ∈ ({ sh with host.long := [wCmd 0x20 0] } : State).host.long, c.opcode = 0x20) ∧
      (let r : State := { wRun with run.inRecovery := true, cfg.policy := BitVec.ofNat 64 (2 ^ 60) }
       r.run.inRecovery = true ∧ flag r.cfg.policy 60 = true) ∧ flag wRun.cfg.policy 60 = false := by
  unfold State.turn State.fenced; decide
theorem wit_healthAndLasers :
    let f : State := wWith { Arr.reset with st := .failed }
    let d : State := { wRun with port.dark := [true, false, false, false], port.retry := [false, false, false, true] }
    (3 < 4 ∧ 15 < 16 ∧ 255 < 256 ∧ 2 ^ 32 - 1 < 2 ^ 32 ∧ 2 ^ 16 - 1 < 2 ^ 16) ∧ (f.arr 0).st = .failed ∧
      heState (f.hEntry 64) ≠ 2 ∧ (f.arr 47).st ≠ .failed ∧
      heState (({ f with nv.health.blocks := [(64, BitVec.ofNat 64 (2 * 2 ^ 62))] } : State).hEntry 64) = 2 ∧ wRun.port.lit = true ∧
      nth false d.port.dark 3 = false ∧ nth false d.port.dark 0 = true ∧ State.reset.port.lit = false ∧
      nth false d.port.retry 3 = true ∧ nth false d.port.retry 0 = false ∧ d.port.dead.length = 4 ∧ d.port.retry.length = 4 := by decide
theorem wit_bootBegins :
    let b : State := { State.reset with run.st := .boot, run.step := 1 }
    State.reset.run.st = .off ∧ wRun.run.st ≠ .off ∧ (6 : Nat) < 7 ∧ wRun.store.banks = [] ∧ b.run.st = .boot ∧ b.run.step ≤ 1 ∧
      b.run.dark = false ∧ ({ b with run.dark := true } : State).run.dark = true := by decide
theorem wit_bootSteps :
    (wLife 1).lc = 1 ∧ (wLife 4).lc = 4 ∧ (wLife 0).lc = 0 ∧ (wLife 3).lc = 3 ∧ ({ wRun with run.warm := true } : State).run.warm = true ∧
      wRun.run.warm = false ∧ (600 ≤ 800 ∧ 800 ≤ 800 ∧ 800 % 10 = 0) ∧ wRun.selectSlot = none ∧
      ({ wLife 1 with sec.entropyOk := true } : State).lc = 1 ∧
      ({ wLife 1 with sec.entropyOk := true } : State).keyTaken.isNone = true := by decide +kernel
/-- The layout of R459: the magic, and the entry of block 64 at byte 576. -/
theorem test_healthRecord :
    let b := healthBytes ⟨true, true, 41, 0, [(64, BitVec.ofNat 64 (2 ^ 63))]⟩
    leAt b 0 8 = 0x5248464A + 2 ^ 32 + 2 ^ 40 ∧ leAt b 8 8 = 41 ∧ leAt b 576 8 = 2 ^ 63 := by decide +kernel
/-- The layout of R438: the magic with one endorsed entry, and that entry at byte 680. -/
theorem test_keyRecord :
    let b := keyBody ⟨true, 7, [], [], [5 :: List.replicate 519 0], []⟩
    leAt b 0 8 = 0x524B464A + 2 ^ 32 ∧ leAt b 8 8 = 7 ∧ leAt b 680 1 = 5 := by decide +kernel
theorem wit_bootEnds :
    let b (st : Nat) (w : Nat) (q : List Nat) : State :=
      { State.reset with run.st := .boot, run.step := st, run.cfgOk := true, cfg.clocking := BitVec.ofNat 192 w, time.qual := q }
    let u (s : State) : State := (List.range 48).foldl State.loadArr { s with run.step := 11, run.s10 := true }
    let n : State := { b 11 0 [] with run.s10 := true }
    (b 8 0 []).run.st = .boot ∧ (b 8 0 []).run.step = 8 ∧ ({ b 8 0 [] with run.cfgOk := false } : State).run.cfgOk = false ∧
      (u (b 8 (2 ^ 41) [1])).bestSrc = some 1 ∧ (u (b 8 (2 ^ 41) [])).bestSrc = none ∧ (u (b 8 (2 ^ 41) [])).sources ≠ [] ∧
      (u (b 8 0 [])).sources = [] ∧ n.run.s10 = true ∧ n.run.s11 = false ∧ (n.takeAddress.tryPlacement true).1 = true ∧
      (({ n with fab.tooLong := true } : State).takeAddress.tryPlacement true).1 = false ∧
      ({ wRun with run.resetting := some (wCmd 0x11 0) } : State).run.resetting ≠ none ∧ wRun.run.resetting = none := by decide +kernel
/-- An engine whose supplies are good, at VCORE 700 mV, in stretch state `k`. -/
def wSup (k : Nat) : State := { wRun with sup.good := true, run.step := 12, sup.vref := 700, sup.stretch := k }
theorem wit_supplyAndStretch :
    (wSup 0).sup.good = true ∧ State.reset.sup.good = false ∧
      (2 < (wSup 0).run.step ∧ (wSup 0).sup.vnext = none ∧ 600 ≤ 710 ∧ 710 ≤ 800 ∧ 710 = (wSup 0).sup.vref + 10) ∧
      (690 + 10 = (wSup 0).sup.vref) ∧ ({ wSup 0 with sup.vnext := some 710 } : State).sup.vnext = some 710 ∧
      (wSup 1).sup.stretch = 1 ∧ (wSup 2).sup.stretch = 2 ∧ (wSup 3).sup.stretch = 3 ∧
      ({ wSup 1 with time.windowOpen := true } : State).time.windowOpen = true ∧ (wSup 1).time.windowOpen = false := by decide
/-- The same with stages 1 and 8 enabled: entry levels 40 and 90, and demands `d`. -/
def wBal (d : Nat) : State :=
  let w (v : Nat) : DWord := BitVec.ofNat 64 (2 ^ 63 + v * 2 ^ 53 + 1 * 2 ^ 45)
  { wSup 0 with cfg.stages := [w 40, 0, 0, 0, 0, 0, 0, w 90], sup.sag := d, sup.tempD := d, sup.power := d, sup.stage := d }
theorem wit_ballastOrder :
    max (wBal 1).sup.sag (max (wBal 1).sup.tempD (wBal 1).sup.power) = (wBal 1).sup.stage ∧ (wBal 0).stageUp 0 = some 1 ∧
      (wBal 1).stageUp 1 = some 8 ∧ (wBal 8).stageUp 8 = none ∧ sgEn ((wBal 0).stageWord 2) = false ∧ (wBal 0).sup.good = true ∧
      39 < sgVEnter ((wBal 0).stageWord 1) ∧ sgVEnter ((wBal 0).stageWord 1) ≤ 40 ∧ (wBal 0).sup.sag = 0 ∧ (wBal 8).sup.sag ≠ 0 ∧
      5800 < 5801 ∧ (wBal 0).sup.low < 9 ∧ 9 ≤ ({ wBal 8 with sup.low := 9 } : State).sup.low ∧
      ({ wBal 8 with sup.low := 9 } : State).sup.power ≠ 0 := by decide
theorem wit_ballastOrder_die :
    let up (s : State) (t : Int) := (s.stageUp s.sup.tempD).filter fun k => decide (theta - 16 * (sgTEnter (s.stageWord k) : Int) ≤ t)
    let low (t : Int) : Prop :=
      t ≤ theta - 16 * (sgTEnter ((wBal 8).stageWord 8) : Int) - 16 * (sgTHyst ((wBal 8).stageWord 8) : Int)
    up (wBal 0) theta = some 1 ∧ up (wBal 8) (theta - 100000) = none ∧ low (theta - 100000) ∧ ¬ low (theta + 1) ∧
      up (wBal 8) (theta + 1) = none ∧ (wBal 8).sup.tempD ≠ 0 := by
  have h0 : (wBal 0).stageUp (wBal 0).sup.tempD = some 1 := by decide
  have h8 : (wBal 8).stageUp (wBal 8).sup.tempD = none := by decide
  have e : sgTEnter ((wBal 8).stageWord 8) < 1000 := by decide
  have g : sgTHyst ((wBal 8).stageWord 8) < 1000 := by decide
  refine ⟨?_, ?_, ?_, ?_, ?_, by decide⟩
  · show Option.filter _ _ = _
    rw [h0, Option.filter_some, if_pos]
    exact decide_eq_true (by omega)
  · show Option.filter _ _ = _
    rw [h8]; rfl
  · omega
  · omega
  · show Option.filter _ _ = _
    rw [h8]; rfl
/-- A store whose logical sector 300 lies in physical sector 300, in state `st`, its bank's job and queue as given. -/
def wStore (st : SecState) (x : Sector) (j : Option BankJob) : State :=
  { wRun with store.map := [(300, ⟨300, st, false⟩)], nv.sectors := [(300, x)],
              store.banks := [(12, { Bank.reset with job := j })] }
def wProg (n : Nat) : BankJob := ⟨false, 300, 300, 0, List.replicate n 0, false, false, 0, false⟩
def wErase (e : Nat) (hold : Bool) : State × BankJob :=
  let j : BankJob := ⟨true, 300, 300, 0, [], false, false, 1, hold⟩
  ({ wStore .erasing { Sector.reset with ecount := e } (some j) with nv.pools := [(12, [316])] }, j)
theorem wit_storeReads :
    let ok : CellEnv := ⟨[], [], []⟩
    let bad : CellEnv := ⟨[41], [], []⟩
    let worse : CellEnv := ⟨[41], [41], []⟩
    let shut : Sector := { Sector.reset with closed := 255 }
    (300 : Nat) < 16777216 ∧ (∀ st ∈ [SecState.unmapped, .retired, .erased, .written, .poisoned],
      ((wStore st .reset none).ent 300).st = st) ∧ (wStore .retired .reset none).usersOf 300 = [] ∧
      (∀ c < 8, nth 0 ok.errs c = 0) ∧ (∃ c < 8, shut.isClosed c = true ∧ 40 < nth 0 bad.errs c) ∧
      (∀ c < 8, nth 0 bad.retryErrs c = 0) ∧ (∀ c < 8, shut.isClosed c = true) ∧
      ((wStore .written shut none).ent 300).preq = false ∧ ((wStore .written shut none).sector 300) = shut ∧
      (∃ c < 8, shut.isClosed c = true ∧ 40 < nth 0 worse.retryErrs c) ∧ (wStore .written shut none).usersOf 300 = [] := by decide
theorem wit_storePrograms :
    let s := wStore .written .reset none
    let shut : Sector := { Sector.reset with closed := 255 }
    let p : Sector := { Sector.reset with words := [(0, 1)] }
    bankOf 300 = 12 ∧ (s.ent 300).st ≠ .unmapped ∧ (s.ent 300).st ≠ .retired ∧
      ({ s with store.protect := [(300, 1)] } : State).protected_ 300 = true ∧ s.protected_ 300 = false ∧ 512 < 512 + [(0 : DWord)].length ∧
      511 + [(0 : DWord)].length ≤ 512 ∧ 511 < 512 ∧ (s.bank 12).job = none ∧ (s.bank 12).queue = [] ∧
      ((wStore .written .reset (some (wProg 3))).bank 12).job = some (wProg 3) ∧ (wProg 3).erase = false ∧
      (∃ i < 1, shut.isClosed ((511 + i) / 64) = true) ∧ p.word 0 ≠ ones64 ∧ (nth 0 [(2 : DWord)] 0 &&& p.word 0) ≠ nth 0 [(2 : DWord)] 0 ∧
      Sector.reset.word 511 = ones64 ∧ (wProg 16).data.length ≤ stepLen (wProg 16) ∧ stepLen (wProg 17) < (wProg 17).data.length := by
  decide
theorem wit_storeErases :
    let s := wStore .written .reset none
    let w := (wErase 19998 false).1
    let j := (wErase 0 false).2
    (s.ent 300).st = .written ∧ 300 ≠ noLogical ∧ (s.bank 12).job = none ∧ (s.bank 12).queue = [] ∧ (s.ent 300).phys < 16777216 ∧
      (w.bank 12).job = some j ∧ j.erase = true ∧ j.suspended = false ∧ (w.bank 12).queue = [] ∧ (w.sector 300).ecount + 1 < 20000 ∧
      20000 ≤ ((wErase 19999 false).1.sector 300).ecount + 1 ∧ (∀ q ∈ w.pool 12, q = 316) ∧
      (let v := (wErase 2000 false).1
       ∀ q ∈ v.pool 12, (v.sector 300).ecount + 1 ≤ (v.sector q).ecount + 2001) ∧
      (let v := (wErase 1999 false).1
       ∀ q ∈ v.pool (bankOf j.phys), (v.sector j.phys).ecount + 1 ≤ (v.sector q).ecount + 2000) ∧
      ((wErase 0 true).1.bank 12).job = some (wErase 0 true).2 ∧ (wErase 0 true).2.suspended = true ∧ (wErase 0 true).1.run.shut < 2 := by
  decide
theorem wit_storeMap :
    let r : State := { wStore .refresh .reset (some (wProg 1)) with nv.pools := [(12, [316])], nv.ckpt := [(0, 5, [])], nv.jseq := [(0, 5)] }
    let s : State := { r with store.banks := [(12, { Bank.reset with job := some { wProg 1 with logical := 301 } })] }
    let c : State := { s with nv.sectors := [(316, { Sector.reset with ecount := 4001 })], store.map := [(300, ⟨300, .written, false⟩)] }
    (1 : Nat) < 2 ∧ tfind s.nv.ckpt 0 = some (5, []) ∧ 5 ≤ tget 0 s.nv.jseq 0 ∧ stackOf 300 = 0 ∧ (s.ent 300).st = .refresh ∧
      ((c.ent 300).st = .written ∧ c.cold 300 = true) ∧ s.isolated (128 + stackOf 300) = false ∧
      (∀ j ∈ (s.bank 12).queue ++ (s.bank 12).job.toList, j.logical ≠ 300) ∧ (s.bank 12).job ≠ none ∧ s.pool 12 = [316] ∧
      (s.ent 300).phys ∉ s.pool 12 ∧ ((wStore .erased .reset none).ent 300).st = .erased := by decide
theorem wit_quantum :
    let o : State := { wRun with time.windowOpen := true }
    let b : State := { State.reset with run.st := .boot, run.s9 := true, run.s10 := true, run.s11 := true }
    State.reset.time.counting = false ∧ wRun.time.windowOpen = false ∧ o.time.counting = true ∧ o.time.windowOpen = true ∧
      o.time.sample < o.nextBoundary - 2 ∧ wRun.time.rephased = none ∧ wRun.run.st = .run ∧ wRun.run.pend = none ∧
      wRun.obs.resume = false ∧ 0 < wRun.q ∧ b.run.st = .boot ∧ (b.run.s9 && b.run.s10 && b.run.s11) = true ∧ 0 < b.q := by decide
theorem wit_runStateChanges :
    let s : State := { wRun with run.st := .shutdown, run.shut := 1, run.fadeQ := 7 }
    wRun.run.pend = none ∧ (∀ t ∈ [RunState.run, .maintenance, .shutdown], ({ wRun with run.pend := some t } : State).run.pend = some t) ∧
      s.run.st = .shutdown ∧ s.run.shut = 1 ∧ (s.time.window = s.run.fadeQ ∧ s.time.windowOpen = false) ∧
      ({ s with run.fadeQ := 6 } : State).run.fadeQ < s.time.window := by decide
/-- A state that meets the invariants, with a command waiting whose step answers a next state. -/
theorem wit_invariants :
    let s : State := { wRun with pending := [.supplyGlitch 0], loft.mem := [(5, 7)] }
    s.memWf = true ∧ s.ctrOk ∧ s.stageOk ∧ s.time.tick < 4096 ∧ (∃ t, step s = .next t) := by
  refine ⟨by decide, fun n => (Nat.zero_le _ : (0 : Nat) ≤ 2 ^ 64 - 1), by unfold State.stageOk; decide, by decide, _, rfl⟩
theorem wit_otpProgrammed :
    let s : State := { wLife 1 with pending := [.entropyTestsPass] }
    s.nv.otpDone.contains 0x20 = true ∧ ∃ t, step s = .next t := ⟨by decide, _, rfl⟩
theorem wit_engineStep :
    State.reset.pending = [] ∧ State.reset.time.counting = false ∧ wRun.time.tick + wRun.phaseTicks < 4096 ∧
      (let s : State := { wRun with time.tick := 4095 }
       4096 ≤ s.time.tick + s.phaseTicks ∧ s.time.sample + 1 < s.nextBoundary ∧
         ({ s with time.sample := 71 } : State).nextBoundary ≤ 71 + 1) := by decide

/-! ### Witnesses for operations in turn, repair, adapters and the completions -/

theorem turn_of_none (s : State) (obj op : Nat) (src : SyncSrc) (h : s.opMsg obj op src = none) : s.opTurn obj op src :=
  fun m e => by rw [h] at e; exact absurd e (by simp)
/-- No message brings the operation; a message does, in turn; and one does behind another of its source, out of turn. -/
theorem wit_opTurn :
    let m (op : Nat) : Msg := mkMsg (localAddr 7 0 0) (localAddr 0 3 0) 3 0 false 9 0 (5 * 16 + op) []
    let s : State := { wRun with grid.mesh := [m 0, m 2] }
    wRun.opTurn 3839 0 .unit ∧ s.opMsg 9 0 (.core 3) = some (m 0) ∧ s.opTurn 9 0 (.core 3) ∧ s.opMsg 9 2 (.core 3) = some (m 2) ∧
      ¬ s.opTurn 9 2 (.core 3) := by
  intro m s
  have h0 : s.opMsg 9 0 (.core 3) = some (m 0) := by decide +kernel
  have h2 : s.opMsg 9 2 (.core 3) = some (m 2) := by decide +kernel
  refine ⟨turn_of_none _ _ _ _ (by decide), h0, fun n e => ?_, h2, fun h => ?_⟩
  · rw [h0] at e; cases e; decide +kernel
  · exact absurd (h _ h2) (by decide +kernel)
theorem wit_messageInstructions_sync :
    let s : State := { wSt wCore with grid.objs := [(9, { SyncObj.reset with w0 := BitVec.ofNat 64 (2 ^ 62) })] }
    let m (op : Nat) : Msg := mkMsg (localAddr 7 0 0) 0 3 0 false 9 0 op []
    s.opMisused (m 2) = true ∧ s.opMisused (m 0) = false ∧ opAfter (m 0) = none ∧ (opAfter (m 4)).isSome = true ∧
      s.opMisused (m 4) = false := by decide +kernel
theorem wit_phaseSwitches_runs : (wSt wCore).runs 0 = true ∧ (wSt wCompute).runs 0 = true ∧ (wSt Core.reset).runs 0 = false := by decide
theorem wit_taskMessages_modes :
    wRun.readyList = false ∧ ({ wRun with cfg.plctl := BitVec.ofNat 64 (2 ^ 63) } : State).readyList = true := by decide
theorem wit_loftAccess_free : wRun.holds (localAddr 2 0 0) = false ∧ wRun.loftRings = false := by decide +kernel
theorem wit_ringInstructions_off : ((wSt wCore).core 0).rx = [] ∧ wCore.sr 0 = 0 := by decide
theorem wit_repairRequests :
    let l : List DWord := [0, BitVec.ofNat 64 (1 * 2 ^ 57 + 1 * 2 ^ 28), 0, 0, 0, 0, 0, 0]
    let x : Arr := { Arr.reset with flagged := [(15, [7, 9])], tried := [(15, [7])] }
    let y : Arr := { x with descs := [(0, [0, 0, 0, 0, 0, 0, 0, BitVec.ofNat 64 (2 ^ 63 + 3 * 2 ^ 61)])] }
    ([7, 8].filter (tget [] x.flagged 15).contains).take 8 ≠ [] ∧ (wWith x).draining = false ∧
      ({ wWith x with run.st := .shutdown } : State).draining = true ∧ 7 ∈ tget [] x.flagged 15 ∧ 7 ∈ tget [] x.tried 15 ∧
      x.spareOf 15 7 = none ∧ l ≠ [] ∧ (wWith x).model.progs = [] ∧ x.prog = none ∧ x.descs = [] ∧
      (List.range 8).find? (fun i => !((tget [] x.colmap 15).map (·.1)).contains (8 * (7 / 256) + i)) = some 0 ∧
      lpAdapt (y.desc 0) = true ∧ (tget Adapter.reset y.adapters 0).rank < lpMax (y.desc 0) := by decide +kernel
theorem wit_adapters_better :
    let one : Nat := 0x3F800000
    let five : Nat := 0xC0A00000
    let l : List DWord := [0, BitVec.ofNat 64 (1 * 2 ^ 57 + 1 * 2 ^ 28), 0, 0, 0, 0, 0, BitVec.ofNat 64 (2 ^ 63 + 3 * 2 ^ 61)]
    let ad : Adapter := { Adapter.reset with steps := 64, ma := [one, 0, 0, 0], mb := [five, 0, 0, 0] }
    let x : Arr := { Arr.reset with descs := [(0, l)], flagged := [(0, [0])], tried := [(0, [0])], adapters := [(0, ad)],
                                    probe := [(0, [([1], [5])])] }
    let s := wWith x
    let bf (l : List Nat) : List Nat := l.map fun m => (bf16Of s.cfg.bcA m).val
    let new := (s.checkRef 0 0).2.probeTerms 0 0 4 (bf ad.ma) (bf ad.mb)
    let old := (s.checkRef 0 0).2.probeTerms 0 0 ad.rank ad.a ad.b
    (s.checkRef 0 0).1 = true ∧ outCols l x.flagged = [0] ∧ probeError new.1 0 < probeError old.1 0 := by decide +kernel
/-- Rows for a training step; weights that do not read; a candidate that is not better, and one whose rank does not fit. -/
theorem wit_adapters_train :
    let l : List DWord := [0, BitVec.ofNat 64 (1 * 2 ^ 57 + 1 * 2 ^ 28), 0, 0, 0, 0, 0, BitVec.ofNat 64 (2 ^ 63 + 3 * 2 ^ 61)]
    let x : Arr := { Arr.reset with descs := [(0, l)], flagged := [(0, [0])], tried := [(0, [0])],
                                    probe := [(0, List.replicate 96 ([], []))] }
    let rows := (List.range 32).map (64 + ·)
    let b : State := { wWith x with model.captured := [(0, 1)], store.loaded := true, store.map := [(8192, ⟨8192, .unmapped, false⟩)],
                                    nv.dir := [(5, { wEnt 0 true with
                                      model := 0, layers := [⟨List.replicate 40 0 ++ leBytes 8 (2 ^ 24), [], [8192], 0⟩] })] }
    x.toLearn l ≠ [] ∧ rows.length = 32 ∧ rows.Nodup ∧ (∀ i ∈ rows, 64 ≤ i ∧ i < (tget [] x.probe 0).length) ∧
      ((wWith x).checkRef 0 0).1 = true ∧ (b.checkRef 0 0).1 = false ∧
      outCols l [] = [] ∧ lpMax l = 16 := by decide +kernel
theorem wit_mediaTransmit_due :
    let s (h : Nat) : State := { (wMedia wTxRec).setStrOut 3 { StreamOut.reset with next := some 0 } with time.handed := h }
    packetOf 0 0 ≤ 1000 ∧ (s 1000).packetDue 3 = true ∧ (s 0).time.handed < 0 + packetOf 0 0 ∧
      (∀ e ∈ (s 1000).cfg.streams, e.1 < 3 → (s 1000).packetDue e.1 = false) ∧
      (let u : State := { s 1000 with cfg.streams := [(2, wTxRec), (3, wTxRec)] }
       let v := u.setStrOut 2 { StreamOut.reset with next := some 0 }
       ∃ e ∈ v.cfg.streams, e.1 < 3 ∧ v.packetDue e.1 = true) := by decide +kernel
theorem wit_clockSources_ok :
    let s : State := { wRun with port.saEdges := [1, 0, 0, 0], cfg.clocking := BitVec.ofNat 192 (3 * 2 ^ 41 + 100 * 2 ^ 86) }
    3 ∈ s.sources ∧ s.srcOk 3 = true ∧ s.srcOk 4 = false ∧ (100000 : Int).natAbs ≤ 1000 * bf s.cfg.clocking.toNat 95 86 ∧
      1000 * bf s.cfg.clocking.toNat 95 86 < (100001 : Int).natAbs := by decide +kernel
theorem wit_phaseStep :
    let s : State := { wRun with time.st := .lockedOffset, time.err := 5 }
    let tol := bf s.cfg.clocking.toNat 85 76
    s.time.st = .lockedOffset ∧ 16 ≤ (List.replicate 16 (2000 : Int)).length ∧
      (∀ e ∈ List.replicate 16 (2000 : Int), tol < (e - s.time.err).natAbs) ∧ (List.replicate 15 (2000 : Int)).length < 16 ∧
      ∃ e ∈ List.replicate 16 (5 : Int), (e - s.time.err).natAbs ≤ tol := by decide
theorem wit_storeDrained : wRun.storeDrained = false ∧ ({ wRun with run.shut := 2 } : State).storeDrained = true := by decide
theorem wit_sourceUp :
    let e (src : Nat) : BitVec 256 := BitVec.ofNat 256 (src * 2 ^ 58)
    reSrc (e 0) = 0 ∧ wRun.sourceUp (e 0) = true ∧ reSrc (e 1) = 1 ∧ wRun.sourceUp (e 1) = false := by decide +kernel
theorem wit_reelFillCompletes_fails :
    let e : BitVec 256 := BitVec.ofNat 256 (2 ^ 63 + 1 * 2 ^ (128 + 14) + 1 * 2 ^ (64 + 24))
    (wRun.reelFill 0 e [] []).1.isSome = true ∨ (wRun.reelFill 0 e [] []).1 = none := by
  intro e
  cases (wRun.reelFill 0 e [] []).1 with
  | none => exact .inr rfl
  | some l => exact .inl rfl
theorem wit_fecUncorrLimit :
    let s (n : Nat) : State := wFab { wPort .up with uncorr := n }
    fld (s 0).cfg.fabctl 91 84 < ((s 256).port_ 0).uncorr ∧ ((s 0).port_ 0).uncorr ≤ fld (s 0).cfg.fabctl 91 84 ∧
      (s 0).tpOn 0 = true ∧ (s 0).fab.conflict = false ∧ ({ s 0 with fab.conflict := true } : State).fab.conflict = true := by decide
theorem wit_selfTestVerdicts :
    let o : SliceObs := ⟨0, [(0, 1, 1)], [[0, 17]], [], []⟩
    (∃ l ∈ o.zeros.take 16, ∃ v ∈ l, v < -16 ∨ 16 < v) ∧ (∀ r ∈ o.reads, r.2.1 = r.2.2) ∧ 1027 / 256 = 4 ∧
      (∃ k < 532, wRun.sliceFails 1024 o = some (some k)) ∧ wRun.sliceFails 5 o = none ∧
      wRun.sliceFails 5 { o with reads := [(0, 1, 2)] } ≠ none ∧ 1536 / 256 = 6 := by decide +kernel
theorem wit_commandChecks_resetting :
    let s : State := { wRun with run.resetting := some (wCmd 0x11 0) }
    s.run.resetting ≠ none ∧ s.runBit ≠ 0 ∧ (wCmd 0x10 0).opcode = 0x10 := by decide
theorem wit_planePrograms_asked :
    let s : State := { wRun with model.switches := [wSwitch], model.progs := [⟨0, 3, true, [], [], none⟩] }
    s.switchFor 0 3 = some wSwitch ∧ wRun.switchFor 0 3 = none ∧ s.draining = false ∧ (s.arr 0).st ≠ .failed ∧
      s.entOf wSwitch.model wSwitch.gen = none ∧ (s.checkPlane (some []) 0 (wSwitch.oldPlane 0 3) wSwitch.model wSwitch.gen).1 = true ∧ s.mayPlane wSwitch 0 3 = true ∧
      (∃ w ∈ s.model.switches, w.atomic = true ∧ ∃ k ∈ w.todo, k.1 = 0) := by decide +kernel
theorem wit_switchReports_holders :
    let w : Switch := { wSwitch with todo := [], ready := false }
    let s : State := { wRun with model.switches := [w], fab.addr := some 4,
                                 cfg.subs := [(9, leBytes 8 (7 * 2 ^ 32 + 1) ++ leBytes 8 6 ++ leBytes 8 0)] }
    s.model.switches.find? (fun v => v.model == w.model && v.gen == w.gen) = some w ∧ w.ready = false ∧ w.todo = [] ∧
      s.otherHolders 7 = [6] ∧ s.dev ≤ 6 ∧ (∀ a ∈ s.dev :: s.otherHolders 7, a ∈ dedupN (6 :: [4])) ∧
      (∃ a ∈ s.dev :: s.otherHolders 7, a ∉ dedupN (6 :: [])) ∧ s.switchOf 7 = some w ∧ s.isPlacement w = false := by decide +kernel
theorem wit_engineStep_core :
    let s := wSt wCore
    (s.core 0).hasProg = true ∧ s.runs 0 = true ∧
      Sys2Proof.decodeCoreWord 0 (tget 0 (s.core 0).imem (s.core 0).idx) = some (.iNop 0 0) ∧ wRun.cores = [] := by decide +kernel
theorem wit_unitCompletions :
    let l : List DWord := [0, BitVec.ofNat 64 (1 * 2 ^ 57 + 1 * 2 ^ 28), 0, 0, 0, 0, 0, 0]
    let j : RowJob := { wJob with passes := 1, codes := [1, 2] }
    let x : Arr := { Arr.reset with descs := [(0, l)], adapters := [(0, { Adapter.reset with rank := 4 })] }
    let s (y : Arr) := wWith y
    let p : Arr := { x with fifo := [wJob] }
    let q : Arr := { x with fifo := [j] }
    let r : Lsr := ⟨some 9, 77, 4, [], 0, [], false⟩
    p.drain = [] ∧ p.serves = true ∧ (s p).draining = false ∧ (s q).holds (localAddr 1 0 0) = false ∧ j.donePasses < j.passes ∧
      wJob.passes < lgPasses (p.desc 0) ∧ p.flying < 2 ∧ p.late = [] ∧ p.asm = none ∧ (s x).isolated 64 = false ∧
      (0x20 ≤ 0x20 ∧ 0x20 ≤ 0x30) ∧ (wFab (wPort .up)).fab.lsrs.find? (fun y => y.uid == r.uid) = none ∧
      tfind Arr.reset.probeAt 0 = none ∧ wRun.nv.adapterQ = none := by decide +kernel

/-! ### Witnesses for the clauses on links, ports, repair and the store -/

/-- Sectors whose weights do not read: generation 1 of model 0, one layer in one sector that no mapping has. -/
def wUnread (x : Arr) : State :=
  { wWith x with model.captured := [(0, 1)], nv.holds := [(15, 0, 1, 0)], store.map := [(8192, ⟨0, .unmapped, false⟩)],
                 nv.dir := [(5, { wEnt 0 true with
                   model := 0, layers := [⟨List.replicate 40 0 ++ leBytes 8 (2 ^ 24), [], [8192], 0⟩] })] }
theorem wit_clockLock_stable :
    let s : State := { wRun with cfg.clocking := BitVec.ofNat 192 (1000 * 2 ^ 76) }
    let tol := bf s.cfg.clocking.toNat 85 76
    (∃ x ∈ [(0 : Int), 1001], tol < (x - [(0 : Int), 1001].headD 0).natAbs) ∧ [(0 : Int), 1000] ≠ [] ∧
      ∀ x ∈ [(0 : Int), 1000], (x - [(0 : Int), 1000].headD 0).natAbs ≤ tol := by decide
theorem wit_lateResultsAndUse :
    ({ wRun with time.opened := true } : State).time.opened = true ∧ wRun.time.windowOpen = false ∧ wRun.lateWork = false ∧
      wRun.qindex % 65536 ≠ 0 ∧ State.reset.qindex % 65536 = 0 ∧ State.reset.model.halved ≠ some State.reset.qindex ∧
      ({ State.reset with model.halved := some State.reset.qindex } : State).model.halved = some State.reset.qindex := by decide
/-- A message behind one that a full receive buffer holds, and the same message alone. -/
theorem wit_behindHeld :
    let m (n : Nat) : Msg := mkMsg (localAddr 0 63 255) (coreAddr 5) 0 0 false 0 0 0 [BitVec.ofNat 8 n]
    let full : Core := { wCore with compute := true, rx := List.replicate 4 (mkMsg (localAddr 0 63 255) 0 0 0 false 0 0 0
                                      (List.replicate 8192 0)) }
    ({ wRun with cores := [(63, full)], grid.mesh := [m 0, m 1] } : State).behindHeld (m 1) = true ∧
      (wMesh wRun (m 1)).behindHeld (m 1) = false ∧ (wMesh wRun (m 1)).ready (m 1) = true := by decide +kernel
theorem wit_mediaReceive_record :
    (wMedia wRxRec).stream 3 = wRxRec ∧ ({ wMedia wRxRec with time.counting := false } : State).time.counting = false ∧
      wRun.vlanPass 0 none = true ∧ wRun.vlanPass 0 (some 5) = false ∧ (wMedia wRxRec).mediaOn 0 = true := by decide
theorem wit_audioTransmit_end :
    let s (f : Nat) : State := { wRun with run.st := .shutdown, run.fadeQ := f }
    (s 0).run.st = .shutdown ∧ ((s 0).run.fadeQ + 3) * (s 0).q + 24 ≤ (s 0).time.sample ∧
      (s 9).time.sample < ((s 9).run.fadeQ + 3) * (s 9).q + 24 := by decide
theorem wit_ptpMessages_delay :
    let s : State := { wMedia 0 with port.gm := [some (1, 2, 3), none], port.reqAt := [some 7, none] }
    nth none s.port.gm 0 = some (1, 2, 3) ∧ PtpKind.delayResp ≠ .announce ∧ nth none s.port.reqAt 0 = some 7 ∧
      nth none s.port.reqAt 1 = none ∧ s.time.counting = true := by decide
/-- A row of the channel stage for the first layer of its slot's chain, and one for another layer. -/
theorem wit_rowReceive_fits :
    let m (d : Nat) : Msg := mkMsg (localAddr 1 0 0) (localAddr 3 0 0) 1 5 false 0 0 d (leBytes 16 0 ++ [0, 0, 0, 0])
    (wWith wArr).rowFits (mkMsg (localAddr 1 0 0) (coreAddr 0) 1 5 false 0 0 0 []) = true ∧ (wWith wArr).rowFits (m 0) = true ∧
      (wWith { wArr with descs := [(0, wDesc), (1, [0, 0, 16, 0, 0, 0, 0, 0])] }).rowFits (m 1) = false := by
  decide +kernel
theorem wit_joinsAndTerms_held :
    let m : Msg := mkMsg (localAddr 0 63 255) (localAddr 1 0 0) 0 0 false 0 0 0 []
    let full : Core := { wCore with compute := true, rx := List.replicate 5 (mkMsg (localAddr 0 63 255) 0 0 0 false 0 0 0
                                      (List.replicate 8192 0)) }
    (wWith wArr).holds (localAddr 1 0 0) = false ∧
      ({ wWith wArr with cores := [(63, full)], grid.mesh := [m] } : State).holds (localAddr 1 0 0) = true ∧
      (wWith wArr).nv.dir = [] := by decide +kernel
theorem wit_repairRequests_spent :
    let x : Arr := { Arr.reset with flagged := [(15, [7, 9])], spent := [(15, [7])] }
    let cst (e : Nat) := fld (tget colReset (tget .reset x.recs 15).cols e) 2 0
    let may (col : Nat) := col ∈ tget [] x.flagged 15 ∧ col ∈ tget [] x.spent 15 ∧ (wWith x).draining = false ∧
      cst (x.entryOf 15 col) ≠ 3
    may 7 ∧ ¬ may 9 ∧
      (List.range 8).find? (fun i => !((tget [] x.colmap 15).map (·.1) ++ (x.mapNext.filter fun p => p.1 == 15).map (fun p => p.2.1)
        ++ (List.range 64).filter fun k => decide (2 ≤ cst (2048 + k))).contains (8 * (7 / 256) + i)) = some 0 ∧
      (∀ i < 8, 8 * (7 / 256) + i ∈ (tget [] ({ x with colmap := [(15, (List.range 8).map fun i => (i, 7))] } : Arr).colmap 15).map
        (·.1)) ∧ (wWith x).model.progs = [] ∧ x.prog = none ∧
      (∃ r ∈ ({ wWith x with model.progs := [⟨0, 15, false, [7], [], some 0⟩] } : State).model.progs, r.spare ≠ none ∧ r.cols = [7]) := by
  decide +kernel
theorem wit_weightsRead :
    let l : List DWord := [0, BitVec.ofNat 64 (15 * 2 ^ 8), 0, 0, 0, 0, 0, 0]
    let x : Arr := { Arr.reset with descs := [(0, [BitVec.ofNat 64 0, 0, 0, 0, 0, 0, 0, 0])] }
    ((wWith wArr).checkHeld 0 15).1 = true ∧ ((wWith wArr).checkPlane (some []) 0 0 7 1).1 = true ∧ l ≠ [] ∧
      ((wUnread x).checkPlane (some []) 0 (lgPlane (x.desc 0)) 0 1).1 = false ∧
      (({ wUnread x with nv.holds := [(lgPlane (x.desc 0), 0, 1, 0)] } : State).checkHeld 0 (lgPlane (x.desc 0))).1 = false := by
  decide +kernel
theorem wit_reelLate :
    let e : BitVec 256 := BitVec.ofNat 256 (2 ^ 63 + 9 * 2 ^ 36)
    let r (late : Bool) : Reel := { Reel.reset with list := [(1, e)], out := [⟨1, 0, false, false, late, false⟩] }
    ∀ b : Bool, (r b).out.find? (fun x => !x.signalled && reSync ((r b).entry x.entry) == 9) = some ⟨1, 0, false, false, b, false⟩ := by
  decide
/-- A control flit whose CRC holds; codewords with 7 and with 8 symbol errors. -/
theorem wit_flitsReceived_control :
    let f := ((wFab (wPort .up)).ctrlFlit 5 1 [1, 2, 3]).1
    f.sound = true ∧ f.ftype = 1 ∧ f.dst = (wFab (wPort .up)).dev ∧ f.ctrlSound = true ∧
      ([7, 8].filter fun e => decide (7 < e)).length = 1 ∧ sumN ([7, 8].filter fun e => decide (e ≤ 7)) = 7 := by decide +kernel
theorem wit_bulkResent :
    tfind wRun.fab.bulkOut (128 * 3 + 127) = none ∧
      tfind ({ wRun with fab.bulkOut := [(511, 4, [[1], [2]])] } : State).fab.bulkOut (128 * 3 + 127) = some (4, [[1], [2]]) ∧
      ([(8, 1, 40), (7, 0, 9)] : List (Nat × Nat × Nat)).filter
        (fun e => decide (e.2.1 = 1 ∧ (41 + 65536 - e.2.2 % 65536) % 65536 < 32768)) ≠ [] := by decide
theorem wit_hostLink_install :
    let i : Install := ⟨wCmd 0x30 0, 5, 0, 0, 1, 7⟩
    ({ wHost with model.install := some i, host.trained := true } : State).model.install = some i ∧ i.cmd.src = .host ∧
      (let s : State := { wHost with host.pba := [3], host.msix := [(4, BitVec.ofNat 128 (2 ^ 96))] }
       3 ∈ s.host.pba ∧ s.vecMasked 3 = false ∧ 4 ∉ s.host.pba ∧ s.vecMasked 4 = true) := by decide
theorem wit_modelSwitchCount :
    let c : Cmd := { wCmd 0x50 0 with p3 := BitVec.ofNat 64 (0x400015 * 2 ^ 32 + 1 * 2 ^ 16 + 1) }
    (wDir c (wEnt 0 true)).turn 0x50 c ∧ c.p3.getLsbD 0 = true ∧ fld c.p3 63 32 ≤ kDir 5 1 ∧
      kDir 5 1 < fld c.p3 63 32 + fld c.p3 31 16 ∧ ((wDir c (wEnt 0 true)).begun c).dirEnt 5 = some (wEnt 0 true) := by
  unfold State.turn State.fenced; decide
theorem wit_bootBegins_written : wRun.model.unwritten = [] ∧ (∀ p < 8, (wRun.port_ p).st = .dark) ∧ wRun.store.banks = [] := by decide
theorem wit_storeReads_waiting :
    let s (j : Option BankJob) := wStore .written .reset j
    let j : BankJob := ⟨true, 301, 301, 0, [], false, false, 0, false⟩
    (s none).readWaits 300 = false ∧ (s (some (wProg 3))).readWaits 300 = true ∧ (wProg 3).erase = false ∧
      ({ s (some j) with run.st := .boot } : State).readWaits 300 = true ∧ (s (some j)).readWaits 300 = false := by decide
theorem wit_storeMap_checkpoints :
    let s : State := { wStore .refresh .reset none with nv.ckpt := [(0, 5, []), (1, 3, [])], nv.jseq := [(0, 7)], nv.pools := [(12, [316])] }
    s.ckptOf 0 = some (5, []) ∧ s.ckptOf 1 = none ∧ (∀ r ∈ s.journalOf 0, r.seq ≤ 7) ∧ 5 < tget 0 s.nv.jseq 0 ∧
      (s.ent 300).st = .refresh ∧ (s.bank 12).job = none ∧ (s.bank 12).queue = [] ∧ s.pool 12 = [316] ∧ (s.ent 300).phys ∉ s.pool 12 ∧
      s.storeDrained = false ∧ (s.bank 12).reads = [] ∧ ({ s with run.shut := 2 } : State).storeDrained = true ∧
      stepLen (wProg 17) < (wProg 17).data.length := by decide
theorem wit_cfgWrite_completes :
    let c : Cmd := { wCmd 0x20 0 with data := wRecord 0 }
    let u : State := ({ wTurn c with store.loaded := true } : State).begun c
    let ls := (List.range 128).map (0 + ·)
    (∀ l ∈ ls, (u.ent l).st = .erased ∧ (u.sector (u.ent l).phys).words = [] ∧ (u.bank (bankOf (u.ent l).phys)).job = none ∧
      (u.bank (bankOf (u.ent l).phys)).queue = []) ∧ (ls.map fun l => (u.ent l).phys).Nodup ∧ (∀ l ∈ ls, u.protected_ l = false) := by
  decide +kernel
theorem wit_reformat_completes :
    let u : State := { wTurn (wCmd 0x62 2) with store.loaded := true }
    u.store.loaded = true ∧ (∀ b, (u.bank b).job = none ∧ (u.bank b).queue = []) ∧
      ∀ l, partitionOf l = some 2 → (u.ent l).st = .erased := by
  refine ⟨rfl, fun b => ⟨rfl, rfl⟩, fun l h => ?_⟩
  have hm : mapped l = true := by
    simp only [mapped, Bool.or_eq_true, decide_eq_true_eq]
    unfold partitionOf at h
    repeat' split at h
    all_goals first | omega | (simp at h)
  show (match (none : Option MapEnt) with | some e => e | none => if (true && mapped l) = true then _ else _).st = .erased
  simp only [hm, Bool.and_self, if_true]
theorem wit_activate_completes :
    let c := wCmd 0x31 (7 * 2 ^ 32 + 2 * 2 ^ 16)
    let n : DirEnt := { wEnt 0 false with gen := 2 }
    let s (e : DirEnt) : State := { wTurn c with nv.dir := [(5, e), (6, wEnt 0 true)] }
    let y : DirEnt := { n with layers := [⟨[], [], [], 0⟩] }
    (s n).turn 0x31 c ∧ ((s n).begun c).entOf 7 2 = some (5, n) ∧ n.st ∉ [1, 5, 6] ∧ n.active = false ∧
      ((s n).begun c).switchOf 7 = none ∧ ((s n).begun c).dirEnt 5 = some n ∧ ((s n).begun c).activeEnt 7 = some (6, wEnt 0 true) ∧
      shapeOk n (wEnt 0 true) = true ∧ shapeOk y (wEnt 0 true) = false ∧ ((s n).begun c).evictPolicy = false ∧
      ((s n).begun c).modelNamed 7 = false ∧ ((s n).begun c).atomicOk 7 [] = true := by
  unfold State.turn State.fenced; decide +kernel
theorem wit_engineStep_late : ((wSt { wCore with run := .late }).core 0).run = .late := by decide

/-- HostReads: an access of each kind that reads zero, and the run state after reset. -/
theorem wit_host_reads : State.reset.bar0Read 0x200 8 = 0 ∧ State.reset.bar0Read 0x21C 4 = 0 ∧ State.reset.bar0Read 0x22 4 = 0 ∧
    State.reset.bar0Read 0x20 8 / 2 ^ 61 = runCode State.reset.run.st := by decide

end Sys2Proof
end

section
/-!
PROOFS. The special registers and the register file of a core (R7, R186, R219): what each access does, and with it O11.
-/

namespace Sys2Proof.Machine

/-! ### The register file -/

@[simp] theorem Core.sr_zero (c : Core) : c.sr 0 = 0 := rfl

@[simp] theorem Core.setS_zero (c : Core) (v : Nat) : c.setS 0 v = c := rfl

theorem Core.sr_setS_self (c : Core) (r v : Nat) (h : r ≠ 0) : (c.setS r v).sr r = v % 2 ^ 32 := by
  simp [Core.sr, Core.setS, h]

theorem Core.sr_setS_ne (c : Core) (r j v : Nat) (h : j ≠ r) : (c.setS r v).sr j = c.sr j := by
  by_cases hr : r = 0
  · rw [hr, setS_zero]
  · simp only [Core.sr, Core.setS, if_neg hr, tget_tset_ne 0 c.s r j _ h]

/-! ### Completing an untraced instruction -/

/-- An instruction that ends in `retire` from the state it issued in completes with the effect retired (R213, R214). -/
theorem completes_of_retire {i : Instr} {s : State} {k : Nat} {f : Fx} (hs : s.issues k) (hn : ∀ p ∈ f.n, p.1 < 24)
    (h : exec i s = .next (s.retire k f)) : Completes i s k f :=
  ⟨_, h, s.retire_spec k f hs.2.2 hn⟩

/-- A legal instruction of either phase takes its effect in the state it issues in (R214, R215). -/
theorem State.issue_either_of_issues {s : State} {k : Nat} (hs : s.issues k) (eff : State → State) :
    s.issue k true .either eff = .next (eff s) := by
  obtain ⟨hk, hr, hx⟩ := hs
  simp [State.issue, inUnit, hk, hr, Nat.not_lt.2 hx]

/-! ### Special registers -/

theorem specialOk_iff (n : Nat) : specialOk n = true ↔ n ≤ 7 ∨ (16 ≤ n ∧ n ≤ 31) := decide_eq_true_iff

/-- What a special register reads as, by its number (R219). -/
theorem State.special_eq (s : State) (k n : Nat) : s.special k n =
    if n = 0 then (s.core k).flags else if n = 1 then k else if n = 2 then (s.core k).qindex % 2 ^ 32 else if n = 3 then s.q
    else if n = 4 then (s.core k).vlen else if n = 5 then (s.core k).qclamp else if n = 6 then (s.core k).qmask
    else if n = 7 then (s.core k).dispatch else tget 0 (s.core k).gens (n - 16) := by
  match n with
  | 0 | 1 | 2 | 3 | 4 | 5 | 6 | 7 => rfl
  | n + 8 => simp [State.special]

/-- A write of a read-only special register is ignored (R7, R219). -/
theorem Core.setSpecial_of_readOnly (c : Core) (n v : Nat) (h : n = 1 ∨ n = 2 ∨ n = 3 ∨ (16 ≤ n ∧ n ≤ 31)) :
    c.setSpecial n v = c := by
  obtain rfl | rfl | rfl | ⟨hn, -⟩ := h
  · rfl
  · rfl
  · rfl
  · obtain ⟨m, rfl⟩ := Nat.exists_eq_add_of_le' hn
    rfl

theorem completes_iMfs {s : State} {k : Nat} {o : Ops23} (hs : s.issues k) (ha : oSA o = 0) (hn : specialOk (oImm13 o) = true) :
    Completes (.iMfs k o) s k (wordFx (s.core k) (oSD o) (s.special k (oImm13 o))) := by
  refine completes_of_retire hs (by simp [wordFx]) ?_
  rw [exec_iMfs, execIMfs, hn, ha]
  exact State.issue_either_of_issues hs _

theorem completes_iMts {s : State} {k : Nat} {o : Ops23} (hs : s.issues k) (ha : oSA o = 0) (hn : specialOk (oImm13 o) = true) :
    Completes (.iMts k o) s k ⟨(s.core k).setSpecial (oImm13 o) ((s.core k).sr (oSD o)), []⟩ := by
  refine completes_of_retire hs (by simp) ?_
  rw [exec_iMts, execIMts]
  exact s.reg_spec k _ _ hs (by simp [hn, ha])

end Sys2Proof.Machine

namespace Sys2Proof

open Machine

theorem claims_registerFile : Claims.RegisterFile := fun c r v =>
  ⟨c.sr_zero, c.setS_zero v, c.sr_setS_self r v, fun j => c.sr_setS_ne r j v⟩

theorem claims_specialRegisters : Claims.SpecialRegisters := by
  intro s k o hs ha c n v
  have write (hn : n ≤ 7 ∨ (16 ≤ n ∧ n ≤ 31)) : Completes (.iMts k o) s k ⟨c.setSpecial n v, []⟩ :=
    completes_iMts hs ha ((specialOk_iff n).2 hn)
  have named (j : Nat) (hj : j ≤ 7) (hn : n = j) : Completes (.iMts k o) s k ⟨c.setSpecial j v, []⟩ :=
    hn ▸ write (.inl (hn ▸ hj))
  refine ⟨fun hn => ?_, named 0 (by decide), named 4 (by decide), named 5 (by decide), named 6 (by decide),
    named 7 (by decide), fun hn => ?_⟩
  · exact s.special_eq k n ▸ completes_iMfs hs ha ((specialOk_iff n).2 hn)
  · exact c.setSpecial_of_readOnly n v hn ▸ write (by omega)

/-- Settles O11: an access by MFS or MTS completes with the register's value, or with the write that its access code allows,
and the register file reads back what was written. -/
theorem coreRegisters : Obligations.CoreRegisters :=
  ⟨claims_specialRegisters, claims_registerFile⟩

end Sys2Proof
end

section
/-!
PROOFS. What work on the weight store and on the directory leaves alone: a sector erased, an entry freed, an installation undone
(R284, R286, R363 to R369).
-/

namespace Sys2Proof.Machine

/-- `t` differs from `s` only in what work on the store and the directory reaches: those two and the uses of the models, what an
event reaches, and what recording trace changes. -/
def State.onlyStore (s t : State) : Prop :=
  t = { s with nv := t.nv, store := t.store, model.use := t.model.use, cnt := t.cnt, out := t.out, free := t.free, ev := t.ev, host.eq := t.host.eq,
               host.evCount := t.host.evCount, host.sev := t.host.sev, host.eqOvf := t.host.eqOvf, host.pba := t.host.pba,
               host.tq := t.host.tq, grid.mesh := t.grid.mesh, obs.engines := t.obs.engines, obs.ring := t.obs.ring,
               obs.ringN := t.obs.ringN, obs.copying := t.obs.copying }

theorem State.onlyStore_refl (s : State) : s.onlyStore s := rfl

theorem State.onlyStore.trans {s t u : State} (h : s.onlyStore t) (g : t.onlyStore u) : s.onlyStore u := by
  unfold State.onlyStore at *
  rw [g, h]

theorem State.onlyStore_of_told {s t : State} (h : s.told t) : s.onlyStore t := by
  obtain ⟨c, o, e, q, n, v, f, b, l, m, rfl⟩ := h
  rfl

theorem State.onlyStore_of_traced {s t : State} (h : s.traced t) : s.onlyStore t := by
  obtain ⟨c, o, f, q, b, e, r, n, k, rfl⟩ := h
  rfl

theorem State.onlyStore_raise (s : State) (e : EvKind) (l : List (Nat × Nat)) : s.onlyStore (s.raise e l) :=
  State.onlyStore_of_told (s.told_raise e l)

theorem State.onlyStore_foldl {α : Type} {f : State → α → State} (hf : ∀ (s : State) x, s.onlyStore (f s x)) (l : List α) (s : State) :
    s.onlyStore (l.foldl f s) := by
  induction l generalizing s with
  | nil => exact s.onlyStore_refl
  | cons x r ih => exact (hf s x).trans (ih _)

/-! The named updates of the store, of the non-volatile state and of a counter. -/
theorem State.onlyStore_nv (s : State) (n : NvSt) : s.onlyStore { s with nv := n } := rfl
theorem State.onlyStore_store (s : State) (x : StoreSt) : s.onlyStore { s with store := x } := rfl
theorem State.onlyStore_count (s : State) (k n : Nat) : s.onlyStore (s.count k n) := rfl
theorem State.onlyStore_setEnt (s : State) (l : Nat) (e : MapEnt) : s.onlyStore (s.setEnt l e) := s.onlyStore_store _
theorem State.onlyStore_setBank (s : State) (b : Nat) (k : Bank) : s.onlyStore (s.setBank b k) := s.onlyStore_store _
theorem State.onlyStore_answer (s : State) (n : Nat) : s.onlyStore (s.answer n) := s.onlyStore_store _
theorem State.onlyStore_setSector (s : State) (p : Nat) (x : Sector) : s.onlyStore (s.setSector p x) := s.onlyStore_nv _
theorem State.onlyStore_setPool (s : State) (b : Nat) (l : List Nat) : s.onlyStore (s.setPool b l) := s.onlyStore_nv _
theorem State.onlyStore_toPool (s : State) (p : Nat) : s.onlyStore (s.toPool p) := s.onlyStore_setPool _ _
theorem State.onlyStore_setJournal (s : State) (t : Nat) (l : List JRec) : s.onlyStore (s.setJournal t l) := s.onlyStore_nv _
theorem State.onlyStore_setIntents (s : State) (t : Nat) (l : List Intent) : s.onlyStore (s.setIntents t l) := s.onlyStore_nv _
theorem State.onlyStore_intentDone (s : State) (t q : Nat) : s.onlyStore (s.intentDone t q) := s.onlyStore_setIntents _ _
theorem State.onlyStore_setDir (s : State) (x : Nat) (e : DirEnt) : s.onlyStore (s.setDir x e) := s.onlyStore_nv _
theorem State.onlyStore_freePlane (s : State) (k : Nat) : s.onlyStore (s.freePlane k) := s.onlyStore_nv _

/-! ### Spares, the map and an erase (R365 to R369) -/

theorem State.onlyStore_takeSpare (s : State) (b : Nat) : s.onlyStore (s.takeSpare b).2 := by
  unfold State.takeSpare
  split
  · exact s.onlyStore_refl
  · dsimp only [State.take]
    have taken : s.onlyStore { s with free := s.free + 1 } := rfl
    split
    · exact ((taken.trans (State.onlyStore_setPool _ _ _)).trans (State.onlyStore_store _ _)).trans (State.onlyStore_raise _ _ _)
    · exact taken.trans (State.onlyStore_setPool _ _ _)

theorem State.onlyStore_commit (s : State) (l : Nat) (e : MapEnt) : s.onlyStore (s.commit l e) := by
  unfold State.commit
  extract_lets t q _ s1 s2
  have h2 : s.onlyStore s2 := (s.onlyStore_nv _).trans (State.onlyStore_setJournal _ _ _)
  clear_value s2
  refine State.onlyStore.trans ?_ (State.onlyStore_setEnt _ _ _)
  split
  · exact h2
  · exact h2.trans (State.onlyStore_setSector _ _ _)

theorem State.onlyStore_retirePhys (s : State) (p : Nat) (l : Option Nat) : s.onlyStore (s.retirePhys p l) := by
  unfold State.retirePhys
  extract_lets _ s1
  have h1 : s.onlyStore s1 :=
    ((s.onlyStore_nv _).trans (State.onlyStore_count _ _ _)).trans (State.onlyStore_raise _ _ _)
  clear_value s1
  cases l with
  | none => exact h1
  | some l =>
    have h2 := h1.trans (State.onlyStore_takeSpare s1 (bankOf p))
    dsimp only
    split <;> rename_i heq <;> rw [heq] at h2 <;> exact h2.trans (State.onlyStore_commit _ _ _)

theorem State.onlyStore_erased (s : State) (p : Nat) (l : Option Nat) : s.onlyStore (s.erased p l) := by
  unfold State.erased
  extract_lets x s1 n s2
  have h1 : s.onlyStore s1 := (s.onlyStore_setSector _ _).trans (State.onlyStore_count _ _ _)
  have h2 : s.onlyStore s2 := by
    simp only [s2]
    split
    · exact h1.trans (State.onlyStore_raise _ _ _)
    · exact h1
  clear_value s2
  split
  · exact h2.trans (State.onlyStore_retirePhys _ _ _)
  · cases l with
    | none => exact h2.trans (State.onlyStore_toPool _ _)
    | some l =>
      dsimp only
      split
      · split
        · exact ((h2.trans (State.onlyStore_setPool _ _ _)).trans (State.onlyStore_toPool _ _)).trans
            (State.onlyStore_commit _ _ _)
        · exact h2.trans (State.onlyStore_setEnt _ _ _)
      · exact h2.trans (State.onlyStore_setEnt _ _ _)

theorem State.onlyStore_eraseNow (s : State) (p l : Nat) : s.onlyStore (s.eraseNow p l) := by
  unfold State.eraseNow
  extract_lets t q _ s1 s2
  have h2 : s.onlyStore s2 := (s.onlyStore_nv _).trans (State.onlyStore_setIntents _ _ _)
  clear_value s2
  exact ((h2.trans (State.onlyStore_setEnt _ _ _)).trans (State.onlyStore_erased _ _ _)).trans (State.onlyStore_intentDone _ _ _)

/-! ### The requests of a bank (R352, R360 to R365) -/

theorem State.onlyStore_beginErase (s : State) (b : Nat) (j : BankJob) (p : Nat) : s.onlyStore (s.beginErase b j p) := by
  unfold State.beginErase
  extract_lets t q rec_ _ s1 s2 _ s3 k
  have h2 : s.onlyStore s2 := (s.onlyStore_nv _).trans (State.onlyStore_setIntents _ _ _)
  clear_value s2
  have h3 : s.onlyStore s3 := by
    simp only [s3]
    split
    · exact h2.trans (State.onlyStore_setEnt _ _ _)
    · exact h2
  clear_value s3
  exact (h3.trans (State.onlyStore_setBank _ _ _)).trans (State.onlyStore_of_traced (State.traced_traceBegin _ _ _ _))

theorem State.onlyStore_beginProg (s : State) (b : Nat) (j : BankJob) (p : Nat) : s.onlyStore (s.beginProg b j p) :=
  (s.onlyStore_setBank _ _).trans (State.onlyStore_of_traced (State.traced_traceBegin _ _ _ _))

theorem State.onlyStore_nextJob (s : State) (b : Nat) (l : List BankJob) : s.onlyStore (s.nextJob b l) := by
  induction l generalizing s with
  | nil => exact s.onlyStore_setBank _ _
  | cons j r ih =>
    unfold State.nextJob
    extract_lets _ s1 p
    have h1 : s.onlyStore s1 := s.onlyStore_setBank _ _
    clear_value s1
    have answered (n : Nat) : s1.onlyStore (State.nextJob (s1.answer n) b r) := (s1.onlyStore_answer n).trans (ih _)
    refine h1.trans ?_
    split
    · split
      · exact s1.onlyStore_beginErase _ _ _
      · split
        · exact answered 0
        · exact answered 5
        · exact answered 8
        · exact ih s1
        · exact s1.onlyStore_beginErase _ _ _
    · split
      · exact answered 5
      · split
        · split
          · exact answered 0
          · exact s1.onlyStore_beginProg _ _ _
        · exact ((s1.onlyStore_answer _).trans (State.onlyStore_count _ _ _)).trans (ih _)

theorem State.onlyStore_startJobs (s : State) (b : Nat) : s.onlyStore (s.startJobs b) := by
  unfold State.startJobs
  split
  · split
    · exact s.onlyStore_refl
    · exact s.onlyStore_nextJob _ _
  · exact s.onlyStore_refl

theorem State.onlyStore_finishJob (s : State) (b : Nat) : s.onlyStore (s.finishJob b) := by
  unfold State.finishJob
  split
  · exact s.onlyStore_refl
  · extract_lets _ s1 s2
    have h1 : s.onlyStore s1 := s.onlyStore_setBank _ _
    have h2 : s1.onlyStore s2 := by
      simp only [s2]
      split
      · exact State.onlyStore_setEnt _ _ _
      · exact s1.onlyStore_refl
    clear_value s1 s2
    split
    · exact ((h1.trans (State.onlyStore_intentDone _ _ _)).trans (State.onlyStore_erased _ _ _)).trans (State.onlyStore_answer _ _)
    · exact (((h1.trans h2).trans (State.onlyStore_setSector _ _ _)).trans (State.onlyStore_count _ _ _)).trans
        (State.onlyStore_answer _ _)

theorem State.onlyStore_settleF (b f : Nat) (s : State) : s.onlyStore (State.settleF b f s) := by
  induction f generalizing s with
  | zero => exact s.onlyStore_refl
  | succ f ih =>
    unfold State.settleF
    split
    · exact s.onlyStore_refl
    · exact ((s.onlyStore_finishJob b).trans (State.onlyStore_startJobs _ b)).trans (ih _)

theorem State.onlyStore_settleBank (s : State) (b : Nat) : s.onlyStore (s.settleBank b) := by
  unfold State.settleBank
  split
  · exact s.onlyStore_refl
  · exact State.onlyStore_settleF _ _ s

theorem State.onlyStore_eraseLogical (s : State) (l : Nat) : s.onlyStore (s.eraseLogical l) := by
  unfold State.eraseLogical
  extract_lets busy s1
  have h1 : s.onlyStore s1 := by
    simp only [s1]
    split
    · exact s.onlyStore_settleBank _
    · exact s.onlyStore_refl
  clear_value s1
  have now := h1.trans (s1.onlyStore_eraseNow (s1.ent l).phys l)
  cases (s1.ent l).st with
  | written | refresh | poisoned => exact now
  | erasing | erased | unmapped | retired => exact h1

/-! ### Directory entries and installations (R283, R284, R286) -/

theorem State.onlyStore_freeLayers (s : State) (x : Nat) : s.onlyStore (s.freeLayers x) := by
  unfold State.freeLayers
  split
  · exact s.onlyStore_refl
  · exact (s.onlyStore_setDir x _).trans (State.onlyStore_foldl State.onlyStore_eraseLogical _ _)

theorem State.onlyStore_freeEntry (s : State) (x : Nat) : s.onlyStore (s.freeEntry x) := by
  unfold State.freeEntry
  split
  · exact s.onlyStore_refl
  · extract_lets s1 _ _ s2
    have h2 : s1.onlyStore s2 := rfl
    exact ((s.onlyStore_freeLayers x).trans h2).trans (State.onlyStore_foldl State.onlyStore_eraseLogical _ _)

/-- An installation undone reaches the store and the directory alone. -/
theorem State.onlyStore_undoInstall (s : State) (slot : Nat) : s.onlyStore (s.undoInstall slot) := by
  unfold State.undoInstall
  split
  · exact s.onlyStore_refl
  · exact (State.onlyStore_foldl State.onlyStore_freePlane _ s).trans (State.onlyStore_freeEntry _ _)

end Sys2Proof.Machine
end

section
/-!
PROOFS. The host link, the registers that the host writes, and what it reads (R332 to R336, R404, R405, R485), and with them O43.
-/

namespace Sys2Proof.Machine

/-! ### The host link (R334, R335, R351) -/

/-- The link's state is reported where its rate or width changes (R351). -/
theorem State.hostLink_eq (s : State) (up : Bool) (rate width : Nat) :
    s.hostLink up rate width =
      let u : State := { s with host.up := up, host.rate := rate, host.width := width }
      if s.host.rate = rate ∧ s.host.width = width then u else u.raise evHostLinkState [(1, rate), (1, width)] := by
  unfold State.hostLink
  by_cases h : s.host.rate = rate ∧ s.host.width = width
  · have hn : ¬ (s.host.rate ≠ rate ∨ s.host.width ≠ width) := by omega
    simp only [if_pos h, if_neg hn]
  · have hn : s.host.rate ≠ rate ∨ s.host.width ≠ width := by omega
    simp only [if_neg h, if_pos hn]

/-- What a filter takes out of a list, by number. -/
theorem length_sub_length_filter {α : Type} (l : List α) (p : α → Bool) :
    l.length - (l.filter p).length = (l.filter fun x => !p x).length := by
  have hsum : (l.filter p).length + (l.filter fun x => !p x).length = l.length := by
    induction l with
    | nil => rfl
    | cons x r ih =>
      rw [List.filter_cons, List.filter_cons, List.length_cons]
      cases p x <;> simp only [Bool.not_false, Bool.not_true, Bool.false_eq_true, if_true, if_false, List.length_cons] <;> omega
  omega

/-- The rings' reset keeps the completions of abandoned installations and counts the others (R335). -/
theorem State.loseHeld_eq (s : State) : s.loseHeld =
    ({ s with host.held := s.host.held.filter (·.status == 0x0B) } : State).count (kHost 3)
      (s.host.held.filter (·.status != 0x0B)).length := by
  unfold State.loseHeld
  dsimp only
  rw [length_sub_length_filter]
  rfl

/-- Each completion that the rings' reset discards is counted (R335). -/
theorem State.ctr_hostReset (s : State) :
    s.ctrAdd s.hostReset (kHost 3) (s.host.held.filter (·.status != 0x0B)).length := by
  have h : s.hostReset.ctr (kHost 3) = s.loseHeld.ctr (kHost 3) := rfl
  rw [State.ctrAdd, h, State.loseHeld_eq, State.ctr_count_self]
  rfl

/-- A training of lit lasers to a rate and width of the link (R332, R336), a retrain where one came before it (R351). -/
theorem execHostLinkUp_of_lit (s : State) (rate width : Nat) (hl : s.port.lit = true) (hd : nth false s.port.dark 0 = false)
    (hr : rate ∈ [8, 16, 32]) (hw : width ∈ [1, 2, 4]) :
    execHostLinkUp rate width s = .next
      ((State.hostLink { s with host.trained := true } true rate width).count (kHost 0) (b2n s.host.trained)) := by
  have hr' : rate = 8 ∨ rate = 16 ∨ rate = 32 := by simpa using hr
  have hw' : width = 1 ∨ width = 2 ∨ width = 4 := by simpa using hw
  simp [execHostLinkUp, hl, hd, hr', hw', or_assoc]

theorem State.dmaStopped_of_none (s : State) (h : s.model.install = none) : s.dmaStopped = s := by
  simp only [State.dmaStopped, h]

/-- An abandoned installation from host memory leaves its completion held, behind those held already, and is owed no more (R335). -/
theorem State.dmaStopped_of_host (s : State) (i : Install) (h : s.model.install = some i) (hi : i.cmd.src = .host) :
    s.dmaStopped.host.owed = s.host.owed - 1 ∧
      s.dmaStopped.host.held = s.host.held ++ [⟨.host, i.cmd.tag, 0x0B, 0, 0, 0, i.cmd.irq, s.host.sq.head, []⟩] := by
  have hu := State.onlyStore_undoInstall { s with model.install := none } i.slot
  simp only [State.dmaStopped, h, hi, ne_eq, not_true_eq_false, if_false]
  rw [hu]
  exact ⟨rfl, rfl⟩

/-! ### Registers that the host writes (R7, R333, R404, R405) -/

/-- Taking away the bits shared with a mask clears the mask's bits. -/
theorem testBit_sub_and (a m i : Nat) : (a - (a &&& m)).testBit i = (a.testBit i && !m.testBit i) := by
  have hle : a &&& m ≤ a := Nat.and_le_left
  have hlow : (a &&& m) % 2 = a % 2 &&& m % 2 := Nat.and_mod_two_pow (n := 1)
  have hlow_le : a % 2 &&& m % 2 ≤ a % 2 := Nat.and_le_left
  induction i generalizing a m with
  | zero =>
    have h : (a - (a &&& m)) % 2 = a % 2 - (a % 2 &&& m % 2) := by omega
    simp only [Nat.testBit_zero, h]
    rcases Nat.mod_two_eq_zero_or_one a with ha | ha <;> rcases Nat.mod_two_eq_zero_or_one m with hm | hm <;> simp [ha, hm]
  | succ i ih =>
    have h : (a - (a &&& m)) / 2 = a / 2 - (a / 2 &&& m / 2) := by
      rw [← Nat.and_div_two]
      omega
    simp only [Nat.testBit_succ, h]
    exact ih _ _ Nat.and_le_left (Nat.and_mod_two_pow (n := 1)) Nat.and_le_left

/-- The low bits of a register, bit by bit. -/
theorem testBit_fld_zero {n : Nat} (w : BitVec n) (hi i : Nat) :
    (fld w hi 0).testBit i = (decide (i < hi + 1) && w.getLsbD i) := by
  simp [fld, bf, BitVec.getLsbD]

theorem toNat_append_eq_add {m n : Nat} (x : BitVec m) (y : BitVec n) : (x ++ y).toNat = x.toNat * 2 ^ n + y.toNat := by
  rw [BitVec.toNat_append, ← Nat.shiftLeft_add_eq_or_of_lt y.isLt, Nat.shiftLeft_eq]

/-- The low half of an MSI-X entry replaced (R332). -/
theorem ofNat_lowHalf (e : BitVec 128) (v : DWord) :
    BitVec.ofNat 128 (e.toNat / 2 ^ 64 * 2 ^ 64 + v.toNat) = e.extractLsb' 64 64 ++ v := by
  apply BitVec.eq_of_toNat_eq
  rw [toNat_append_eq_add, BitVec.extractLsb'_toNat, BitVec.toNat_ofNat, Nat.shiftRight_eq_div_pow]
  omega

/-- The high half of an MSI-X entry replaced (R332). -/
theorem ofNat_highHalf (e : BitVec 128) (v : DWord) :
    BitVec.ofNat 128 (v.toNat * 2 ^ 64 + e.toNat % 2 ^ 64) = v ++ e.extractLsb' 0 64 := by
  apply BitVec.eq_of_toNat_eq
  rw [toNat_append_eq_add, BitVec.extractLsb'_toNat, BitVec.toNat_ofNat, Nat.shiftRight_eq_div_pow]
  omega

/-- Every entry of the MSI-X table after one half of entry `k` is written: the low one at an offset that is a multiple of 16. -/
theorem tget_msixHalf (m : Tab (BitVec 128)) (k off : Nat) (v : DWord) (i : Nat) :
    tget 0 (tset 0 m k (BitVec.ofNat 128 (if off % 16 = 0 then (tget 0 m k).toNat / 2 ^ 64 * 2 ^ 64 + v.toNat
      else v.toNat * 2 ^ 64 + (tget 0 m k).toNat % 2 ^ 64))) i =
    if i ≠ k then tget 0 m i
    else if off % 16 = 0 then (tget 0 m i).extractLsb' 64 64 ++ v else v ++ (tget 0 m i).extractLsb' 0 64 := by
  by_cases hi : i = k
  · subst hi
    rw [tget_tset_self, if_neg (not_not_intro rfl)]
    split
    · exact ofNat_lowHalf _ v
    · exact ofNat_highHalf _ v
  · rw [if_pos hi, tget_tset_ne _ _ _ _ _ hi]

/-- The state after a vector of the MSI-X table is looked at again: sent where it is unmasked with its pending bit set (R332). -/
def State.msixRetry (s : State) (i : Nat) : State :=
  if s.host.pba.contains i && !s.vecMasked i then { s with host.pba := s.host.pba.filter (· != i) }.emit (.msix i) else s

/-- A retry changes the pending bits and what is sent, and so no mask. -/
theorem State.msixRetry_eq (s : State) (i : Nat) :
    s.msixRetry i = { s with host.pba := (s.msixRetry i).host.pba, out := (s.msixRetry i).out } := by
  unfold State.msixRetry
  split <;> rfl

theorem State.msixRetry_msix (s : State) (i : Nat) : (s.msixRetry i).host.msix = s.host.msix := by
  rw [State.msixRetry_eq]

theorem State.vecMasked_msixRetry (s : State) (i j : Nat) : (s.msixRetry i).vecMasked j = s.vecMasked j := by
  rw [State.vecMasked, State.msixRetry_msix, State.vecMasked]

/-- A retried vector leaves the pending bits where it is sent, and stays as it was where it is not pending or is masked. -/
theorem State.msixRetry_spec (s : State) (i : Nat) :
    let t := s.msixRetry i
    (i ∈ s.host.pba → t.vecMasked i = false → t.out = s.out ++ [.msix i] ∧ t.host.pba = s.host.pba.filter (· != i)) ∧
    (i ∉ s.host.pba ∨ t.vecMasked i = true → t.out = s.out ∧ t.host.pba = s.host.pba) := by
  intro t
  have hv : t.vecMasked i = s.vecMasked i := s.vecMasked_msixRetry i i
  rw [hv]
  refine ⟨fun hi hm => ?_, fun h => ?_⟩
  · have ht : t = { s with host.pba := s.host.pba.filter (· != i) }.emit (.msix i) := if_pos (by simp [hi, hm])
    rw [ht]
    exact ⟨rfl, rfl⟩
  · have ht : t = s := if_neg (by obtain h | h := h <;> simp [h])
    rw [ht]
    exact ⟨rfl, rfl⟩

/-- An MSI-X register written while the link is up in D0: half an entry, and its vector retried (R332, R333). -/
theorem execRegisterWrite_of_msix (s : State) (v : DWord) (off : Nat) (hup : s.host.up = true) (hd : s.host.d3 = false)
    (hlo : 0xF0000 ≤ off) (hhi : off < 0xF0200) (ha : off % 8 = 0) :
    ∃ m, execRegisterWrite off v s = .next (State.msixRetry { s with host.msix := m } ((off - 0xF0000) / 16)) ∧
      ∀ i, tget 0 m i = if i ≠ (off - 0xF0000) / 16 then tget 0 s.host.msix i
        else if off % 16 = 0 then (tget 0 s.host.msix i).extractLsb' 64 64 ++ v
        else v ++ (tget 0 s.host.msix i).extractLsb' 0 64 := by
  refine ⟨_, ?_, tget_msixHalf _ _ off v⟩
  rw [execRegisterWrite, if_pos ⟨hup, by simp [hd], hlo, hhi, ha⟩]
  rfl

theorem execRegisterWrite_of_other (s : State) (v : DWord) (off : Nat) (h : off < 0xF0000 ∨ 0xF0200 ≤ off ∨ off % 8 ≠ 0) :
    execRegisterWrite off v s = .next s := by
  rw [execRegisterWrite, if_neg (by omega)]

/-! ### Event records of peers (R484, R485) -/

theorem length_leBytes (n w : Nat) : (leBytes n w).length = n := by
  induction n generalizing w with
  | zero => rfl
  | succ n ih => simp [leBytes, ih]

/-- A number read back from its little-endian bytes. -/
theorem leNat_leBytes (n w : Nat) (h : w < 256 ^ n) : leNat (leBytes n w) = w := by
  induction n generalizing w with
  | zero => simp_all [leBytes, leNat]
  | succ n ih =>
    have hq : w / 256 < 256 ^ n := Nat.div_lt_of_lt_mul (by rwa [Nat.pow_succ'] at h)
    rw [leBytes, leNat, ih _ hq, BitVec.toNat_ofNat]
    omega

theorem fit_length_self {α : Type} (d : α) (l : List α) : fit d l.length l = l := by
  induction l with
  | nil => rfl
  | cons x r ih => simp [fit, ih]

/-- A record taken apart again as the engine lays it out (R484). -/
theorem evRec_of_bytes (e : EvRec) (rec_ : List Byte) (he : leBytes 8 e.ts ++ leBytes 8 e.word ++ e.payload = rec_)
    (hl : rec_.length = 32) (ht : e.ts < 2 ^ 64) (hw : e.word < 2 ^ 64) :
    (⟨leAt rec_ 0 8, leAt rec_ 8 8, fit 0 16 (rec_.drop 16)⟩ : EvRec) = e := by
  obtain ⟨ts, word, payload⟩ := e
  subst he
  have hp : payload.length = 16 := by
    simp only [List.length_append, length_leBytes] at hl
    omega
  have hts : leAt (leBytes 8 ts ++ leBytes 8 word ++ payload) 0 8 = ts := by
    rw [leAt, List.drop_zero, List.append_assoc, List.take_left' (length_leBytes 8 ts), leNat_leBytes 8 ts ht]
  have hword : leAt (leBytes 8 ts ++ leBytes 8 word ++ payload) 8 8 = word := by
    rw [leAt, List.append_assoc, List.drop_left' (length_leBytes 8 ts), List.take_left' (length_leBytes 8 word),
      leNat_leBytes 8 word hw]
  have hpay : fit 0 16 ((leBytes 8 ts ++ leBytes 8 word ++ payload).drop 16) = payload := by
    rw [List.drop_left' (by simp [length_leBytes]), ← hp, fit_length_self]
  rw [hts, hword, hpay]

/-! ### Numbers made of bits -/

theorem sumN_concat (l : List Nat) (x : Nat) : sumN (l ++ [x]) = sumN l + x := by simp [sumN]

/-- The numbers below `n` that meet `p`, as bits. -/
def bitsWhere (n : Nat) (p : Nat → Bool) : Nat := sumN ((List.range n).map fun v => if p v then 2 ^ v else 0)

theorem bitsWhere_succ (n : Nat) (p : Nat → Bool) : bitsWhere (n + 1) p = 2 ^ n * (p n).toNat + bitsWhere n p := by
  unfold bitsWhere
  rw [List.range_succ, List.map_append, List.map_singleton, sumN_concat, Nat.add_comm]
  cases p n <;> simp

theorem bitsWhere_lt (n : Nat) (p : Nat → Bool) : bitsWhere n p < 2 ^ n := by
  induction n with
  | zero => exact Nat.one_pos
  | succ n ih =>
    rw [bitsWhere_succ, Nat.pow_succ]
    cases p n <;> simp <;> omega

theorem testBit_bitsWhere (n : Nat) (p : Nat → Bool) (i : Nat) : (bitsWhere n p).testBit i = (decide (i < n) && p i) := by
  induction n with
  | zero => simp [bitsWhere, sumN]
  | succ n ih =>
    rw [bitsWhere_succ, Nat.testBit_two_pow_mul_add _ (bitsWhere_lt n p)]
    obtain hlt | rfl | hgt := Nat.lt_trichotomy i n
    · rw [if_pos hlt, ih, decide_eq_true hlt, decide_eq_true (Nat.lt_succ_of_lt hlt)]
    · rw [if_neg (Nat.lt_irrefl i), Nat.sub_self, decide_eq_true (Nat.lt_succ_self i), Bool.true_and]
      cases p i <;> rfl
    · have hbit : (p n).toNat < 2 ^ (i - n) := Nat.lt_of_le_of_lt (Bool.toNat_le _) (Nat.one_lt_two_pow (by omega))
      rw [if_neg (by omega), Nat.testBit_lt_two_pow hbit, decide_eq_false (by omega), Bool.false_and]

/-! ### Host reads (R404, R405) -/

theorem State.bar0Read_of_aligned (s : State) (off size : Nat) (h : (size = 4 ∨ size = 8) ∧ off % size = 0) :
    s.bar0Read off size = s.reg64 (off / 8 * 8) / 2 ^ (8 * (off % 8)) % 2 ^ (8 * size) := if_pos h

theorem State.bar0Read_of_bad (s : State) (off size : Nat) (h : ¬ ((size = 4 ∨ size = 8) ∧ off % size = 0)) :
    s.bar0Read off size = 0 := if_neg h

theorem State.bar0Read_whole (s : State) (off : Nat) (h : off % 8 = 0) : s.bar0Read off 8 = s.reg64 off % 2 ^ 64 := by
  rw [s.bar0Read_of_aligned off 8 ⟨.inr rfl, h⟩, h, show off / 8 * 8 = off by omega, Nat.mul_zero, Nat.pow_zero, Nat.div_one]

theorem State.bar0Read_low (s : State) (off : Nat) (h : off % 8 = 0) : s.bar0Read off 4 = s.reg64 off % 2 ^ 32 := by
  rw [s.bar0Read_of_aligned off 4 ⟨.inl rfl, by omega⟩, h, show off / 8 * 8 = off by omega, Nat.mul_zero, Nat.pow_zero, Nat.div_one]

theorem State.bar0Read_high (s : State) (off : Nat) (h : off % 8 = 0) :
    s.bar0Read (off + 4) 4 = s.reg64 off / 2 ^ 32 % 2 ^ 32 := by
  rw [s.bar0Read_of_aligned (off + 4) 4 ⟨.inl rfl, by omega⟩, show (off + 4) / 8 * 8 = off by omega,
    show (off + 4) % 8 = 4 by omega]

/-- Eight bytes read as the two words of four (R404). -/
theorem State.bar0Read_eight (s : State) (off : Nat) (h : off % 8 = 0) :
    s.bar0Read off 8 = s.bar0Read (off + 4) 4 * 2 ^ 32 + s.bar0Read off 4 := by
  rw [s.bar0Read_whole off h, s.bar0Read_low off h, s.bar0Read_high off h]
  omega

/-! Where the registers lie (R405, R406, R333). -/
theorem State.reg64_id (s : State) : s.reg64 0 = idReg := if_pos rfl
theorem State.reg64_run (s : State) : s.reg64 0x20 = s.runReg := rfl
theorem State.reg64_clk (s : State) : s.reg64 0x38 = s.time.freqOff.toNat * 2 ^ 32 + s.clkReg := rfl
theorem State.reg64_evt (s : State) : s.reg64 0x48 = s.evtReg := rfl
theorem State.reg64_sqHead (s : State) : s.reg64 0x220 = s.host.sq.head % 2 ^ 16 := rfl
theorem State.reg64_pba (s : State) : s.reg64 0xF8000 = bitsWhere 32 s.host.pba.contains := by simp [State.reg64, bitsWhere]

/-- The doorbells are write-only (R404, R406). -/
theorem State.reg64_doorbell (s : State) (off : Nat) (hlo : 0x200 ≤ off) (hhi : off < 0x220) : s.reg64 off = 0 := by
  unfold State.reg64
  repeat rw [if_neg (by omega)]

theorem State.bar0Read_doorbell (s : State) (off size : Nat) (hlo : 0x200 ≤ off) (hhi : off < 0x220) :
    s.bar0Read off size = 0 := by
  by_cases h : (size = 4 ∨ size = 8) ∧ off % size = 0
  · rw [s.bar0Read_of_aligned off size h, s.reg64_doorbell _ (by omega) (by omega), Nat.zero_div, Nat.zero_mod]
  · exact s.bar0Read_of_bad off size h

theorem b2n_le_one (b : Bool) : b2n b ≤ 1 := by cases b <;> decide

theorem runCode_lt (x : RunState) : runCode x < 8 := by cases x <;> decide

theorem bridleCode_lt (x : Bridle) : bridleCode x < 8 := by cases x <;> decide

theorem State.pendTarget_lt (s : State) : s.pendTarget < 8 := by
  unfold State.pendTarget
  split
  · exact runCode_lt _
  · split
    · decide
    · split
      · split
        · decide
        · exact runCode_lt _
      · decide

theorem ux_lt (n : Nat) (i : Int) : ux n i < 2 ^ n := by
  have h : (0 : Int) < ((2 ^ n : Nat) : Int) := Int.natCast_pos.2 (Nat.two_pow_pos n)
  have hlt := Int.emod_lt_of_pos i h
  have hnn := Int.emod_nonneg i (Int.ne_of_gt h)
  unfold ux
  omega

/-- RUN_STATE holds the quantum index in its low half. -/
theorem State.runReg_low (s : State) : s.runReg % 2 ^ 32 = s.qindex % 2 ^ 32 := by
  unfold State.runReg
  omega

/-- RUN_STATE holds the run state in its top three bits. -/
theorem State.runReg_top (s : State) : s.runReg % 2 ^ 64 / 2 ^ 61 = runCode s.run.st := by
  have hc := runCode_lt s.run.st
  have hp := b2n_le_one s.runPending
  have ht := s.pendTarget_lt
  have hs := b2n_le_one (s.run.shut == 4)
  have hh := b2n_le_one s.obs.halted
  unfold State.runReg
  omega

/-- CLK_STATUS holds the bridle's state in its top three bits, and the rest of the register below them. -/
theorem State.clkReg_top (s : State) : s.clkReg / 2 ^ 29 = bridleCode s.time.st := by
  have hr := b2n_le_one s.rephaseEn
  have hs := b2n_le_one s.time.stepped
  have hl := b2n_le_one s.time.lockLost
  have hu := ux_lt 16 s.phaseOffset
  have hsrc : (if s.time.st = .freeRun then 0 else s.time.src % 8) < 8 := by split <;> omega
  unfold State.clkReg
  dsimp only
  omega

theorem State.evtReg_high (s : State) : s.evtReg / 2 ^ 32 = s.host.evCount % 2 ^ 32 := by
  have h := b2n_le_one s.host.eqOvf
  unfold State.evtReg
  omega

theorem State.msix_eq (s : State) (v : Nat) : s.msix v =
    if s.vecMasked v = true then { s with host.pba := if v ∈ s.host.pba then s.host.pba else v :: s.host.pba }
    else s.emit (.msix v) := by
  simp only [State.msix, List.contains_iff_mem]

end Sys2Proof.Machine

namespace Sys2Proof

open Machine

theorem claims_hostLink : Claims.HostLink := by
  intro s linked r
  have link (t : State) (up : Bool) (rate width : Nat) : t.hostLink up rate width = linked t up rate width :=
    t.hostLink_eq up rate width
  refine ⟨⟨rfl, rfl, rfl, rfl, rfl, rfl, rfl, rfl, rfl, rfl, fun _ => s.ctr_hostReset⟩, fun rate width hlit hdark hr hw => ?_,
    fun hup => ⟨?_, ?_, ?_⟩, ?_, fun hd => ?_, s.dmaStopped_of_none, s.dmaStopped_of_host, rfl, rfl⟩
  · rw [exec_hostLinkUp, execHostLinkUp_of_lit s rate width hlit hdark hr hw, link]
    rfl
  · rw [exec_hostLinkDown, execHostLinkDown, if_pos hup, link]
  · rw [exec_hostFlr, execHostFlr, if_pos hup]
  · rw [exec_hostD3hotEntry, execHostD3hotEntry, if_pos hup]
  · rw [exec_hostHotReset, execHostHotReset, link]
  · rw [exec_hostD0Return, execHostD0Return, if_pos hd]

theorem claims_hostRegisters : Claims.HostRegisters := by
  intro s v off
  refine ⟨⟨_, exec_evtSummaryClear v s, rfl, rfl, fun i => ?_⟩, fun hup hd hlo hhi ha => ?_, fun h => ?_, fun size w => rfl,
    fun rec_ hl e he ht hw hc => ?_⟩
  · exact (testBit_sub_and _ _ i).trans (by rw [testBit_fld_zero])
  · obtain ⟨m, hm, hentry⟩ := execRegisterWrite_of_msix s v off hup hd hlo hhi ha
    generalize (off - 0xF0000) / 16 = k at *
    have hretry := State.msixRetry_spec { s with host.msix := m } k
    refine ⟨_, (exec_registerWrite off v s).trans hm, ?_, hretry, fun i => ?_⟩
    · rw [State.msixRetry_msix]
      exact State.msixRetry_eq _ _
    · rw [State.msixRetry_msix]
      exact hentry i
  · exact (exec_registerWrite off v s).trans (execRegisterWrite_of_other s v off h)
  · rw [exec_eventForwardReceive, execEventForwardReceive, hc, evRec_of_bytes e rec_ he hl ht hw]
    rfl

theorem claims_hostReads : Claims.HostReads := by
  intro s
  refine ⟨s.bar0Read_of_bad, s.bar0Read_eight, s.bar0Read_doorbell, ?_, ?_, ?_, ?_, fun v hv => ?_, s.msix_eq, ?_, ?_⟩
  · rw [s.bar0Read_whole 0 rfl, s.reg64_id]
  · rw [s.bar0Read_low 0x20 rfl, s.reg64_run, s.runReg_low]
  · rw [s.bar0Read_whole 0x220 rfl, s.reg64_sqHead]
    omega
  · rw [s.bar0Read_high 0x48 rfl, s.reg64_evt, s.evtReg_high]
    omega
  · rw [s.bar0Read_whole 0xF8000 rfl, s.reg64_pba, Nat.testBit_mod_two_pow, testBit_bitsWhere]
    simp [hv, Nat.lt_trans hv (by decide : 32 < 64)]
  · rw [s.bar0Read_whole 0x20 rfl, s.reg64_run, s.runReg_top]
  · rw [s.bar0Read_low 0x38 rfl, s.reg64_clk]
    have htop := s.clkReg_top
    have hb := bridleCode_lt s.time.st
    omega

/-- Settles O43: the events of the link by what the rings' reset and an installation undone leave, the writes by the one half of
an MSI-X entry that they replace, and the reads by the register at each offset. -/
theorem hostLinkAndRegisters : Obligations.HostLinkAndRegisters :=
  ⟨claims_hostLink, claims_hostRegisters, claims_hostReads⟩

end Sys2Proof
end

section
/-!
PROOFS. What the results of lanes and of a scalar do to a core, how the instructions on vector registers complete, and with it O12
and O13 (R82, R83, R92, R220, R223 to R227).
-/

namespace Sys2Proof.Machine

/-! ### Sums and maxima of a list -/

theorem sumN_eq_sum (l : List Nat) : sumN l = l.sum := List.sum_eq_foldl_nat.symm

theorem sumI_eq_sum (l : List Int) : sumI l = l.sum := List.sum_eq_foldl.symm

theorem sumBy_eq_sum (l : List Lane) (f : Lane → Nat) : sumBy l f = (l.map f).sum := sumN_eq_sum _

theorem maxN_map {α : Type} (l : List α) (f : α → Nat) : maxN (l.map f) = l.foldl (fun m x => max m (f x)) 0 := List.foldl_map

/-! ### The conditions of a result (R82, R83) -/

theorem Core.ite_flagOn (c : Core) (n b : Nat) :
    (if n = 0 then c else c.flagOn b) = { c with flags := c.flags ||| (if n = 0 then 0 else b) } := by
  by_cases h : n = 0
  · rw [if_pos h, if_pos h, Nat.or_zero]
  · rw [if_neg h, if_neg h, Core.flagOn]

/-- What a result with conditions does: the flags of those that occurred, and the counts of each (R82, R83). -/
theorem Fx.fp_sats (c : Core) (sats nans infs ovfs : Nat) : (Fx.sats ⟨c, []⟩ sats).fp nans infs ovfs =
    ⟨{ c with flags := laneFlags c.flags sats nans infs ovfs },
      [(16, nans), (17, infs), (15, ovfs), (11, sats)].filter fun p => p.2 != 0⟩ := by
  have hsats : Fx.sats ⟨c, []⟩ sats =
      ⟨{ c with flags := c.flags ||| (if sats = 0 then 0 else 0x80) }, [(11, sats)].filter fun p => p.2 != 0⟩ := by
    rw [← Core.ite_flagOn]
    by_cases h : sats = 0 <;> simp [Fx.sats, h]
  simp only [hsats, Fx.fp, Core.ite_flagOn, laneFlags, ← List.filter_append, List.cons_append, List.nil_append]

/-- Counts of zero add nothing. -/
theorem Fx.total_filter_ne_zero (c : Core) (l : Cnts) (o : Nat) :
    Fx.total ⟨c, l.filter fun p => p.2 != 0⟩ o = Fx.total ⟨c, l⟩ o := by
  simp only [Fx.total, List.filter_filter]
  induction l with
  | nil => rfl
  | cons p r ih =>
    obtain ⟨j, n⟩ := p
    by_cases hn : n = 0 <;> by_cases hj : j = o <;> simp [hn, hj, ih]

theorem Fx.total_fp_sats (c : Core) (sats nans infs ovfs o : Nat) : ((Fx.sats ⟨c, []⟩ sats).fp nans infs ovfs).total o =
    Fx.total ⟨c, [(16, nans), (17, infs), (15, ovfs), (11, sats)]⟩ o := by
  rw [Fx.fp_sats, ← Fx.total_filter_ne_zero c]
  rfl

theorem Fx.fp_sats_zero (c : Core) : (Fx.sats ⟨c, []⟩ 0).fp 0 0 0 = ⟨c, []⟩ := rfl

/-- The conditions are counted by counters of the core (R213). -/
theorem Fx.fp_sats_lt (c : Core) (sats nans infs ovfs : Nat) : ∀ p ∈ ((Fx.sats ⟨c, []⟩ sats).fp nans infs ovfs).n, p.1 < 24 := by
  have named : ∀ p ∈ [(16, nans), (17, infs), (15, ovfs), (11, sats)], p.1 < 24 := by simp
  rw [Fx.fp_sats]
  exact fun p hp => named p (List.mem_filter.1 hp).1

/-! ### Results of one value (R83, R220) -/

theorem sat32_of_lt {v : Int} (h : v < -2 ^ 31) : sat v 32 = -2 ^ 31 := by
  simp only [sat]
  omega

theorem sat32_of_le {v : Int} (h : 2 ^ 31 ≤ v) : sat v 32 = 2 ^ 31 - 1 := by
  simp only [sat]
  omega

theorem sat32_of_fits {v : Int} (hlo : -2 ^ 31 ≤ v) (hhi : v < 2 ^ 31) : sat v 32 = v := by
  simp only [sat]
  omega

/-- A result below S32 saturates to the least value of S32. -/
theorem Lane.int_of_lt {v : Int} (h : v < -2 ^ 31) : Lane.int false v = ⟨2 ^ 31, 1, 0, 0, 0⟩ := by
  have hhit : satHit v 32 = true := bne_iff_ne.2 (by rw [sat32_of_lt h]; omega)
  simp [Lane.int, intRes, hhit, sat32_of_lt h, ux, b2n]

/-- A result above S32 saturates to the greatest value of S32. -/
theorem Lane.int_of_le {v : Int} (h : 2 ^ 31 ≤ v) : Lane.int false v = ⟨2 ^ 31 - 1, 1, 0, 0, 0⟩ := by
  have hhit : satHit v 32 = true := bne_iff_ne.2 (by rw [sat32_of_le h]; omega)
  simp [Lane.int, intRes, hhit, sat32_of_le h, ux, b2n]

/-- A result that S32 holds, or one in the modulo form, is its low 32 bits. -/
theorem Lane.int_of_fits {modw : Bool} {v : Int} (h : modw = false → -2 ^ 31 ≤ v ∧ v < 2 ^ 31) :
    Lane.int modw v = ⟨(v % 2 ^ 32).toNat, 0, 0, 0, 0⟩ := by
  cases modw with
  | true => rfl
  | false =>
    obtain ⟨hlo, hhi⟩ := h rfl
    simp [Lane.int, intRes, satHit, sat32_of_fits hlo hhi, ux, b2n]

/-- The low 32 bits of an integer result, or with saturation the nearest bound where S32 does not hold it. -/
theorem Lane.int_eq (modw : Bool) (v : Int) : Lane.int modw v =
    if modw = false ∧ v < -2 ^ 31 then ⟨2 ^ 31, 1, 0, 0, 0⟩
    else if modw = false ∧ 2 ^ 31 ≤ v then ⟨2 ^ 31 - 1, 1, 0, 0, 0⟩
    else ⟨(v % 2 ^ 32).toNat, 0, 0, 0, 0⟩ := by
  by_cases hlo : modw = false ∧ v < -2 ^ 31
  · obtain ⟨rfl, hv⟩ := hlo
    rw [if_pos ⟨rfl, hv⟩, Lane.int_of_lt hv]
  · rw [if_neg hlo]
    by_cases hhi : modw = false ∧ 2 ^ 31 ≤ v
    · obtain ⟨rfl, hv⟩ := hhi
      rw [if_pos ⟨rfl, hv⟩, Lane.int_of_le hv]
    · rw [if_neg hhi]
      exact Lane.int_of_fits fun hm => ⟨Int.not_lt.1 fun hv => hlo ⟨hm, hv⟩, Int.not_le.1 fun hv => hhi ⟨hm, hv⟩⟩

theorem Core.flags_setS (c : Core) (r v : Nat) : (c.setS r v).flags = c.flags := by
  unfold Core.setS
  split <;> rfl

theorem Core.one_pure (c : Core) (sd v : Nat) : c.one sd (.pure v) = wordFx c sd v := rfl

/-- A saturated result in a scalar register sets SAT and is counted (R83). -/
theorem Core.one_saturated (c : Core) (sd w : Nat) :
    c.one sd ⟨w, 1, 0, 0, 0⟩ = ⟨{ c.setS sd w with flags := c.flags ||| 0x80 }, [(11, 1)]⟩ := by
  rw [← c.flags_setS sd w]
  rfl

/-- A scalar integer result acts on a core as `intFx` says (R83, R220). -/
theorem Core.one_int (c : Core) (sd : Nat) (modw : Bool) (v : Int) : c.one sd (.int modw v) = intFx c sd modw v := by
  unfold intFx
  by_cases h : modw = false ∧ (v < -2 ^ 31 ∨ 2 ^ 31 ≤ v)
  · rw [if_pos h]
    obtain ⟨rfl, hlo | hhi⟩ := h
    · rw [Lane.int_of_lt hlo, Core.one_saturated, if_pos (by omega)]
    · rw [Lane.int_of_le hhi, Core.one_saturated, if_neg (by omega)]
  · rw [if_neg h, Lane.int_of_fits fun hm => ⟨Int.not_lt.1 fun hv => h ⟨hm, .inl hv⟩, Int.not_le.1 fun hv => h ⟨hm, .inr hv⟩⟩]
    exact c.one_pure sd _

/-! ### Results of lanes (R223) -/

theorem Core.lanes_eq (c : Core) (vd : Nat) (l : List Lane) : c.lanes vd l =
    (Fx.sats ⟨c.setV vd (l.map (·.val)), []⟩ (l.map (·.sat)).sum).fp
      (l.map (·.nan)).sum (l.map (·.inf)).sum (l.map (·.ovf)).sum := by
  simp only [Core.lanes, sumBy_eq_sum]

theorem sum_map_pure (f : Lane → Nat) (hf : ∀ v, f (.pure v) = 0) (l : List Nat) : ((l.map Lane.pure).map f).sum = 0 := by
  induction l with
  | nil => rfl
  | cons v r ih => rw [List.map_cons, List.map_cons, List.sum_cons, hf, ih]

theorem map_val_map_pure (l : List Nat) : (l.map Lane.pure).map (·.val) = l := by
  rw [List.map_map]
  exact List.map_id l

/-- Lanes that raise nothing only write their register. -/
theorem Core.lanes_pure (c : Core) (vd : Nat) (l : List Nat) : c.lanes vd (l.map Lane.pure) = ⟨c.setV vd l, []⟩ := by
  have quiet (f : Lane → Nat) (hf : ∀ v, f (.pure v) = 0) := sum_map_pure f hf l
  rw [Core.lanes_eq, map_val_map_pure, quiet _ fun _ => rfl, quiet _ fun _ => rfl, quiet _ fun _ => rfl, quiet _ fun _ => rfl,
    Fx.fp_sats_zero]

/-! ### How an instruction on registers completes (R213, R214) -/

/-- A legal register instruction completes with its effect on the core. -/
theorem completes_reg {i : Instr} {s : State} {k : Nat} {legal : Bool} {f : Core → Fx} {g : Fx} (hs : s.issues k) (hl : legal = true)
    (hi : exec i s = s.reg k legal f) (hf : f (s.core k) = g) (hn : ∀ p ∈ g.n, p.1 < 24) : Completes i s k g :=
  completes_of_retire hs hn (by rw [hi, s.reg_spec k legal f hs hl, hf])

/-- A legal instruction whose effect is the lanes `l` of register `vd` completes with them. -/
theorem completes_lanes {i : Instr} {s : State} {k vd : Nat} {legal : Bool} {f : Core → Fx} {l : List Lane} (hs : s.issues k)
    (hl : legal = true) (hi : exec i s = s.reg k legal f) (hf : f (s.core k) = (s.core k).lanes vd l) :
    Completes i s k ((s.core k).lanes vd l) :=
  completes_reg hs hl hi hf (Fx.fp_sats_lt _ _ _ _ _)

/-- A legal instruction whose effect is one result in scalar register `sd` completes with it. -/
theorem completes_one {i : Instr} {s : State} {k sd : Nat} {legal : Bool} {f : Core → Fx} {x : Lane} (hs : s.issues k)
    (hl : legal = true) (hi : exec i s = s.reg k legal f) (hf : f (s.core k) = (s.core k).one sd x) :
    Completes i s k ((s.core k).one sd x) :=
  completes_reg hs hl hi hf (Fx.fp_sats_lt _ _ _ _ _)

/-- An operation on three registers, the first of them the one written, lane by lane (R223). -/
def Core.lane3 (c : Core) (o : Ops23) (f : Nat → Nat → Nat → Lane) : Fx :=
  c.lanes (oVD o) (((c.vd o).zip ((c.va o).zip (c.vb o))).map fun p => f p.1 p.2.1 p.2.2)

/-! ### Instructions whose lane function the model writes by cases or with its own number functions (R224) -/

theorem completes_iVcmplt_int {s : State} {k : Nat} {o : Ops23} (hs : s.issues k) (hl : vrOk useABT o = true) (ht : oTY o = 0) :
    Completes (.iVcmplt k o) s k ((s.core k).lane2 o fun a b => .pure (if sx 32 a < sx 32 b then 1 else 0)) := by
  refine completes_lanes hs hl (exec_iVcmplt k o s) ?_
  simp only [ht, if_true, b2n, decide_eq_true_eq]
  rfl

theorem completes_iVcmplt_fp {s : State} {k : Nat} {o : Ops23} (hs : s.issues k) (hl : vrOk useABT o = true) (ht : oTY o ≠ 0) :
    Completes (.iVcmplt k o) s k ((s.core k).lane2 o fun a b =>
      .fp [rd32 s.bcA a, rd32 s.bcA b] (if fpLt (rd32 s.bcA a) (rd32 s.bcA b) then 1 else 0, false)) := by
  refine completes_lanes hs hl (exec_iVcmplt k o s) ?_
  simp only [if_neg ht]
  rfl

theorem completes_iVsel_int {s : State} {k : Nat} {o : Ops23} (hs : s.issues k) (hl : vrOk useABT o = true) (ht : oTY o = 0) :
    Completes (.iVsel k o) s k ((s.core k).lane3 o fun d a b => .pure (if b ≠ 0 then a else d)) := by
  refine completes_lanes hs hl (exec_iVsel k o s) ?_
  simp only [if_pos ht, laneNz, if_true, bne_iff_ne]

theorem completes_iVsel_fp {s : State} {k : Nat} {o : Ops23} (hs : s.issues k) (hl : vrOk useABT o = true) (ht : oTY o ≠ 0) :
    Completes (.iVsel k o) s k ((s.core k).lane3 o fun d a b =>
      .fp [rd32 s.bcA b] (if (rd32 s.bcA b).val.man ≠ 0 then a else d, false)) := by
  refine completes_lanes hs hl (exec_iVsel k o s) ?_
  simp only [if_neg ht, laneNz, Nat.one_ne_zero, if_false, bne_iff_ne]

/-- VBCAST raises nothing: it only writes its register. -/
theorem completes_iVbcast {s : State} {k : Nat} {o : Ops23} (hs : s.issues k)
    (hl : vrOk ⟨true, false, false, true, false, false, false⟩ o = true) :
    Completes (.iVbcast k o) s k ⟨(s.core k).setV (oVD o) (List.replicate 64 ((s.core k).ss o)), []⟩ := by
  refine completes_reg hs hl (exec_iVbcast k o s) ?_ (by simp)
  rw [← Core.lanes_pure, List.map_replicate, List.map_const', List.length_range]

/-- The exponent of VSCALE is read as a signed byte, so that bits above it do not matter (R80). -/
theorem sx_bf_byte (w : Nat) : sx 8 (bf w 23 16) = sx 8 (w / 65536) := by
  simp only [sx, bf, Nat.shiftRight_eq_div_pow, Nat.mod_mod]

theorem completes_iVscale {s : State} {k : Nat} {o : Ops23} (hs : s.issues k)
    (hl : vrOk ⟨true, true, false, true, false, true, false⟩ o = true) :
    Completes (.iVscale k o) s k ((s.core k).lane1 o fun a => .int false
      (scaleApply (sx 32 a) 0 [(s.core k).ss o % 65536] (sx 8 ((s.core k).ss o / 65536)) (oVRM o))) := by
  refine completes_lanes hs hl (exec_iVscale k o s) ?_
  simp only [sx_bf_byte]
  rfl

theorem natCast_two_pow (n : Nat) : ((2 ^ n : Nat) : Int) = 2 ^ n := Int.natCast_pow 2 n

theorem completes_iVshl {s : State} {k : Nat} {o : Ops23} (hs : s.issues k)
    (hl : vrOk ⟨true, true, false, true, false, false, true⟩ o = true) :
    Completes (.iVshl k o) s k ((s.core k).lane1 o fun a => .int (oVMODW o) (sx 32 a * 2 ^ ((s.core k).ss o % 64))) := by
  refine completes_lanes hs hl (exec_iVshl k o s) ?_
  simp only [← natCast_two_pow]
  rfl

/-! ### Reductions (R92, R226) -/

theorem redSum_int (bcA modw : Bool) (l : List Nat) : redSum bcA 0 modw l = .int modw (l.map (sx 32)).sum :=
  congrArg (Lane.int modw) (sumI_eq_sum _)

/-- Every type but S32 is FP32. -/
theorem redSum_fp (bcA modw : Bool) (ty : Nat) (l : List Nat) (ht : ty ≠ 0) : redSum bcA ty modw l = redSum bcA 1 modw l := by
  simp only [redSum, if_neg ht, Nat.one_ne_zero, if_false]

theorem completes_iVrsum {s : State} {k : Nat} {o : Ops23} (hs : s.issues k)
    (hl : vrOk ⟨false, true, false, true, true, false, true⟩ o = true) :
    Completes (.iVrsum k o) s k ((s.core k).one (oSS o) (redSum s.bcA (oTY o) (oVMODW o) ((s.core k).active ((s.core k).va o)))) :=
  completes_one hs hl (exec_iVrsum k o s) rfl

theorem completes_iVrmax_int {s : State} {k : Nat} {o : Ops23} (hs : s.issues k) (hl : vrOk useRed o = true) (ht : oTY o = 0) :
    Completes (.iVrmax k o) s k (wordFx (s.core k) (oSS o) (maxS32 ((s.core k).active ((s.core k).va o)))) :=
  completes_one hs hl (exec_iVrmax k o s) (if_pos ht)

theorem completes_iVrmax_fp {s : State} {k : Nat} {o : Ops23} (hs : s.issues k) (hl : vrOk useRed o = true) (ht : oTY o ≠ 0) :
    let xs := ((s.core k).active ((s.core k).va o)).map (rd32 s.bcA)
    Completes (.iVrmax k o) s k ((s.core k).one (oSS o) (.fp xs (fpCode fp32 (maxFp xs), false))) :=
  completes_one hs hl (exec_iVrmax k o s) (if_neg ht)

theorem completes_iVamax_int {s : State} {k : Nat} {o : Ops23} (hs : s.issues k) (hl : vrOk useRed o = true) (ht : oTY o = 0) :
    Completes (.iVamax k o) s k (wordFx (s.core k) (oSS o)
      (((s.core k).active ((s.core k).va o)).foldl (fun m x => max m (sx 32 x).natAbs) 0)) := by
  rw [← maxN_map, ← Core.one_pure]
  exact completes_one hs hl (exec_iVamax k o s) (if_pos ht)

theorem completes_iVamax_fp {s : State} {k : Nat} {o : Ops23} (hs : s.issues k) (hl : vrOk useRed o = true) (ht : oTY o ≠ 0) :
    let xs := ((s.core k).active ((s.core k).va o)).map (rd32 s.bcA)
    Completes (.iVamax k o) s k ((s.core k).one (oSS o)
      (.fp xs (fpCode fp32 (maxFp (xs.map fun x => { x with neg := false, val := x.val.abs })), false))) :=
  completes_one hs hl (exec_iVamax k o s) (if_neg ht)

/-! ### VQUANT (R227) -/

/-- The clamps among the first lanes, counted by the flags written out as numbers. -/
theorem length_filter_b2n {α : Type} (l : List (α × Bool)) (n : Nat) :
    (((l.map fun p => b2n p.2).take n).filter (· != 0)).length = ((l.take n).filter (·.2)).length := by
  have hflag : ((· != 0) ∘ fun p : α × Bool => b2n p.2) = (·.2) := by
    funext p
    rcases p with ⟨_, _ | _⟩ <;> rfl
  rw [← List.map_take, List.filter_map, List.length_map, hflag]

/-- VQUANT writes the codes of the lanes, and counts the clamps of the active ones in QCLAMP and as saturations. -/
theorem completes_iVquant {s : State} {k : Nat} {o : Ops23} (hs : s.issues k)
    (hl : vrOk ⟨true, true, true, true, true, false, false⟩ o = true) (hb : oVB o ≤ 1) :
    let c := s.core k
    let r := (c.va o).map (quantLane s.bcA (oTY o) (c.ss o % 65536) (if oVB o = 0 then 127 else 32767))
    let hits := ((r.take c.vlen).filter (·.2)).length
    let xs := if oTY o = 0 then [] else (c.active (c.va o)).map (rd32 s.bcA)
    Completes (.iVquant k o) s k
      ((Fx.sats ⟨{ c.setV (oVD o) (r.map (·.1)) with qclamp := min (c.qclamp + hits) (2 ^ 32 - 1) }, []⟩ hits).fp
        (xs.filter (·.nan)).length (xs.filter (·.inf)).length 0) := by
  intro c r hits xs
  refine completes_reg hs (by simp [hl, hb]) (exec_iVquant k o s) ?_ (Fx.fp_sats_lt _ _ _ _ _)
  simp only [Core.active, length_filter_b2n]
  rfl

end Sys2Proof.Machine

namespace Sys2Proof

open Machine

theorem claims_integerLanes : Claims.IntegerLanes := by
  intro bcA modw rm d a b narrow
  refine ⟨Lane.int_eq _ _, Lane.int_eq _ _, Lane.int_eq _ _, Lane.int_eq _ _, Lane.int_eq _ _, ?_, ?_⟩
  · simp [laneMinMax, Lane.pure]
  · simp [laneMinMax, Lane.pure]

theorem claims_vectorLanes : Claims.VectorLanes := by
  intro s k o hs c va vb ss two three one
  exact ⟨
    fun h => ⟨completes_lanes hs h (exec_iVadd k o s) rfl, completes_lanes hs h (exec_iVsub k o s) rfl,
      completes_lanes hs h (exec_iVmul k o s) rfl, completes_lanes hs h (exec_iVmac k o s) rfl⟩,
    fun h => ⟨completes_lanes hs h (exec_iVmin k o s) rfl, completes_lanes hs h (exec_iVmax k o s) rfl,
      completes_iVcmplt_int hs h, completes_iVcmplt_fp hs h, completes_iVsel_int hs h, completes_iVsel_fp hs h⟩,
    fun h => ⟨completes_lanes hs h (exec_iVand k o s) rfl, completes_lanes hs h (exec_iVor k o s) rfl,
      completes_lanes hs h (exec_iVxor k o s) rfl⟩,
    fun h => completes_lanes hs h (exec_iVabs k o s) rfl,
    completes_iVshl hs,
    fun h => ⟨completes_lanes hs h (exec_iVsra k o s) rfl, completes_iVscale hs h⟩,
    completes_iVbcast hs,
    fun h => completes_lanes hs h (exec_iVcvt k o s) rfl⟩

theorem claims_laneConditions : Claims.LaneConditions := by
  intro c vd l sats nans infs ovfs
  have hc : (c.lanes vd l).c = { c.setV vd (l.map (·.val)) with flags := laneFlags c.flags sats nans infs ovfs } := by
    rw [Core.lanes_eq, Fx.fp_sats]
    rfl
  have htotal (o : Nat) : (c.lanes vd l).total o = Fx.total ⟨c, [(16, nans), (17, infs), (15, ovfs), (11, sats)]⟩ o := by
    rw [Core.lanes_eq, Fx.total_fp_sats]
    rfl
  exact ⟨hc, htotal 11, htotal 15, htotal 16, htotal 17⟩

/-- Settles O12: each instruction's lanes are those of the model's lane function, an integer lane is narrowed once, and what the
lanes raised is gathered into the flags and the counts. -/
theorem vectorLanes : Obligations.VectorLanes :=
  ⟨claims_vectorLanes, claims_integerLanes, claims_laneConditions⟩

/-- Settles O13: a reduction completes with one result in its scalar register, and VQUANT with its codes and the clamps of the active
lanes. -/
theorem vectorReductions : Obligations.VectorReductions := by
  intro s k o hs c l
  refine ⟨fun hl => ⟨fun ht => ?_, fun ht => ?_⟩, fun hl => ⟨fun ht => ?_, fun ht => ?_⟩, fun hl hb => ?_⟩
  · rw [← Core.one_int, ← redSum_int s.bcA, ← ht]
    exact completes_iVrsum hs hl
  · rw [← redSum_fp s.bcA _ _ l ht]
    exact completes_iVrsum hs hl
  · exact ⟨completes_iVrmax_int hs hl ht, completes_iVamax_int hs hl ht⟩
  · exact ⟨completes_iVrmax_fp hs hl ht, completes_iVamax_fp hs hl ht⟩
  · obtain ⟨t, hexec, honly, hcore, -⟩ := completes_iVquant hs hl hb
    rw [Fx.fp_sats] at hcore
    exact ⟨t, hexec, honly, hcore⟩

end Sys2Proof
end

section
/-!
PROOFS. What the control complex's reading of weights leaves alone (R258, R270 to R272, R298, R358, R359), what the commands of adapters do
with it (R171 to R173), and with them O34.
-/

namespace Sys2Proof.Machine

/-! ### Reading weights -/

/-- `t` differs from `s` only in what reading weights reaches: the store and the directory, the counts of decoded blocks and the
generations to degrade, the sequence numbers of control flits, what an event reaches, and what recording trace changes. -/
def State.onlyRead (s t : State) : Prop :=
  t = { s with nv := t.nv, store := t.store, model.use := t.model.use, model.wp := t.model.wp, model.degradeNext := t.model.degradeNext,
               fab.txSeq := t.fab.txSeq, cnt := t.cnt, out := t.out, free := t.free, ev := t.ev, host.eq := t.host.eq,
               host.evCount := t.host.evCount, host.sev := t.host.sev, host.eqOvf := t.host.eqOvf, host.pba := t.host.pba,
               host.tq := t.host.tq, grid.mesh := t.grid.mesh, obs.engines := t.obs.engines, obs.ring := t.obs.ring,
               obs.ringN := t.obs.ringN, obs.copying := t.obs.copying }

theorem State.onlyRead_refl (s : State) : s.onlyRead s := rfl

theorem State.onlyRead.trans {s t u : State} (h : s.onlyRead t) (g : t.onlyRead u) : s.onlyRead u := by
  unfold State.onlyRead at *
  rw [g, h]

theorem State.onlyRead_of_onlyStore {s t : State} (h : s.onlyStore t) : s.onlyRead t := by
  unfold State.onlyStore at h
  unfold State.onlyRead
  rw [h]

theorem State.onlyRead_foldl {α : Type} {f : State → α → State} (hf : ∀ (s : State) x, s.onlyRead (f s x)) (l : List α)
    (s : State) : s.onlyRead (l.foldl f s) := by
  induction l generalizing s with
  | nil => exact s.onlyRead_refl
  | cons x r ih => exact (hf s x).trans (ih _)

/-- A fold that carries an answer beside the state. -/
theorem State.onlyRead_foldl_snd {α β : Type} {f : β × State → α → β × State}
    (hf : ∀ (b : β × State) x, b.2.onlyRead (f b x).2) (l : List α) (b : β × State) : b.2.onlyRead (l.foldl f b).2 := by
  induction l generalizing b with
  | nil => exact b.2.onlyRead_refl
  | cons x r ih => exact (hf b x).trans (ih _)

theorem State.onlyStore_writeSector (s : State) (l : Nat) (bytes : List Byte) : s.onlyStore (s.writeSector l bytes) := by
  unfold State.writeSector
  split
  · exact s.onlyStore_refl
  · extract_lets s1 e s2 p x
    have h1 : s.onlyStore s1 := s.onlyStore_settleBank _
    have h2 : s1.onlyStore s2 := by
      simp only [s2]
      split
      · exact s1.onlyStore_refl
      · exact s1.onlyStore_eraseNow _ _
    split
    · exact h1.trans h2
    · exact (((h1.trans h2).trans (State.onlyStore_setSector _ _ _)).trans (State.onlyStore_setEnt _ _ _)).trans
        (State.onlyStore_count _ _ _)

theorem State.onlyStore_poison (s : State) (l : Nat) : s.onlyStore (s.poison l) := by
  unfold State.poison
  split
  · exact s.onlyStore_setEnt _ _
  · exact s.onlyStore_refl

theorem State.onlyRead_sendCtrl (s : State) (a kind : Nat) (body : List Nat) : s.onlyRead (s.sendCtrl a kind body) := by
  unfold State.sendCtrl
  split
  · exact s.onlyRead_refl
  · split
    · rfl
    · exact s.onlyRead_refl

theorem State.onlyRead_askReplica (s : State) (l : Nat) : s.onlyRead (s.askReplica l) := by
  refine State.onlyRead_foldl (fun s x => ?_) _ s
  split
  · split
    · exact s.onlyRead_sendCtrl _ _ _
    · exact s.onlyRead_refl
  · exact s.onlyRead_refl

theorem State.onlyRead_raise (s : State) (e : EvKind) (l : List (Nat × Nat)) : s.onlyRead (s.raise e l) :=
  State.onlyRead_of_onlyStore (s.onlyStore_raise e l)

theorem State.onlyRead_ccBlock (s : State) (w : WpOut) : s.onlyRead (s.ccBlock w) := rfl

theorem State.onlyRead_degrade (s : State) (l : List Nat) : s.onlyRead { s with model.degradeNext := l } := rfl

theorem State.onlyRead_unreadable (s : State) (l : Nat) (replica : List Byte) : s.onlyRead (s.unreadable l replica) := by
  unfold State.unreadable
  extract_lets u s1
  split
  · exact s.onlyRead_refl
  · refine (s.onlyRead_askReplica l).trans ?_
    split
    · exact State.onlyRead_of_onlyStore (State.onlyStore_writeSector _ _ _)
    · exact (State.onlyRead_degrade _ _).trans (State.onlyRead_raise _ _ _)

theorem State.onlyRead_degradeEnt (s : State) (x : Nat) : s.onlyRead (s.degradeEnt x) := by
  unfold State.degradeEnt
  split
  · exact s.onlyRead_refl
  · refine (s.onlyRead_degrade (s.model.degradeNext ++ [x])).trans ?_
    dsimp only
    split
    · exact State.onlyRead_raise _ _ _
    · exact State.onlyRead_refl _

theorem State.onlyRead_badBlock (s : State) (l : Nat) (replica : List Byte) : s.onlyRead (s.badBlock l replica).2 := by
  unfold State.badBlock
  extract_lets rep asked s1
  have h1 : s.onlyRead s1 := (State.onlyRead_of_onlyStore (s.onlyStore_poison l)).trans (State.onlyRead_unreadable _ _ _)
  clear_value s1
  refine h1.trans ?_
  dsimp only
  split
  · exact s1.onlyRead_ccBlock _
  · exact s1.onlyRead_refl

/-- Either of two states that differ so. -/
theorem State.onlyStore_ite {s t u : State} {p : Prop} [Decidable p] (ht : s.onlyStore t) (hu : s.onlyStore u) :
    s.onlyStore (if p then t else u) := by
  split
  · exact ht
  · exact hu

theorem State.onlyStore_counts (s : State) (l : List (Nat × Nat)) : s.onlyStore (s.counts l) := by
  rw [State.counts_eq]
  rfl

theorem State.onlyStore_suspend (s : State) (b : Nat) : s.onlyStore (s.suspend b) := by
  unfold State.suspend
  dsimp only
  split
  · exact State.onlyStore_ite ((s.onlyStore_store _).trans (State.onlyStore_count _ _ _)) s.onlyStore_refl
  · exact s.onlyStore_refl

theorem State.onlyStore_take (s : State) : s.onlyStore s.take.2 := rfl

/-- A read of a sector reaches the store's state, counters, events and trace alone. -/
theorem State.onlyStore_readSector (s : State) (l : Nat) (env : CellEnv) : s.onlyStore (s.readSector l env).2 := by
  unfold State.readSector
  extract_lets e
  split
  case h_5 p t x closed opened errs bad retry fixed ok corr raw cb serialOf _ s1 s2 s3 s4 s5 warn s6 s7 status _ _ _ _ _ =>
    have h3 : s.onlyStore s3 := (((s.onlyStore_store _).trans (State.onlyStore_suspend s1 (bankOf p))).trans
      (State.onlyStore_of_traced (State.traced_traceBegin _ _ _ _))).trans (State.onlyStore_counts s2 _)
    have h4 : s.onlyStore s4 :=
      State.onlyStore_ite ((h3.trans (State.onlyStore_setEnt _ _ _)).trans (State.onlyStore_count _ _ _)) h3
    clear_value s4
    have h5 : s4.onlyStore s5 := by
      exact State.onlyStore_ite (State.onlyStore_ite ((State.onlyStore_setEnt _ _ _).trans (State.onlyStore_count _ _ _))
        (State.onlyStore_ite (s4.onlyStore_take.trans (State.onlyStore_raise _ _ _)) s4.onlyStore_refl)) s4.onlyStore_refl
    clear_value s5
    have h6 : s5.onlyStore s6 :=
      State.onlyStore_ite ((State.onlyStore_raise _ _ _).trans (State.onlyStore_count _ _ _)) s5.onlyStore_refl
    clear_value s6
    have h7 : s6.onlyStore s7 := State.onlyStore_ite (State.onlyStore_setEnt _ _ _) s6.onlyStore_refl
    clear_value s7
    exact ((((h4.trans h5).trans h6).trans h7).trans s7.onlyStore_take).trans (State.onlyStore_of_traced (State.traced_traceEnd _ _ _ _ _))
  all_goals exact s.onlyStore_refl

theorem State.onlyRead_readFor (s : State) (l : Nat) (env : CellEnv) : s.onlyRead (s.readFor l env).2 := by
  have h := State.onlyRead_of_onlyStore (s.onlyStore_readSector l env)
  unfold State.readFor
  dsimp only
  split
  · exact h.trans (State.onlyRead_unreadable _ _ _)
  · exact h

theorem State.onlyRead_checkBlock (s : State) (v : CellEnv) (l : Nat) : s.onlyRead (s.checkBlock v l).2 := by
  have h := s.onlyRead_readFor l v
  unfold State.checkBlock
  dsimp only
  split
  · refine (h.trans (State.onlyRead_ccBlock _ (wpDecode (s.readFor l v).1.data))).trans ?_
    split
    · exact State.onlyRead_refl _
    · exact State.onlyRead_badBlock _ _ _
  · split
    · exact h.trans (State.onlyRead_ccBlock _ _)
    · exact h

theorem State.onlyRead_cellsOf (s : State) (env : Option (List (Nat × CellEnv))) (l : Nat) : s.onlyRead (s.cellsOf env l).2 := by
  cases env <;> rfl

theorem State.onlyRead_checkBlocks (s : State) (env : Option (List (Nat × CellEnv))) (l : List Nat) :
    s.onlyRead (s.checkBlocks env l).2 := by
  refine State.onlyRead_foldl_snd (fun b n => ?_) l (true, s)
  exact (b.2.onlyRead_cellsOf env n).trans (State.onlyRead_checkBlock _ _ _)

theorem State.onlyRead_checkFar (s : State) (x : Nat) (l : List (List Byte)) : s.onlyRead (s.checkFar x l).2 := by
  refine State.onlyRead_foldl_snd (fun b d => ?_) l (true, s)
  dsimp only
  split
  · exact b.2.onlyRead_ccBlock _
  · exact (b.2.onlyRead_ccBlock _).trans (State.onlyRead_degradeEnt _ x)

theorem State.onlyRead_checkLayer (s : State) (env : Option (List (Nat × CellEnv))) (x : Nat) (e : DirEnt) (layer : Nat) :
    s.onlyRead (s.checkLayer env x e layer).2 := by
  unfold State.checkLayer
  split
  · exact s.onlyRead_refl
  · split
    · exact s.onlyRead_checkBlocks _ _
    · exact s.onlyRead_checkFar _ _

/-- Reading the weights of a tile's layer leaves the configuration, the arrays and the captured generations alone. -/
theorem State.onlyRead_checkRef (s : State) (a d : Nat) : s.onlyRead (s.checkRef a d).2 := by
  unfold State.checkRef
  dsimp only
  split
  · exact s.onlyRead_refl
  · exact s.onlyRead_checkLayer _ _ _ _

theorem State.onlyRead.cfg_eq {s t : State} (h : s.onlyRead t) : t.cfg = s.cfg := by rw [h]
theorem State.onlyRead.captured_eq {s t : State} (h : s.onlyRead t) : t.model.captured = s.model.captured := by rw [h]
theorem State.onlyRead.descModel_eq {s t : State} (h : s.onlyRead t) (a d : Nat) : t.descModel a d = s.descModel a d := by
  rw [h]
  rfl

/-! ### Commands of adapters (R171 to R173) -/

theorem inUnit_of_lt {n b : Nat} (h : n < b) (t : State) : inUnit n b t = .next t := if_pos h

/-- A ring of probe rows behind a new row: the last 256 (R172). -/
theorem drop_concat_of_lt {α : Type} {l : List α} {n : Nat} (r : α) (h : l.length < n) :
    (l ++ [r]).drop ((l ++ [r]).length - n) = l ++ [r] := by
  rw [List.length_append, List.length_singleton, Nat.sub_eq_zero_of_le h, List.drop_zero]

theorem drop_concat_of_full {α : Type} {l : List α} {n : Nat} (r : α) (hn : 0 < n) (h : l.length = n) :
    (l ++ [r]).drop ((l ++ [r]).length - n) = l.drop 1 ++ [r] := by
  rw [List.length_append, List.length_singleton, h, Nat.add_sub_cancel_left, List.drop_append_of_le_length (h ▸ hn)]

/-- A probe saved where the tile's row, its adapters and the interval ask for one (R172, R246). -/
theorem execProbeSave_of_due {s : State} {a d : Nat} {r : List Nat × List Int} (ha : a < 48) (hr : tfind (s.arr a).lastRow d = some r)
    (hadapt : lpAdapt ((s.arr a).desc d) = true) (hb : s.ballast 2 = false)
    (hq : ∀ q ∈ tfind (s.arr a).probeAt d, q + lpProbe ((s.arr a).desc d) ≤ s.qindex) :
    execProbeSave a d s = .next
      (State.setArr { s with loft.wrote := s.loft.wrote.filter fun p => !s.loft.regions.any fun w => rgKind w == 4 && inRegion p.1 w } a
        { s.arr a with
          probe := tset [] (s.arr a).probe d
            ((tget [] (s.arr a).probe d ++ [r]).drop ((tget [] (s.arr a).probe d ++ [r]).length - 256)),
          probeAt := tput (s.arr a).probeAt d (some s.qindex) }) := by
  rw [execProbeSave, inUnit_of_lt ha]
  dsimp only
  rw [hr]
  cases hp : tfind (s.arr a).probeAt d with
  | none => exact congrArg _ (if_pos (by rw [hadapt, hb]; rfl))
  | some q => exact congrArg _ (if_pos (by simp only [hadapt, hb, hq q hp, decide_true]; rfl))

/-- Ballast stage B2 pauses probes (R172). -/
theorem execProbeSave_of_ballast {s : State} {a : Nat} (d : Nat) (ha : a < 48) (hb : s.ballast 2 = true) :
    execProbeSave a d s = .next s := by
  rw [execProbeSave, inUnit_of_lt ha]
  dsimp only
  simp only [hb, Bool.not_true, Bool.and_false, Bool.false_eq_true, if_false]
  split <;> rfl

/-- Ballast stage B2 pauses training (R172). -/
theorem execAdapterTrainStep_of_ballast {s : State} {a : Nat} (d : Nat) (rows ga gb : List Nat) (ha : a < 48) (hb : s.ballast 2 = true) :
    execAdapterTrainStep a d rows ga gb s = .next s := by
  rw [execAdapterTrainStep, inUnit_of_lt ha]
  dsimp only
  simp only [hb, Bool.not_true, Bool.and_false, Bool.false_eq_true, if_false]

/-- Adapters are written where the last write lies at least 65,536 quanta back (R172). -/
theorem execAdapterWriteback_of_due {s : State} (hq : ∀ q ∈ s.nv.adapterQ, q + 65536 ≤ s.qindex) :
    execAdapterWriteback s = .next { s.saveAdapters with nv.adapterQ := some s.qindex } := by
  refine congrArg _ (if_pos ?_)
  cases h : s.nv.adapterQ with
  | none => rfl
  | some q => exact decide_eq_true (hq q h)

theorem execAdapterWriteback_of_early {s : State} {q : Nat} (hq : s.nv.adapterQ = some q) (hlt : s.qindex < q + 65536) :
    execAdapterWriteback s = .next s := by
  rw [execAdapterWriteback, hq]
  exact congrArg _ (if_neg (by simp [hlt]))

theorem Arr.trainRows_iff (x : Arr) (d : Nat) (rows : List Nat) : x.trainRows d rows = true ↔
    rows.length = 32 ∧ rows.Nodup ∧ ∀ i ∈ rows, 64 ≤ i ∧ i < (tget [] x.probe d).length := by
  simp [Arr.trainRows, and_assoc]

theorem rankOk_iff (l : List DWord) (have_ rank : Nat) : rankOk l have_ rank = true ↔
    rank ≤ lpMax l ∧ (rank = 4 ∨ rank = 8 ∨ rank = 16) ∧ (rank = have_ ∨ rank = 2 * have_ ∨ (have_ = 0 ∧ rank = 4)) := by
  simp [rankOk, and_assoc, or_assoc]

end Sys2Proof.Machine

namespace Sys2Proof
open Machine

/-- Settles O34: each command by the guards it passes; a training step rounds with the configuration from before its reading of the
weights, which that reading leaves alone. -/
theorem adapters : Obligations.Adapters := by
  intro s a d ha x l ad gen puts with_
  refine ⟨fun r hr hadapt hb hq => ?_, fun rows ga gb hadapt hb hlearn hlen hnd hrows => ?_, fun hb => ⟨?_, fun rows ga gb => ?_⟩,
    fun rank h0 h64 hadapt => ?_, execAdapterWriteback_of_due, fun q => execAdapterWriteback_of_early⟩
  · exact ⟨_, (exec_probeSave a d s).trans (execProbeSave_of_due ha hr hadapt hb hq), drop_concat_of_lt r,
      drop_concat_of_full r (by decide)⟩
  · have hguard : (lpAdapt l && x.trainRows d rows && x.toLearn l != [] && !s.ballast 2) = true := by
      simp [hadapt, hb, hlearn, (x.trainRows_iff d rows).2 ⟨hlen, hnd, hrows⟩]
    have hread := s.onlyRead_checkRef a d
    rw [exec_adapterTrainStep, execAdapterTrainStep, inUnit_of_lt ha]
    generalize s.checkRef a d = c at hread ⊢
    obtain ⟨ok, t⟩ := c
    have hcfg : t.cfg = s.cfg := hread.cfg_eq
    have hcap : t.model.captured = s.model.captured := hread.captured_eq
    have hmod : t.descModel a d = s.descModel a d := hread.descModel_eq a d
    intro c cur fa fb seen g na nb
    refine ⟨fun hc => (congrArg _ (if_pos hguard)).trans (congrArg _ (if_pos (by rw [show ok = false from hc]; rfl))),
      fun hc => (congrArg _ (if_pos hguard)).trans ((congrArg _ (if_neg (by rw [show ok = true from hc]; decide))).trans ?_)⟩
    have hsteps : ad.steps + 1 = cur.steps + 1 := by
      simp only [cur]
      split <;> rfl
    rw [hcfg, hcap, hmod, hsteps]
    rfl
  · exact (exec_probeSave a d s).trans (execProbeSave_of_ballast d ha hb)
  · exact (exec_adapterTrainStep a d rows ga gb s).trans (execAdapterTrainStep_of_ballast d rows ga gb ha hb)
  · have hgo : ¬ (ad.steps = 0 ∨ ad.steps % 64 ≠ 0 ∨ ¬ lpAdapt l) := by simp [h0, h64, hadapt]
    intro run
    rw [exec_adapterCandidateEval, execAdapterCandidateEval, inUnit_of_lt ha]
    generalize s.checkRef a d = c
    obtain ⟨ok, t⟩ := c
    intro c fa fb new old did better fits serial
    have hfits : rankOk l ad.rank rank = true ↔ fits := rankOk_iff l ad.rank rank
    have hunfit : (!rankOk l ad.rank rank) = true ↔ ¬ fits := by rw [← hfits, Bool.not_eq_true', Bool.not_eq_true]
    have hbetter : (outCols l x.flagged != [] &&
        (outCols l x.flagged).all fun k => decide (probeError new.1 k < probeError old.1 k)) = true ↔ better := by simp [better]
    refine ⟨fun hstale => congrArg _ ((if_neg hgo).trans (if_pos hstale)), fun hgen hser => ?_⟩
    have hnow : ¬ (ad.ofGen ≠ gen ∨ ad.ofSerial ≠ ad.serial) := by simp [hgen, hser]
    refine ⟨fun hf => congrArg _ ((if_neg hgo).trans ((if_neg hnow).trans (if_pos (hunfit.2 hf)))), fun hf hc => ?_,
      fun hf hc hbad => ?_, fun hf hc hgood => ?_⟩ <;>
      refine congrArg _ ((if_neg hgo).trans ((if_neg hnow).trans ((if_neg (fun h => hunfit.1 h hf)).trans ?_)))
    · exact if_pos (by rw [show ok = false from hc]; rfl)
    · exact (if_neg (by rw [show ok = true from hc]; decide)).trans (if_neg (mt hbetter.1 hbad))
    · exact (if_neg (by rw [show ok = true from hc]; decide)).trans (if_pos (hbetter.2 hgood))

end Sys2Proof
end

section
/-!
PROOFS. What an executed command starts from (R408 to R412), an activation and the atomic path of a switch (R291, R294, R295), the
calibrations that a command asks for (R165), and with them O51.
-/

namespace Sys2Proof.Machine

/-! ### Commands in turn (R408 to R412) -/

theorem State.fenced_iff (s : State) (c : Cmd) : s.fenced c ↔
    (c.fence && (s.host.long.any (fun x => x.src == c.src) || (c.src == .host && s.host.fwd != []))) = true := by
  simp [State.fenced]

/-- A command in turn takes its effect in the state in which it begins. -/
theorem State.startCmd_of_turn {s : State} {op : Nat} {c : Cmd} (h : s.turn op c) (f : State → State) :
    s.startCmd c f = f (s.begun c) := by
  obtain ⟨-, -, -, hdma, hfence⟩ := h
  unfold State.startCmd State.begun
  rw [s.fenced_iff] at hfence
  dsimp only
  rw [if_neg hfence, hdma]
  cases opRow c.opcode <;> rfl

/-- A command in turn is the first of those accepted, and so starts. -/
theorem State.runCmd_of_turn {s : State} {op : Nat} {c : Cmd} (h : s.turn op c) (f : State → State) :
    s.runCmd op c f = f (s.begun c) := by
  have hstart := State.startCmd_of_turn h f
  obtain ⟨hhead, hop, hfwd, -, -⟩ := h
  obtain ⟨r, hacc⟩ := List.head?_eq_some_iff.1 hhead
  simp [State.runCmd, hop, hfwd, hacc, hstart]

/-! ### An activation (R291, R294, R501) -/

/-- A directory entry as an activation of entry `x` of model `m` leaves it: `BOOT_ACT` ends for the model's other generations (R501). -/
def unbooted (x m : Nat) (p : Nat × DirEnt) : Nat × DirEnt :=
  if p.2.model = m ∧ p.1 ≠ x then (p.1, { p.2 with bootAct := false }) else p

theorem unbooted_fst (x m : Nat) (p : Nat × DirEnt) : (unbooted x m p).1 = p.1 := by
  unfold unbooted
  split <;> rfl

theorem unbooted_self (x m : Nat) (e : DirEnt) : unbooted x m (x, e) = (x, e) := if_neg (by simp)

theorem unbooted_of_ne {x k : Nat} (m : Nat) (e : DirEnt) (h : k ≠ x) :
    (unbooted x m (k, e)).2 = if e.model = m then { e with bootAct := false } else e := by
  unfold unbooted
  by_cases hm : e.model = m
  · rw [if_pos ⟨hm, h⟩, if_pos hm]
  · rw [if_neg (fun hk => hm hk.1), if_neg hm]

/-- Only `BOOT_ACT` differs. -/
theorem unbooted_snd (x m : Nat) (p : Nat × DirEnt) : ∃ b, (unbooted x m p).2 = { p.2 with bootAct := b } := by
  unfold unbooted
  split
  · exact ⟨false, rfl⟩
  · exact ⟨p.2.bootAct, rfl⟩

theorem shapeOk_unbooted (e : DirEnt) (x m : Nat) (p : Nat × DirEnt) : shapeOk e (unbooted x m p).2 = shapeOk e p.2 := by
  obtain ⟨b, h⟩ := unbooted_snd x m p
  rw [h]
  rfl

theorem gen_unbooted (x m : Nat) (p : Nat × DirEnt) : (unbooted x m p).2.gen = p.2.gen := by
  obtain ⟨b, h⟩ := unbooted_snd x m p
  rw [h]

/-- The directory with `BOOT_ACT` ended for the other generations of a model. -/
def State.unbootOthers (s : State) (x m : Nat) : State := { s with nv.dir := s.nv.dir.map (unbooted x m) }

theorem tfind_map_of_fst {α : Type} {f : Nat × α → Nat × α} (hf : ∀ p, (f p).1 = p.1) (t : Tab α) (k : Nat) :
    tfind (t.map f) k = (tfind t k).map fun v => (f (k, v)).2 := by
  induction t with
  | nil => rfl
  | cons p r ih =>
    obtain ⟨j, v⟩ := p
    have hj : (f (j, v)).1 = j := hf (j, v)
    simp only [List.map_cons, tfind, hj, ih]
    by_cases h : j = k
    · subst h
      simp
    · simp [h]

theorem State.dirEnt_unbootOthers (s : State) (x m k : Nat) :
    (s.unbootOthers x m).dirEnt k = (s.dirEnt k).map fun e => (unbooted x m (k, e)).2 :=
  tfind_map_of_fst (unbooted_fst x m) s.nv.dir k

theorem State.dirEnt_unbootOthers_self {s : State} {x : Nat} {e : DirEnt} (m : Nat) (h : s.dirEnt x = some e) :
    (s.unbootOthers x m).dirEnt x = some e := by
  rw [State.dirEnt_unbootOthers, h, Option.map_some, unbooted_self]

/-- The active generation of a model stays the one it was. -/
theorem State.activeEnt_unbootOthers (s : State) (x m n : Nat) :
    (s.unbootOthers x m).activeEnt n = (s.activeEnt n).map (unbooted x m) := by
  unfold State.activeEnt State.unbootOthers
  rw [List.find?_map]
  congr 2
  funext p
  obtain ⟨b, h⟩ := unbooted_snd x m p
  simp [h]

theorem State.dirEnt_setDir_ne (s : State) {x k : Nat} (e : DirEnt) (h : k ≠ x) : (s.setDir x e).dirEnt k = s.dirEnt k :=
  tfind_tput_ne _ _ _ _ h

/-- An activation of a generation that is active has nothing left to do. -/
theorem State.activate_of_active {s : State} {x : Nat} {e : DirEnt} (q : Nat) (c : Cmd) (hx : s.dirEnt x = some e)
    (ha : e.active = true) : s.activate x q (some c) = (s.unbootOthers x e.model).finish c 0 0 0 [] := by
  rw [State.activate, hx]
  exact if_pos ha

/-- Another generation is active: the shapes decide between a switch and the next boot (R294). -/
theorem State.activate_of_other {s : State} {x y : Nat} {e o : DirEnt} (q : Nat) (c : Cmd) (hx : s.dirEnt x = some e)
    (ha : e.active = false) (ho : s.activeEnt e.model = some (y, o)) : s.activate x q (some c) =
    if shapeOk e o then (s.unbootOthers x e.model).beginSwitch x (some o.gen) q (some c)
    else ((s.unbootOthers x e.model).setDir x { e with bootAct := true }).finish c 0 0 0 [] := by
  have hact : (s.unbootOthers x e.model).activeEnt e.model = some (unbooted x e.model (y, o)) := by
    rw [State.activeEnt_unbootOthers, ho, Option.map_some]
  unfold State.activate
  rw [hx]
  extract_lets done nv
  dsimp -zeta only
  extract_lets t
  have ht : t = s.unbootOthers x e.model := rfl
  rw [if_neg (by simp [ha]), ht, hact]
  dsimp only
  rw [shapeOk_unbooted, gen_unbooted]

/-! ### Switches of a state -/

theorem State.mem_of_switchOf {s : State} {m : Nat} {w : Switch} (h : s.switchOf m = some w) : w ∈ s.model.switches :=
  List.mem_of_find?_eq_some h

theorem State.model_of_switchOf {s : State} {m : Nat} {w : Switch} (h : s.switchOf m = some w) : w.model = m := by
  simpa using List.find?_some h

/-- A switch that is added is the model's where it has no other. -/
theorem State.switchOf_append {s : State} {w : Switch} (h : s.switchOf w.model = none) :
    (s.setSwitches (s.model.switches ++ [w])).switchOf w.model = some w := by
  have h' : s.model.switches.find? (fun x => x.model == w.model) = none := h
  simp [State.switchOf, State.setSwitches, List.find?_append, h']

/-- A model's switch replaced by another of the same generation. -/
theorem State.switchOf_putSwitch {s : State} {m : Nat} {x w : Switch} (h : s.switchOf m = some x) (hm : w.model = m)
    (hg : w.gen = x.gen) : (s.putSwitch w).switchOf m = some w := by
  have hx : x.model = m := State.model_of_switchOf h
  have hfind : s.model.switches.find? (fun y => y.model == m) = some x := h
  have hpred : (fun y : Switch => y.model == m) ∘ (fun y => if y.model = w.model ∧ y.gen = w.gen then w else y) =
      fun y => y.model == m := by
    funext y
    by_cases hy : y.model = w.model ∧ y.gen = w.gen
    · simp [hy, hm]
    · simp [hy]
  unfold State.switchOf State.putSwitch State.setSwitches
  rw [List.find?_map, hpred, hfind]
  simp [hx, hm, hg]

theorem State.switchOf_sendCtrl (s : State) (a kind : Nat) (body : List Nat) (m : Nat) :
    (s.sendCtrl a kind body).switchOf m = s.switchOf m := by
  rw [State.onlyRead_sendCtrl s a kind body]
  rfl

theorem State.switchOf_sendAll (s : State) (l : List Nat) (kind : Nat) (body : List Nat) (m : Nat) :
    (l.foldl (fun s a => s.sendCtrl a kind body) s).switchOf m = s.switchOf m := by
  rw [State.onlyRead_foldl (fun s a => s.onlyRead_sendCtrl a kind body) l s]
  rfl

/-- The switch of a model with its readiness, its reports and its index set anew: what the exchange between holders changes (R297). -/
def Switch.exchanged (w : Switch) (ready : Bool) (reports : List Nat) (q : Nat) : Switch :=
  { w with ready := ready, reports := reports, atQ := q }

/-- A holder's part that is ready leaves the model's switch but for its readiness and reports (R297). -/
theorem State.switchOf_partReady {s : State} {w : Switch} (h : s.switchOf w.model = some w) :
    ∃ r l, (s.partReady w).switchOf w.model = some (w.exchanged r l w.atQ) := by
  unfold State.partReady
  dsimp only
  split
  · exact ⟨true, w.reports, State.switchOf_putSwitch h rfl rfl⟩
  · split
    · exact ⟨w.ready, _, State.switchOf_putSwitch h rfl rfl⟩
    · exact ⟨w.ready, [s.dev], (State.switchOf_sendCtrl _ _ _ _ _).trans (State.switchOf_putSwitch h rfl rfl)⟩

theorem State.switchOf_fixIndex {s : State} {w : Switch} (h : s.switchOf w.model = some w) :
    ∃ r q, (s.fixIndex w).switchOf w.model = some (w.exchanged r w.reports q) := by
  unfold State.fixIndex
  dsimp only
  split
  · exact ⟨true, _, State.switchOf_putSwitch ((State.switchOf_sendAll _ _ _ _ _).trans h) rfl rfl⟩
  · exact ⟨w.ready, w.atQ, State.switchOf_putSwitch h rfl rfl⟩

/-- A part without planes to program is ready at once; its model's switch stays but for what the holders tell (R297). -/
theorem State.switchOf_nowReady {s : State} {w : Switch} (h : s.switchOf w.model = some w) :
    ∃ r l q, (s.nowReady w).switchOf w.model = some (w.exchanged r l q) := by
  obtain ⟨r, l, hp⟩ := State.switchOf_partReady h
  unfold State.nowReady
  dsimp only
  rw [hp]
  dsimp only
  split
  · exact ⟨r, l, w.atQ, hp⟩
  · obtain ⟨r', q, hf⟩ := State.switchOf_fixIndex (w := w.exchanged r l w.atQ) hp
    exact ⟨r', l, q, hf⟩

/-! ### The atomic path (R295) -/

theorem mem_dedupN (l : List Nat) (a : Nat) : a ∈ dedupN l ↔ a ∈ l := by
  induction l with
  | nil => simp [dedupN]
  | cons x r ih =>
    by_cases h : a = x
    · simp [dedupN, h]
    · simp [dedupN, h, ih]

/-- Each member of the shorter list has a partner. -/
theorem exists_mem_zip {α β : Type} {l : List α} {r : List β} (h : l.length ≤ r.length) {a : α} (ha : a ∈ l) :
    ∃ b ∈ r, (a, b) ∈ l.zip r := by
  rw [← List.map_fst_zip h] at ha
  obtain ⟨⟨a, b⟩, hp, rfl⟩ := List.mem_map.1 ha
  exact ⟨b, (List.of_mem_zip hp).2, hp⟩

/-- The planes of a model's tiles that a switch prepares; none without a part in the placement (R291). -/
def State.placedPlanes (s : State) (m : Nat) : List (Nat × Nat) := if s.modelNamed m then s.usedPlanes m else []

/-- The FREE plane that each used plane gets on the atomic path: the array, the plane and its successor (R295). -/
def State.atomicPairs (s : State) (used : List (Nat × Nat)) : List (Nat × Nat × Nat) :=
  (dedupN (used.map (·.1))).flatMap fun a =>
    (((used.filter fun k => k.1 == a).map (·.2)).zip (s.freePlanes a)).map fun p => (a, p.1, p.2)

/-- Where the atomic path is open each used plane gets a FREE plane of its array. -/
theorem State.exists_mem_atomicPairs {s : State} {m : Nat} {used : List (Nat × Nat)} (h : s.atomicOk m used = true)
    {k : Nat × Nat} (hk : k ∈ used) :
    ∃ p ∈ s.atomicPairs used, p.1 = k.1 ∧ p.2.1 = k.2 ∧ p.2.2 ∈ s.freePlanes p.1 := by
  have harr : k.1 ∈ dedupN (used.map (·.1)) := (mem_dedupN _ _).2 (List.mem_map_of_mem hk)
  have hroom : (used.filter fun j => j.1 == k.1).length ≤ (s.freePlanes k.1).length := by
    simp only [State.atomicOk, Bool.and_eq_true, List.all_eq_true, decide_eq_true_eq] at h
    exact h.1 k.1 harr
  have hmine : k.2 ∈ (used.filter fun j => j.1 == k.1).map (·.2) := List.mem_map_of_mem (List.mem_filter.2 ⟨hk, by simp⟩)
  obtain ⟨b, hb, hzip⟩ := exists_mem_zip (r := s.freePlanes k.1) (by rwa [List.length_map]) hmine
  exact ⟨(k.1, k.2, b), List.mem_flatMap.2 ⟨k.1, harr, List.mem_map.2 ⟨_, hzip, rfl⟩⟩, rfl, rfl, hb⟩

/-- The PENDING planes of a switch given to a generation (R289, R295). -/
def State.givePending (s : State) (m g : Nat) (pairs : List (Nat × Nat × Nat)) : State :=
  pairs.foldl (fun s p => s.givePlane (16 * p.1 + p.2.2) 1 m g (s.srcOf p.1 p.2.1)) s

theorem State.model_givePending (s : State) (m g : Nat) (pairs : List (Nat × Nat × Nat)) :
    (s.givePending m g pairs).model = s.model := by
  induction pairs generalizing s with
  | nil => rfl
  | cons p r ih => exact ih _

theorem State.alloc_givePlane (s : State) (k st m g src j : Nat) :
    tget 0 (s.givePlane k st m g src).nv.alloc j = if j = k then st else tget 0 s.nv.alloc j := by
  split
  · subst j
    exact tget_tset_self 0 _ _ _
  · exact tget_tset_ne 0 _ _ _ _ ‹_›

/-- Planes given so are PENDING, and a PENDING plane stays so. -/
theorem State.alloc_givePending (s : State) (m g : Nat) (pairs : List (Nat × Nat × Nat)) (k : Nat)
    (h : tget 0 s.nv.alloc k = 1 ∨ ∃ p ∈ pairs, 16 * p.1 + p.2.2 = k) :
    tget 0 (s.givePending m g pairs).nv.alloc k = 1 := by
  induction pairs generalizing s with
  | nil =>
    obtain h | ⟨p, hp, -⟩ := h
    · exact h
    · exact absurd hp List.not_mem_nil
  | cons p r ih =>
    refine ih _ ?_
    rw [State.alloc_givePlane]
    by_cases hk : k = 16 * p.1 + p.2.2
    · exact .inl (if_pos hk)
    · rw [if_neg hk]
      simpa [Ne.symm hk] using h

/-- The switch that a preparation on the atomic path begins with. -/
def State.atomicSwitch (s : State) (e : DirEnt) (old : Option Nat) (q : Nat) (cmd : Option Cmd) : Switch :=
  let pairs := s.atomicPairs (s.placedPlanes e.model)
  { model := e.model, gen := e.gen, old := old, atomic := true, atQ := q, todo := pairs.map fun p => (p.1, p.2.2), pairs := pairs,
    cores := [], ready := false, reports := [], cmd := cmd }

/-- The preparation of a switch on the atomic path (R295). -/
theorem State.beginSwitch_of_atomicOk {s : State} {x : Nat} {e : DirEnt} (old : Option Nat) (q : Nat) (cmd : Option Cmd)
    (hx : s.dirEnt x = some e) (hp : s.evictPolicy = false) (hok : s.atomicOk e.model (s.placedPlanes e.model) = true) :
    s.beginSwitch x old q cmd =
      let w := s.atomicSwitch e old q cmd
      let t := s.givePending e.model e.gen w.pairs
      let t := t.setSwitches (t.model.switches ++ [w])
      if w.todo = [] then t.nowReady w else t := by
  have hok' : s.atomicOk e.model (if s.modelNamed e.model = true then s.usedPlanes e.model else []) = true := hok
  unfold State.beginSwitch
  rw [hx]
  simp only [hp, hok', if_true, Bool.false_eq_true, if_false, ne_eq, not_true_eq_false, false_and]
  rfl

/-- What a switch of the atomic path to entry `e` from generation `old` is: the model's, with its command, and with a FREE plane for
each plane in use that is PENDING in `t`; a named quantum stands where planes are in use (R295). -/
def State.preparesAtomic (s t : State) (e : DirEnt) (old : Option Nat) (q : Nat) (cmd : Option Cmd) (w : Switch) : Prop :=
  w ∈ t.model.switches ∧ w.model = e.model ∧ w.gen = e.gen ∧ w.old = old ∧ w.atomic = true ∧ w.cmd = cmd ∧
    (s.placedPlanes e.model ≠ [] → w.atQ = q) ∧
    ∀ k ∈ s.placedPlanes e.model, ∃ p ∈ w.pairs, p.1 = k.1 ∧ p.2.1 = k.2 ∧ p.2.2 ∈ s.freePlanes p.1 ∧
      tget 0 t.nv.alloc (16 * p.1 + p.2.2) = 1

/-- On the atomic path a preparation begins such a switch: with planes to program it waits for them, without it is ready at once. -/
theorem State.exists_preparesAtomic_beginSwitch {s : State} {x : Nat} {e : DirEnt} (old : Option Nat) (q : Nat) (cmd : Option Cmd)
    (hx : s.dirEnt x = some e) (hp : s.evictPolicy = false) (hok : s.atomicOk e.model (s.placedPlanes e.model) = true)
    (hw : s.switchOf e.model = none) : ∃ w, s.preparesAtomic (s.beginSwitch x old q cmd) e old q cmd w := by
  rw [State.beginSwitch_of_atomicOk old q cmd hx hp hok]
  extract_lets w t₀ t
  have hnew : t.switchOf w.model = some w := by
    refine State.switchOf_append ?_
    rw [State.switchOf, State.model_givePending]
    exact hw
  split
  case isTrue htodo =>
    have hnone : s.placedPlanes e.model = [] := by
      refine List.eq_nil_iff_forall_not_mem.2 fun k hk => ?_
      obtain ⟨p, hp, -⟩ := State.exists_mem_atomicPairs hok hk
      exact List.not_mem_nil (List.map_eq_nil_iff.1 htodo ▸ hp)
    obtain ⟨r, l, q', h⟩ := State.switchOf_nowReady hnew
    refine ⟨w.exchanged r l q', State.mem_of_switchOf h, rfl, rfl, rfl, rfl, rfl, ?_, ?_⟩
    · exact fun h => absurd hnone h
    · rw [hnone]
      exact fun k hk => absurd hk List.not_mem_nil
  case isFalse htodo =>
    refine ⟨w, State.mem_of_switchOf hnew, rfl, rfl, rfl, rfl, rfl, fun _ => rfl, fun k hk => ?_⟩
    obtain ⟨p, hp, h1, h2, hfree⟩ := State.exists_mem_atomicPairs hok hk
    exact ⟨p, hp, h1, h2, hfree, State.alloc_givePending s _ _ _ _ (.inr ⟨p, hp, rfl⟩)⟩

/-! ### Calibrations that join the queues (R165) -/

theorem State.calQ_queueCal (s : State) (a : Nat) (planes : List Nat) (cmd : Option Cmd) (breach : Bool) (b : Nat) :
    ((s.queueCal a planes cmd breach).arr b).calQ = (s.arr b).calQ ++ if b = a then [⟨planes, cmd, breach⟩] else [] := by
  unfold State.queueCal
  by_cases h : b = a
  · subst h
    rw [State.setArr_self, if_pos rfl]
  · rw [State.setArr_ne _ _ _ _ h, if_neg h, List.append_nil]

theorem State.host_foldl_queueCal (s : State) (l planes : List Nat) (cmd : Option Cmd) (breach : Bool) :
    (l.foldl (fun s a => s.queueCal a planes cmd breach) s).host = s.host := by
  induction l generalizing s with
  | nil => rfl
  | cons a r ih => exact ih _

/-- Each named array has one calibration more in its queue. -/
theorem State.calQ_foldl_queueCal (s : State) (l planes : List Nat) (cmd : Option Cmd) (breach : Bool) (hl : l.Nodup) (b : Nat) :
    ((l.foldl (fun s a => s.queueCal a planes cmd breach) s).arr b).calQ =
      (s.arr b).calQ ++ if b ∈ l then [⟨planes, cmd, breach⟩] else [] := by
  induction l generalizing s with
  | nil => simp
  | cons a r ih =>
    obtain ⟨ha, hr⟩ := List.nodup_cons.1 hl
    rw [List.foldl_cons, ih _ hr, State.calQ_queueCal]
    by_cases h : b = a
    · subst h
      simp [ha]
    · simp [h]

theorem nodup_bitsSet (n w : Nat) : (bitsSet n w).Nodup := List.nodup_range.filter _

/-- The calibration of the arrays `l` that a command asks for begins: it is kept with its arrays, and each has it in its queue. -/
def State.calibrating (s : State) (c : Cmd) (l planes : List Nat) : State :=
  l.foldl (fun s a => s.queueCal a planes (some c) false) { s with host.cals := s.host.cals ++ [(c, l, [])] }

/-- The arrays that a CALIBRATE names but for those in FAILED decide what it does (R413; log entry 49). -/
theorem execCalibrate_of_turn {s : State} {c : Cmd} (ht : s.turn 0x40 c) {named good : List Nat} (hn : named = bitsSet 48 c.p1.toNat)
    (hg : good = named.filter fun a => decide (((s.begun c).arr a).st ≠ .failed)) :
    execCalibrate c s = .next
      (if named ≠ [] ∧ good = [] then (s.begun c).finish c 0x42 0 0 []
       else if good = [] then (s.begun c).finish c 0 0 0 []
       else (s.begun c).calibrating c good (bitsSet 16 c.p2.toNat)) := by
  have hgo : good = named.filter fun a => ((s.begun c).arr a).st != .failed :=
    hg.trans (List.filter_congr fun a _ => by rw [Bool.eq_iff_iff]; simp)
  rw [hgo, hn, execCalibrate, State.runCmd_of_turn ht]
  rfl

/-! ### ACTIVATE in turn (R291, R413, R501) -/

section
variable {s : State} {c : Cmd} {x : Nat} {e : DirEnt} (ht : s.turn 0x31 c)
  (he : (s.begun c).entOf (fld c.p1 63 32) (fld c.p1 31 16) = some (x, e))
include ht

theorem execActivate_of_unknown (he : (s.begun c).entOf (fld c.p1 63 32) (fld c.p1 31 16) = none) :
    execActivate c s = .next ((s.begun c).finish c 0x40 0 0 []) := by
  rw [execActivate, State.runCmd_of_turn ht, he]

include he

/-- A generation that is INSTALLING, DEGRADED or EVICTED is refused (R286, R413). -/
theorem execActivate_of_unfit (hst : e.st ∈ [1, 5, 6]) : execActivate c s = .next ((s.begun c).finish c 0x43 0 0 []) := by
  rw [execActivate, State.runCmd_of_turn ht, he]
  exact congrArg _ (if_pos (by simpa using hst))

/-- A switch that has its command already refuses another. -/
theorem execActivate_of_busy {w : Switch} (hst : e.st ∉ [1, 5, 6]) (hact : e.active = false)
    (hw : (s.begun c).switchOf e.model = some w) (hcmd : w.cmd ≠ none) :
    execActivate c s = .next ((s.begun c).finish c 0x07 0 0 []) := by
  rw [execActivate, State.runCmd_of_turn ht, he]
  refine congrArg _ ((if_neg (by simpa using hst)).trans ?_)
  rw [hw]
  exact (if_neg (by simp [hact])).trans (if_neg hcmd)

/-- An active generation, or one whose model has no switch in progress, is activated. -/
theorem execActivate_of_free (hst : e.st ∉ [1, 5, 6]) (hfree : e.active = true ∨ (s.begun c).switchOf e.model = none) :
    execActivate c s = .next ((s.begun c).activate x c.p2.toNat (some c)) := by
  rw [execActivate, State.runCmd_of_turn ht, he]
  refine congrArg _ ((if_neg (by simpa using hst)).trans ?_)
  cases hw : (s.begun c).switchOf e.model with
  | none => rfl
  | some w =>
    have hact : e.active = true := hfree.resolve_right (by simp [hw])
    exact if_pos hact

end

end Sys2Proof.Machine

namespace Sys2Proof

open Machine

/-- Settles O51: a command in turn takes its effect in the state in which it begins; an activation by the shapes of the generation
in force, and the atomic path by the FREE plane that each used plane pairs with. -/
theorem romModels : Obligations.RomModels := by
  intro s c u
  refine ⟨fun ht => ?_, fun i hi hc => ⟨fun hp => ?_, fun hp => ?_⟩, fun ht => ?_, fun ht => ?_, fun ht => ?_, fun ht => ?_⟩
  · rw [exec_install, execInstall, State.runCmd_of_turn ht]
  · rw [exec_installComplete, execInstallComplete, hi]
    exact congrArg _ (if_pos ⟨hc, by simp [hp]⟩)
  · rw [exec_installComplete, execInstallComplete, hi]
    exact congrArg _ (if_neg (by simp [hp]))
  · rw [exec_activate]
    refine ⟨execActivate_of_unknown ht, fun x e he => ⟨execActivate_of_unfit ht he, fun hst hact hx => ?_,
      fun hst hact w => execActivate_of_busy ht he hst hact, fun hst hact hw hx y o ho => ?_⟩⟩
    · refine ⟨_, (execActivate_of_free ht he hst (.inl hact)).trans (congrArg _ (State.activate_of_active _ c hx hact)), rfl, ?_⟩
      exact State.dirEnt_unbootOthers_self e.model hx
    · rw [execActivate_of_free ht he hst (.inr hw), State.activate_of_other _ c hx hact ho]
      refine ⟨fun hs => ?_, fun hs hp hok => ?_⟩
      · rw [if_neg (by simp [hs])]
        refine ⟨_, rfl, rfl, tfind_tput_self _ _ _, fun k hk => ?_⟩
        rw [State.dirEnt_setDir_ne _ _ hk, State.dirEnt_unbootOthers]
        exact congrArg (Option.map · (u.dirEnt k)) (funext fun f => unbooted_of_ne e.model f hk)
      · rw [if_pos hs]
        have hx' := State.dirEnt_unbootOthers_self e.model hx
        obtain ⟨w, hmem, hrest⟩ := State.exists_preparesAtomic_beginSwitch (some o.gen) c.p2.toNat (some c) hx' hp hok hw
        exact ⟨_, w, rfl, hmem, hrest⟩
  · rw [exec_modelRemove, execModelRemove, State.runCmd_of_turn ht]
    refine ⟨fun hn => by rw [hn], fun x e he => ?_⟩
    rw [he]
    dsimp only
    refine ⟨fun hact => by rw [if_pos hact], fun hact => ⟨fun hbusy => ?_, fun hst hpend => ?_⟩⟩
    · rw [if_neg (by simp [hact]), if_pos hbusy]
    · rw [if_neg (by simp [hact]), if_neg (by rw [hpend]; simp [hst])]
      exact ⟨fun l hl => by rw [hl], fun hl => by rw [hl]⟩
  · rw [exec_spillRegister, execSpillRegister, State.runCmd_of_turn ht]
  · intro named good
    have hgood : good.Nodup := (nodup_bitsSet 48 _).filter _
    rw [exec_calibrate, execCalibrate_of_turn ht (named := named) (good := good) rfl rfl]
    refine ⟨fun hn => ?_, fun hn hg => ?_, fun hg => ?_⟩
    · rw [if_neg (fun h => h.1 hn), if_pos (by simp [good, hn])]
    · rw [if_pos ⟨hn, hg⟩]
    · rw [if_neg (fun h => hg h.2), if_neg hg]
      refine ⟨_, rfl, ?_, fun a => State.calQ_foldl_queueCal _ good _ _ _ hgood a⟩
      rw [State.calibrating, State.host_foldl_queueCal]

end Sys2Proof
end
